-- ==== Sys2Proof/Word.lean ====
section
/-! DEFINITION. Sys2Proof/Word.lean: the word types of the ZLQ9144 and their plainest arithmetic. -/

namespace Sys2Proof

/-- A byte of memory. -/
abbrev Byte := BitVec 8
/-- A Service word and a bank word (R44, R46). -/
abbrev W16 := BitVec 16
/-- A syllable, an S register, a register-page register (R14, R39, R63). -/
abbrev W32 := BitVec 32
/-- A product register, an F register, a Q register, a tide counter (R6, R39). -/
abbrev W64 := BitVec 64
/-- An accumulator (R39). -/
abbrev W72 := BitVec 72
/-- A parcel descriptor (R50). -/
abbrev W128 := BitVec 128

/-- Field of `n` bits of a natural number, from bit `lo` up. -/
def field (v lo n : Nat) : Nat := (v >>> lo) % 2 ^ n

/-- Bit `i` of a natural number. -/
def bitAt (v i : Nat) : Bool := (v >>> i) % 2 == 1

/-- Field of a bit vector as a natural number. -/
def fld {w : Nat} (v : BitVec w) (lo n : Nat) : Nat := field v.toNat lo n

/-- Bit of a bit vector. -/
def bitOf {w : Nat} (v : BitVec w) (i : Nat) : Bool := bitAt v.toNat i

/-- The number `v` of `n` bits read as two's complement. -/
def signed (n v : Nat) : Int := if bitAt v (n - 1) then (v : Int) - 2 ^ n else v

/-- An exact integer wrapped to `n` bits. -/
def wrap (n : Nat) (i : Int) : BitVec n := BitVec.ofInt n i

/-- `v` with the `n`-bit field at `lo` replaced by `x`. -/
def putField (v lo n x : Nat) : Nat :=
  (v >>> (lo + n)) <<< (lo + n) + (x % 2 ^ n) <<< lo + v % 2 ^ lo

/-- A bit vector with one field replaced. -/
def putFld {w : Nat} (v : BitVec w) (lo n x : Nat) : BitVec w := BitVec.ofNat w (putField v.toNat lo n x)

/-- A bit vector with one bit replaced. -/
def putBit {w : Nat} (v : BitVec w) (i : Nat) (b : Bool) : BitVec w := putFld v i 1 b.toNat

/-- Saturating increment at `max`. -/
def satInc (max n : Nat) : Nat := if n < max then n + 1 else n

/-- The bits of the natural number `m` that are set among bits 0 to `n - 1`, lowest first. -/
def setBits (n m : Nat) : List Nat := (List.range n).filter fun i => bitAt m i

end Sys2Proof
end

