-- ==== Sys2Proof/Syntax.lean ====
section
/-! DEFINITION. Sys2Proof/Syntax.lean: the commands of the ZLQ9144, one constructor for each row of the table of
operations and events (spec/opcode_table.json). A syllable row carries the physical reed and the syllable word that the
reed fetched; every other row carries what the rule behind it names as coming from outside. -/

namespace Sys2Proof

/-- A configuration register or bit of the function that acts beyond the function itself (R273, R274, R285, R298 to R305). -/
inductive CfgReg where
  /-- BAR0, BAR2 or BAR4, by index 0 to 2, low or high half -/
  | bar (i : Nat) (hi : Bool)
  /-- Bus Master Enable -/
  | busMaster
  /-- L1 under ASPM -/
  | aspm
  /-- MSI-X Enable -/
  | msixEnable
  /-- MSI-X Function Mask -/
  | functionMask
  /-- PME_En -/
  | pmeEn
  /-- PME_Status, write 1 to clear -/
  | pmeStatus
  /-- CXL.cache enable -/
  | cacheEnable
  /-- CXL.mem enable -/
  | memEnable
  /-- viral enable -/
  | viralEnable
deriving DecidableEq, Repr

/-- Where a register access lands (R288, R306). -/
inductive Space where
  /-- BAR0: the register pages, for every agent -/
  | bar0
  /-- BAR2: the doorbells -/
  | bar2
  /-- BAR4: the MSI-X table and PBA -/
  | bar4
  /-- the Ecval DVSEC -/
  | ecv
  /-- a configuration register -/
  | config (r : CfgReg)
deriving DecidableEq, Repr

/-- The commands of the block. -/
inductive Instr where
  /-- POWER_GOOD (R403): SYS_PWRGD rises with every rail in limits; the tide counter is zeroed, the straps are latched and the device enters Start-up. -/
  | powerGood (sheet : Nat) (testen : Bool)
  /-- SYS_PWRGD_FALL (R403): SYS_PWRGD falls; the device enters Off, releases VID_VALID and floats every output. -/
  | sysPwrgdFall
  /-- STATE_REQ_STARTUP (R394): A GLB.STATE_REQ with REQ 0x1 resets the device into Start-up. -/
  | stateReqStartup (ag : Nat) (key : Nat)
  /-- STATE_REQ_TEST (R394): A GLB.STATE_REQ with REQ 0x2 moves the device from Start-up or Service to Test. -/
  | stateReqTest (ag : Nat) (key : Nat)
  /-- STATE_REQ_SERVICE (R394): A GLB.STATE_REQ with REQ 0x3 moves the device to Service from Test, from Recovery with ACTIVE = 0, or from Dormant. -/
  | stateReqService (ag : Nat) (key : Nat)
  /-- STATE_REQ_RECOVERY (R394): A GLB.STATE_REQ with REQ 0x4 moves the device from Service to Recovery with reason 0x06. -/
  | stateReqRecovery (ag : Nat) (key : Nat)
  /-- STATE_REQ_TUSSOCK (R394): A GLB.STATE_REQ with REQ 0x5 moves the device to Tussock with reason 0x09. -/
  | stateReqTussock (ag : Nat) (key : Nat)
  /-- STATE_REQ_DORMANT (R394): A GLB.STATE_REQ with REQ 0x6 moves the device from Service to Dormant. -/
  | stateReqDormant (ag : Nat) (key : Nat)
  /-- STATE_TRANSITION_COMPLETE (R394): A state transition in progress reaches its target; BUSY clears and IRQ_STAT.STATE is set. -/
  | stateTransitionComplete
  /-- MESH_ROUTER_FAIL (R10): A mesh router fails its self-check, and the device enters Recovery with reason 0x04. -/
  | meshRouterFail
  /-- SURVEYOR_MEMORY_UE (R10): An uncorrectable error in Surveyor memory that holds stage-2 firmware or the sparing map sends the device to Recovery. -/
  | surveyorMemoryUe (held : Bool)
  /-- QUEUE_TABLE_UE (R265): An uncorrectable error in a queue-table entry is repaired with a spare entry, or sends the device to Recovery when none is left. -/
  | queueTableUe (macroNo : Nat) (row : Nat)
  /-- REC_ACTIVE_CLEAR (R10): Surveyor firmware clears GLB.REC.ACTIVE once the uncontained fault is contained. -/
  | recActiveClear
  /-- TD_EN_WRITE (R399): A MER.TD_EN write applies at the next tick; it starts domains after the period check or schedules their clear. -/
  | tdEnWrite (ag : Nat) (v : W32)
  /-- TIDE_BOUNDARY (R419): A domain's tide boundary tick is reached and its effects are taken domain by domain. -/
  | tideBoundary
  /-- TT_DATA_HI_WRITE (R22): A write of RED.TT_DATA_HI commits a 64-bit tide-table entry to the inactive bank. -/
  | ttDataHiWrite (ag : Nat) (r : Nat) (v : W32)
  /-- SWAP_REQUEST (R22): A write of 1 to RED.TT_CTRL.SWAP bit d requests a bank swap at the next boundary of domain d. -/
  | swapRequest (ag : Nat) (r : Nat) (d : Nat)
  /-- RUN_SET (R24): Setting RED.TT_CTRL.RUN lets the reed dispatch at once, including tides in progress. -/
  | runSet (ag : Nat) (r : Nat)
  /-- RUN_CLEAR (R24): Clearing RED.TT_CTRL.RUN stops new contexts from starting on the reed. -/
  | runClear (ag : Nat) (r : Nat)
  /-- WMCLR (R36): A write of RED.TT_CTRL.WMCLR resets the watermarks, the slack minima and PACE.MIN. -/
  | wmclr (ag : Nat) (r : Nat)
  /-- CTX_RESTART (R30): A write of RED.CTX_RESTART bit n restarts a halted context at the next tide of its domain. -/
  | ctxRestart (ag : Nat) (r : Nat) (n : Nat)
  /-- CONTEXT_START (R24): A tide-table entry whose conditions all hold starts its context, clearing its token flags and paying the switch. -/
  | contextStart (r : Nat) (d : Nat)
  /-- CONTEXT_RESUME (R25): A preempted context resumes when no higher-priority domain on the reed has a ready context. -/
  | contextResume (r : Nat)
  /-- OVERRUN_BUDGET (R28): A context that has used BUDGET beats is about to issue a non-TEND bundle, and its overrun policy is applied. -/
  | overrunBudget (r : Nat)
  /-- OVERRUN_DEADLINE (R28): The deadline tick of a started context is reached before its TEND, and its overrun policy is applied. -/
  | overrunDeadline (r : Nat) (c : Nat)
  /-- OVERRUN_START (R28): The deadline tick is reached before a context has started while RUN = 1, and its token flags are cleared. -/
  | overrunStart (r : Nat) (d : Nat) (j : Nat)
  /-- ENTRY_PASSED_OVER (R24): With RUN = 0, an unstarted entry of a tide in progress is passed over at its deadline and its flags are cleared. -/
  | entryPassedOver (r : Nat) (d : Nat) (j : Nat)
  /-- PACE_WINDOW (R36): A 1,048,576-tick pace window ends, and RED.PACE.NOW and MIN are updated. -/
  | paceWindow (r : Nat) (pace : Nat)
  /-- PACE_LOOP_ADJUST (R32): Every 4,096 ticks the PWR loop compares the minimum pace with the effective target and steps VDD_CORE. -/
  | paceLoopAdjust (r : Nat) (pace : Nat)
  /-- FAST_RAISE (R32): Every 256 ticks while a reed's pace is below 1.53 G beats/s, VDD_CORE is raised by 10 mV. -/
  | fastRaise (r : Nat) (pace : Nat)
  /-- PKG_POWER_WINDOW (R33): A package power window ends, and the effective pace target is lowered or raised against PKG_LIMIT. -/
  | pkgPowerWindow (power : Nat)
  /-- PD_DATA3_WRITE (R51): A write of RED.PD_DATA3 checks and commits a parcel descriptor as pending for the next context start. -/
  | pdData3Write (ag : Nat) (r : Nat) (v : W32)
  /-- FAR_READ_DATA (R60): The data of a far read arrive, and the waiting bundle completes. -/
  | farReadData (r : Nat) (data : W64) (ok : Bool)
  /-- FAR_READ_TIMEOUT (R60): A HOST or ATLAS read's RED.FAR_TMO timeout wins, and its bundle raises a precise MEMERR. -/
  | farReadTimeout (r : Nat)
  /-- FAR_READ_LATE (R60): Far-read data arrive after their timeout won, are discarded and counted in RED.FAR_STAT.LATE. -/
  | farReadLate (r : Nat)
  /-- FAR_STORE_ARRIVAL (R61): A posted far store is accepted by its target and leaves the store buffer. -/
  | farStoreArrival (r : Nat)
  /-- FAR_STORE_TIMEOUT (R61): A HOST or ATLAS store is not acknowledged within its timeout, leaves the buffer and is treated as failed. -/
  | farStoreTimeout (r : Nat)
  /-- FAR_STORE_FAIL (R61): A far store that has left the reed fails, and the reed sets WERR and writes Field Book 0x0603. -/
  | farStoreFail (r : Nat) (addr : Nat)
  /-- MAC_S (R90): The MAC.S syllable adds a 16×16 product of the X and Y fetches to An. -/
  | macS (r : Nat) (w : W32)
  /-- MAC_D (R90): The MAC.D syllable adds a 32×32 product of the X and Y fetches to An. -/
  | macD (r : Nat) (w : W32)
  /-- MSU_S (R90): The MSU.S syllable subtracts a 16×16 product from An. -/
  | msuS (r : Nat) (w : W32)
  /-- MSU_D (R90): The MSU.D syllable subtracts a 32×32 product from An. -/
  | msuD (r : Nat) (w : W32)
  /-- MPA_S (R90): The MPA.S syllable sets An to a 16×16 product. -/
  | mpaS (r : Nat) (w : W32)
  /-- MPA_D (R90): The MPA.D syllable sets An to a 32×32 product. -/
  | mpaD (r : Nat) (w : W32)
  /-- DMAC (R90): The DMAC syllable adds a dual 16×16 product sum to An. -/
  | dmac (r : Nat) (w : W32)
  /-- DMSU (R90): The DMSU syllable subtracts a dual 16×16 product sum from An. -/
  | dmsu (r : Nat) (w : W32)
  /-- DMPA (R90): The DMPA syllable sets An to a dual 16×16 product sum. -/
  | dmpa (r : Nat) (w : W32)
  /-- MUL (R96): The MUL syllable forms a signed 32×32 product in Mn. -/
  | mul (r : Nat) (w : W32)
  /-- MULU (R96): The MULU syllable forms an unsigned 32×32 product in Mn. -/
  | mulu (r : Nat) (w : W32)
  /-- ACLR (R96): The ACLR syllable clears An. -/
  | aclr (r : Nat) (w : W32)
  /-- ALD (R96): The ALD syllable loads An with a sign-extended S register pair. -/
  | ald (r : Nat) (w : W32)
  /-- AMOV (R96): The AMOV syllable sets An to sign-extended Mn. -/
  | amov (r : Nat) (w : W32)
  /-- AADD (R96): The AADD syllable adds sign-extended Mn to An. -/
  | aadd (r : Nat) (w : W32)
  /-- ASUB (R96): The ASUB syllable subtracts sign-extended Mn from An. -/
  | asub (r : Nat) (w : W32)
  /-- ANEG (R96): The ANEG syllable negates An. -/
  | aneg (r : Nat) (w : W32)
  /-- ASHL (R97): The ASHL syllable shifts An left by an immediate count. -/
  | ashl (r : Nat) (w : W32)
  /-- ASHR (R97): The ASHR syllable shifts An right arithmetically by an immediate count. -/
  | ashr (r : Nat) (w : W32)
  /-- ALSR (R97): The ALSR syllable shifts An right logically by an immediate count. -/
  | alsr (r : Nat) (w : W32)
  /-- ACC_ASH (R96): The M-ACC ASH syllable shifts An by the signed count in SA. -/
  | accAsh (r : Nat) (w : W32)
  /-- FADD (R131): The FADD syllable adds two floating-point values. -/
  | fadd (r : Nat) (w : W32)
  /-- FSUB (R131): The FSUB syllable subtracts two floating-point values. -/
  | fsub (r : Nat) (w : W32)
  /-- FMUL (R132): The FMUL syllable multiplies two floating-point values. -/
  | fmul (r : Nat) (w : W32)
  /-- FMA (R133): The FMA syllable computes FD + FA × FB with one rounding. -/
  | fma (r : Nat) (w : W32)
  /-- FMS (R133): The FMS syllable computes FD − FA × FB with one rounding. -/
  | fms (r : Nat) (w : W32)
  /-- FNEG (R134): The FNEG syllable inverts the sign of FA. -/
  | fneg (r : Nat) (w : W32)
  /-- FABS (R134): The FABS syllable clears the sign of FA. -/
  | fabs (r : Nat) (w : W32)
  /-- FMIN (R134): The FMIN syllable returns the lesser operand. -/
  | fmin (r : Nat) (w : W32)
  /-- FMAX (R134): The FMAX syllable returns the greater operand. -/
  | fmax (r : Nat) (w : W32)
  /-- FCEQ (R135): The FCEQ syllable writes a predicate for FA = FB. -/
  | fceq (r : Nat) (w : W32)
  /-- FCLT (R135): The FCLT syllable writes a predicate for FA < FB. -/
  | fclt (r : Nat) (w : W32)
  /-- FCLE (R135): The FCLE syllable writes a predicate for FA ≤ FB. -/
  | fcle (r : Nat) (w : W32)
  /-- FCUN (R135): The FCUN syllable writes a predicate that is true when either operand is NaN. -/
  | fcun (r : Nat) (w : W32)
  /-- FCVTD2S (R136): The FCVTD2S syllable converts binary64 to binary32. -/
  | fcvtd2s (r : Nat) (w : W32)
  /-- FCVTS2D (R136): The FCVTS2D syllable converts binary32 to binary64. -/
  | fcvts2d (r : Nat) (w : W32)
  /-- FCVTH2S (R136): The FCVTH2S syllable converts binary16 to binary32. -/
  | fcvth2s (r : Nat) (w : W32)
  /-- FCVTS2H (R136): The FCVTS2H syllable converts binary32 to binary16. -/
  | fcvts2h (r : Nat) (w : W32)
  /-- FCVTF2I (R137): The FCVTF2I syllable converts a floating-point value to int32. -/
  | fcvtf2i (r : Nat) (w : W32)
  /-- FCVTI2F (R137): The FCVTI2F syllable converts an int32 to floating point. -/
  | fcvti2f (r : Nat) (w : W32)
  /-- FMOVF2S (R74): The FMOVF2S syllable moves FA[31:0] to an S register. -/
  | fmovf2s (r : Nat) (w : W32)
  /-- FMOVS2F (R74): The FMOVS2F syllable moves a zero-extended S register to an F register. -/
  | fmovs2f (r : Nat) (w : W32)
  /-- FMOVQ (R110): The FMOVQ syllable moves a Q register to an F register once its tag is valid. -/
  | fmovq (r : Nat) (w : W32)
  /-- FMOV (R74): The FMOV syllable copies all 64 bits of an F register. -/
  | fmov (r : Nat) (w : W32)
  /-- VADD (R141): The VADD syllable adds two vectors lane by lane. -/
  | vadd (r : Nat) (w : W32)
  /-- VSUB (R141): The VSUB syllable subtracts two vectors lane by lane. -/
  | vsub (r : Nat) (w : W32)
  /-- VMUL (R141): The VMUL syllable multiplies two vectors lane by lane. -/
  | vmul (r : Nat) (w : W32)
  /-- VFMA (R141): The VFMA syllable computes a fused multiply-add on each binary32 lane. -/
  | vfma (r : Nat) (w : W32)
  /-- VMIN (R141): The VMIN syllable takes the minimum of each lane. -/
  | vmin (r : Nat) (w : W32)
  /-- VMAX (R141): The VMAX syllable takes the maximum of each lane. -/
  | vmax (r : Nat) (w : W32)
  /-- VAND (R75): The VAND syllable ANDs the integer lanes. -/
  | vand (r : Nat) (w : W32)
  /-- VOR (R75): The VOR syllable ORs the integer lanes. -/
  | vor (r : Nat) (w : W32)
  /-- VXOR (R75): The VXOR syllable XORs the integer lanes. -/
  | vxor (r : Nat) (w : W32)
  /-- VDUP (R75): The VDUP syllable copies one lane of VA to every lane of VD. -/
  | vdup (r : Nat) (w : W32)
  /-- FLD_W (R76): The FLD.W syllable loads a double into F[31:0]. -/
  | fldW (r : Nat) (w : W32)
  /-- FLD_Q (R76): The FLD.Q syllable loads a quad into an F register. -/
  | fldQ (r : Nat) (w : W32)
  /-- VLD (R76): The VLD syllable loads 8 words into a V register. -/
  | vld (r : Nat) (w : W32)
  /-- FST_W (R76): The FST.W syllable stores F[31:0] as a double. -/
  | fstW (r : Nat) (w : W32)
  /-- FST_Q (R76): The FST.Q syllable stores an F register as a quad. -/
  | fstQ (r : Nat) (w : W32)
  /-- VST (R76): The VST syllable stores a V register as 8 words. -/
  | vst (r : Nat) (w : W32)
  /-- CLD (R146): The CLD syllable checks a Contour block and decodes four of its samples into a V register. -/
  | cld (r : Nat) (w : W32)
  /-- CST (R147): The CST syllable encodes 16 samples as a 17-word Contour block. -/
  | cst (r : Nat) (w : W32)
  /-- LVCPY (R143): The LVCPY syllable copies up to 256 32-bit elements between parcels in one atomic bundle. -/
  | lvcpy (r : Nat) (w : W32)
  /-- LVADDF (R143): The LVADDF syllable adds up to 256 binary32 elements into a destination in one atomic bundle. -/
  | lvaddf (r : Nat) (w : W32)
  /-- LMUL (R116): The LMUL syllable issues a signed 32×32 multiply to the LOU. -/
  | lmul (r : Nat) (w : W32)
  /-- LMULU (R116): The LMULU syllable issues an unsigned 32×32 multiply to the LOU. -/
  | lmulu (r : Nat) (w : W32)
  /-- LMUL64 (R116): The LMUL64 syllable issues a multiply for the low 64 bits of a 64×64 product. -/
  | lmul64 (r : Nat) (w : W32)
  /-- LMULH64 (R116): The LMULH64 syllable issues a multiply for the high 64 bits of a 64×64 product. -/
  | lmulh64 (r : Nat) (w : W32)
  /-- LDIV (R117): The LDIV syllable issues a signed divide to the LOU. -/
  | ldiv (r : Nat) (w : W32)
  /-- LDIVU (R117): The LDIVU syllable issues an unsigned divide to the LOU. -/
  | ldivu (r : Nat) (w : W32)
  /-- FDIV (R138): The FDIV syllable issues a floating-point divide to the LOU. -/
  | fdiv (r : Nat) (w : W32)
  /-- FSQRT (R138): The FSQRT syllable issues a floating-point square root to the LOU. -/
  | fsqrt (r : Nat) (w : W32)
  /-- EXP2 (R139): The EXP2 syllable issues 2^A to the LOU. -/
  | exp2 (r : Nat) (w : W32)
  /-- LOG2 (R139): The LOG2 syllable issues log2(A) to the LOU. -/
  | log2 (r : Nat) (w : W32)
  /-- SIN2PI (R139): The SIN2PI syllable issues sin(2πA) to the LOU. -/
  | sin2pi (r : Nat) (w : W32)
  /-- TANH (R139): The TANH syllable issues tanh(A) to the LOU. -/
  | tanh (r : Nat) (w : W32)
  /-- RSQRT (R139): The RSQRT syllable issues a reciprocal square root to the LOU. -/
  | rsqrt (r : Nat) (w : W32)
  /-- BCDADD (R119): The BCDADD syllable issues an 8-digit packed-BCD add to the LOU. -/
  | bcdadd (r : Nat) (w : W32)
  /-- BCDSUB (R119): The BCDSUB syllable issues an 8-digit packed-BCD subtract to the LOU. -/
  | bcdsub (r : Nat) (w : W32)
  /-- LBAR (R113): The LBAR bundle issues only when every LOU operation of its context has retired. -/
  | lbar (r : Nat) (w : W32)
  /-- LOU_RETIRE (R111): An LOU operation completes, writes its Q register, sets its flags and frees its station. -/
  | louRetire (r : Nat) (u : Nat)
  /-- LOU_TRAP_DELIVERY (R112): A held LOU trap is delivered at the first eligible bundle boundary. -/
  | louTrapDelivery (r : Nat)
  /-- LD_S (R78): The LD.S syllable loads a sign-extended single. -/
  | ldS (r : Nat) (w : W32)
  /-- LD_SU (R78): The LD.SU syllable loads a zero-extended single. -/
  | ldSu (r : Nat) (w : W32)
  /-- LD_D (R78): The LD.D syllable loads a double into an S register. -/
  | ldD (r : Nat) (w : W32)
  /-- LD_Q (R78): The LD.Q syllable loads a quad into an S register pair. -/
  | ldQ (r : Nat) (w : W32)
  /-- ST_S (R78): The ST.S syllable stores a single. -/
  | stS (r : Nat) (w : W32)
  /-- ST_D (R78): The ST.D syllable stores a double. -/
  | stD (r : Nat) (w : W32)
  /-- ST_Q (R78): The ST.Q syllable stores an S register pair as a quad. -/
  | stQ (r : Nat) (w : W32)
  /-- STA_S (R94): The STA.S syllable stores An shifted and saturated to 16 bits. -/
  | staS (r : Nat) (w : W32)
  /-- STA_D (R94): The STA.D syllable stores An shifted and saturated to 32 bits. -/
  | staD (r : Nat) (w : W32)
  /-- LDB (R78): The LDB syllable loads a sign-extended byte. -/
  | ldb (r : Nat) (w : W32)
  /-- LDBU (R78): The LDBU syllable loads a zero-extended byte. -/
  | ldbu (r : Nat) (w : W32)
  /-- LDH (R78): The LDH syllable loads a sign-extended half-word. -/
  | ldh (r : Nat) (w : W32)
  /-- LDHU (R78): The LDHU syllable loads a zero-extended half-word. -/
  | ldhu (r : Nat) (w : W32)
  /-- LDW (R78): The LDW syllable loads a word. -/
  | ldw (r : Nat) (w : W32)
  /-- STB (R78): The STB syllable stores a byte. -/
  | stb (r : Nat) (w : W32)
  /-- STH (R78): The STH syllable stores a half-word. -/
  | sth (r : Nat) (w : W32)
  /-- STW (R78): The STW syllable stores a word. -/
  | stw (r : Nat) (w : W32)
  /-- ADD (R98): The ADD syllable adds with wrap and sets OV on overflow. -/
  | add (r : Nat) (w : W32)
  /-- SUB (R98): The SUB syllable subtracts with wrap and sets OV on overflow. -/
  | sub (r : Nat) (w : W32)
  /-- ADDS (R98): The ADDS syllable adds with saturation. -/
  | adds (r : Nat) (w : W32)
  /-- SUBS (R98): The SUBS syllable subtracts with saturation. -/
  | subs (r : Nat) (w : W32)
  /-- NEG (R98): The NEG syllable negates with wrap. -/
  | neg (r : Nat) (w : W32)
  /-- NEGS (R98): The NEGS syllable negates with saturation. -/
  | negs (r : Nat) (w : W32)
  /-- AND (R79): The AND syllable ANDs two operands. -/
  | and (r : Nat) (w : W32)
  /-- OR (R79): The OR syllable ORs two operands. -/
  | or (r : Nat) (w : W32)
  /-- XOR (R79): The XOR syllable XORs two operands. -/
  | xor (r : Nat) (w : W32)
  /-- NOT (R79): The NOT syllable inverts an operand. -/
  | not (r : Nat) (w : W32)
  /-- LSL (R99): The LSL syllable shifts left. -/
  | lsl (r : Nat) (w : W32)
  /-- LSR (R99): The LSR syllable shifts right logically. -/
  | lsr (r : Nat) (w : W32)
  /-- ASR (R99): The ASR syllable shifts right arithmetically. -/
  | asr (r : Nat) (w : W32)
  /-- ASH (R99): The S-ALU ASH syllable shifts by a signed count. -/
  | ash (r : Nat) (w : W32)
  /-- MIN (R79): The MIN syllable takes the signed minimum. -/
  | min (r : Nat) (w : W32)
  /-- MAX (R79): The MAX syllable takes the signed maximum. -/
  | max (r : Nat) (w : W32)
  /-- MINU (R79): The MINU syllable takes the unsigned minimum. -/
  | minu (r : Nat) (w : W32)
  /-- MAXU (R79): The MAXU syllable takes the unsigned maximum. -/
  | maxu (r : Nat) (w : W32)
  /-- CMPEQ (R79): The CMPEQ syllable writes a predicate for equality. -/
  | cmpeq (r : Nat) (w : W32)
  /-- CMPNE (R79): The CMPNE syllable writes a predicate for inequality. -/
  | cmpne (r : Nat) (w : W32)
  /-- CMPLT (R79): The CMPLT syllable writes a predicate for signed less-than. -/
  | cmplt (r : Nat) (w : W32)
  /-- CMPGE (R79): The CMPGE syllable writes a predicate for signed greater-or-equal. -/
  | cmpge (r : Nat) (w : W32)
  /-- CMPLTU (R79): The CMPLTU syllable writes a predicate for unsigned less-than. -/
  | cmpltu (r : Nat) (w : W32)
  /-- CMPGEU (R79): The CMPGEU syllable writes a predicate for unsigned greater-or-equal. -/
  | cmpgeu (r : Nat) (w : W32)
  /-- MOV (R79): The MOV syllable copies a register or a 6-bit immediate. -/
  | mov (r : Nat) (w : W32)
  /-- PAND (R79): The PAND syllable ANDs two predicates. -/
  | pand (r : Nat) (w : W32)
  /-- POR (R79): The POR syllable ORs two predicates. -/
  | por (r : Nat) (w : W32)
  /-- PNOT (R79): The PNOT syllable inverts a predicate. -/
  | pnot (r : Nat) (w : W32)
  /-- MOVI (R80): The MOVI syllable loads a 16-bit immediate into all or the top half of an S register. -/
  | movi (r : Nat) (w : W32)
  /-- MOVQ (R80): The MOVQ syllable moves half of a Q register to an S register once its tag is valid. -/
  | movq (r : Nat) (w : W32)
  /-- MVA (R94): The MVA syllable moves An shifted and saturated to an S register. -/
  | mva (r : Nat) (w : W32)
  /-- MVM (R80): The MVM syllable moves half of Mn to an S register. -/
  | mvm (r : Nat) (w : W32)
  /-- RDSR (R81): The RDSR syllable reads a special register. -/
  | rdsr (r : Nat) (w : W32)
  /-- WRSR (R81): The WRSR syllable writes a special register. -/
  | wrsr (r : Nat) (w : W32)
  /-- RPD (R80): The RPD syllable reads a quarter of a live parcel descriptor. -/
  | rpd (r : Nat) (w : W32)
  /-- WPD (R82): The WPD syllable writes a quarter of the staging register and, with QW = 3, commits it to PDn. -/
  | wpd (r : Nat) (w : W32)
  /-- BR (R85): The BR syllable branches to a relative target. -/
  | br (r : Nat) (w : W32)
  /-- CALL (R153): The CALL syllable pushes the return address and branches. -/
  | call (r : Nat) (w : W32)
  /-- BRI (R85): The BRI syllable branches to the address in Sa. -/
  | bri (r : Nat) (w : W32)
  /-- CALLI (R153): The CALLI syllable pushes the return address and branches to the address in Sa. -/
  | calli (r : Nat) (w : W32)
  /-- RET (R153): The RET syllable pops the return stack and branches to the popped address. -/
  | ret (r : Nat) (w : W32)
  /-- RFE (R163): The RFE syllable restores the top exception frame, pops it and continues at EPC. -/
  | rfe (r : Nat) (w : W32)
  /-- LOOP (R154): The LOOP syllable sets up a hardware loop level. -/
  | loop (r : Nat) (w : W32)
  /-- REP (R156): The REP syllable repeats the next bundle without preemption. -/
  | rep (r : Nat) (w : W32)
  /-- REPI (R156): The REPI syllable repeats the next bundle, preemptible between repetitions. -/
  | repi (r : Nat) (w : W32)
  /-- NOP (R87): The NOP syllable does nothing. -/
  | nop (r : Nat) (w : W32)
  /-- TEND (R168): TEND waits for LOU drain, empties the latency shadow, discards the frames and ends the context's run for the tide. -/
  | tend (r : Nat) (w : W32)
  /-- FLUSHI (R158): The FLUSHI syllable discards the prefetched bundle, invalidates the loop buffer and refetches from IM. -/
  | flushi (r : Nat) (w : W32)
  /-- BCHK (R87): The BCHK syllable traps when an index is at or above its bound. -/
  | bchk (r : Nat) (w : W32)
  /-- BREAK (R166): The BREAK syllable traps after its bundle completes, recording its CODE. -/
  | break (r : Nat) (w : W32)
  /-- TS_CFG_WRITE (R174): A BED.TS_CFG write configures a token slot, at once or at the next boundary of its domain. -/
  | tsCfgWrite (ag : Nat) (b : Nat) (v : W32)
  /-- POOL_SCRUB (R193): The bed-pool patrol scrub reads and corrects the pool over each PERIOD × 2^20 ticks. -/
  | poolScrub (b : Nat) (ce : Nat)
  /-- HBM_SCRUB (R183): The HBM patrol scrub reads and corrects each pseudo-channel over each PERIOD × 2^30 ticks. -/
  | hbmScrub (p : Nat) (ce : Nat)
  /-- REFRESH_RATE_RAISED (R184): A stack's temperature crosses a threshold, and the refresh rate changes, with Field Book 0x0310 on entry. -/
  | refreshRateRaised (stack : Nat) (temp : Nat)
  /-- SELF_REFRESH_ENTRY (R184): In Dormant, after 1 ms with no request, the stacks return to self-refresh. -/
  | selfRefreshEntry
  /-- BISNP_RESPONSE (R187): The host answers a back-invalidate snoop, and any dirty data are written before the device's write. -/
  | bisnpResponse (line : Nat) (dirty : Option (List Byte))
  /-- HBM_ECC_WINDOW (R368): An HBM correctable-error window of 2^30 ticks ends, and pages over the threshold are retired. -/
  | hbmEccWindow (page : Nat) (ce : Nat)
  /-- PAGE_REBACK (R189): The copy of a retired page ends, and the page switches atomically to its reserve with Field Book 0x0621. -/
  | pageReback (page : Nat)
  /-- SD_COMMIT (R200): A write of SLC.SD_DATA15 checks and commits a stream descriptor. -/
  | sdCommit (ag : Nat) (b : Nat) (v : W32)
  /-- START (R201): The Sluice START command arms a RING stream or starts a COPY stream. -/
  | start (b : Nat) (entry : List W32)
  /-- STOP (R201): The Sluice STOP command makes a stream IDLE at the next boundary, or at once when PAUSED. -/
  | stop (b : Nat) (entry : List W32)
  /-- RESUME (R201): The Sluice RESUME command returns a PAUSED stream to RUNNING at the next boundary. -/
  | resume (b : Nat) (entry : List W32)
  /-- SETRATE (R206): The Sluice SETRATE command sets a fixed-rate ring's rate from tide m. -/
  | setrate (b : Nat) (entry : List W32)
  /-- KEYLOAD (R213): The Sluice KEYLOAD command unwraps a library key into a key slot. -/
  | keyload (b : Nat) (entry : List W32)
  /-- GATHER (R207): The Sluice GATHER command runs a stream's gather list once. -/
  | gather (b : Nat) (entry : List W32)
  /-- FENCE (R201): The Sluice FENCE command is queued to complete after every earlier command. -/
  | fence (b : Nat) (entry : List W32)
  /-- FENCE_COMPLETE (R201): Every command before a FENCE has completed, and the FENCE completes. -/
  | fenceComplete (b : Nat)
  /-- BADCMD (R201): A command with an undefined opcode or a non-zero unlisted field completes with status BADCMD. -/
  | badcmd (b : Nat) (entry : List W32)
  /-- RING_WINDOW_RESIDENT (R204): After an UNDERRUN, the ring window becomes resident within the tide, and the flag is set. -/
  | ringWindowResident (b : Nat) (ix : Nat)
  /-- SLUICE_REQUEST_ISSUE (R210): An engine issues a 64-byte line read into a free request slot. -/
  | sluiceRequestIssue (b : Nat) (ix : Nat) (rq : Nat) (line : Nat)
  /-- SLUICE_REQUEST_DATA (R211): A Sluice request's data arrive and are verified, decoded and written to the destination. -/
  | sluiceRequestData (b : Nat) (rq : Nat) (data : List Byte) (ok : Bool)
  /-- SLUICE_REQUEST_TIMEOUT (R212): A HOST or ATLAS request's timeout wins, TIMEOUT is posted and the unit takes a fault. -/
  | sluiceRequestTimeout (b : Nat) (rq : Nat)
  /-- SLUICE_LATE_ARRIVAL (R212): Data arrive after their timeout, are discarded, and LATE is posted. -/
  | sluiceLateArrival (b : Nat) (k : Nat)
  /-- SLC_LOAD_WINDOW (R223): A 1,048,576-tick window ends, and SLC.LOAD.NOW and PEAK are updated. -/
  | slcLoadWindow (b : Nat) (load : Nat)
  /-- ENGINE_SELFCHECK_FAIL (R377): A Sluice engine fails its self-check, and engine 32 takes over its page, or the device enters Recovery. -/
  | engineSelfcheckFail (b : Nat)
  /-- ASP_ENABLE (R226): Writing ASP.CTRL.EN = 1 checks the port configuration and enables the port or refuses with ENERR. -/
  | aspEnable (ag : Nat) (n : Nat) (v : W32)
  /-- ASP_DISABLE (R236): Writing ASP.CTRL.EN = 0 stops ingress and drives DOUT low, with no clocks on a master. -/
  | aspDisable (ag : Nat) (n : Nat) (v : W32)
  /-- ASP_FRAME_START (R227): A master port starts a frame at its T_f and applies pending slot-map changes. -/
  | aspFrameStart (n : Nat)
  /-- ASP_SLAVE_FRAME_START (R228): A slave port detects a frame start on FS and handles lock, phase, realign and relock. -/
  | aspSlaveFrameStart (n : Nat) (periods : Nat)
  /-- ASP_SLOT_INGRESS (R229): The last bit of an input slot arrives, and the slot is written to the X-bank with its token set. -/
  | aspSlotIngress (n : Nat) (k : Nat) (v : Nat)
  /-- ASP_SLOT_EMIT (R232): At the first bit of an output slot, the staging entry is moved to the shifter. -/
  | aspSlotEmit (n : Nat) (k : Nat)
  /-- ASP_STAGING_LOAD (R231): After a reed store to an output source, the staging entry is reloaded from the source words. -/
  | aspStagingLoad (n : Nat) (k : Nat)
  /-- ASP_CLOCK_LOSS (R235): A slave port sees no BCLK edge for 4 × BT ticks and clears LOCK. -/
  | aspClockLoss (n : Nat)
  /-- ASP_LOSS_ZERO_WRITE (R235): Under LOSSPOL ZERO, each tide writes zero to every mapped input slot and sets its token. -/
  | aspLossZeroWrite (n : Nat) (k : Nat)
  /-- SLOTMAP_WRITE (R234): An ASP.SLOTMAPk write is checked and takes effect at the next frame start. -/
  | slotmapWrite (ag : Nat) (n : Nat) (k : Nat) (v : W32)
  /-- OSLOTMAP_WRITE (R231): An ASP.OSLOTMAPk write is checked and takes effect at the next frame start, with a staging load. -/
  | oslotmapWrite (ag : Nat) (n : Nat) (k : Nat) (v : W32)
  /-- ASP_LOOP_CTRL_WRITE (R238): An ASP.LOOP_CTRL write selects a loop-back from the next frame start. -/
  | aspLoopCtrlWrite (ag : Nat) (n : Nat) (depth : Nat)
  /-- SSP_ENABLE (R242): Writing SSP.CTRL.EN = 1 checks the port configuration and enables the port or refuses with ENERR. -/
  | sspEnable (ag : Nat) (n : Nat)
  /-- SSP_DISABLE (R245): Writing SSP.CTRL.EN = 0 stops records and flags and idles the outputs. -/
  | sspDisable (ag : Nat) (n : Nat)
  /-- SSP_MATRIX_STEP (R246): A matrix step starts and drives its scan row high. -/
  | sspMatrixStep (n : Nat)
  /-- SSP_MATRIX_SAMPLE (R246): At the step start plus SETTLE, all 16 sense pins are sampled. -/
  | sspMatrixSample (n : Nat) (vals : List Nat)
  /-- SSP_CONVERSION_COMPLETE (R246): A matrix conversion completes, and the 16 records of the step are written. -/
  | sspConversionComplete (n : Nat)
  /-- SSP_ADC_PASS (R247): An ADC pass starts with CSN falling. -/
  | sspAdcPass (n : Nat)
  /-- SSP_ADC_WORD (R247): A converter word is received, and its record is written. -/
  | sspAdcWord (n : Nat) (v : Nat)
  /-- MIDI_RX_FRAME (R248): A MIDI byte frame is received and written as a record, with framing-error handling. -/
  | midiRxFrame (n : Nat) (b : Byte) (stop : Bool) (tick : Nat)
  /-- MIDI_TX (R249): A write of SSP.MIDI_TX appends a byte to the transmit FIFO, or counts TXOVF when it is full. -/
  | midiTx (ag : Nat) (n : Nat) (b : Byte)
  /-- MIDI_TX_FRAME_SENT (R249): A transmit frame's stop bit ends, and the next byte starts or TXEMPTY is raised. -/
  | midiTxFrameSent (n : Nat)
  /-- SMAP_WRITE (R243): An SSP.SMAPi write is checked and restarts the record numbering of its entry. -/
  | smapWrite (ag : Nat) (n : Nat) (ix : Nat) (v : W32)
  /-- SSP_LOOP_CTRL_WRITE (R251): An SSP.LOOP_CTRL write selects a loop-back from the next step, pass or frame. -/
  | sspLoopCtrlWrite (ag : Nat) (n : Nat) (depth : Nat)
  /-- TCU_STEP (R252): A running channel steps its count on a tick or on a CLKIN event. -/
  | tcuStep (c : Nat)
  /-- TCU_MATCH (R253): A channel's count equals CMP after a step, a set or a CMP write, and a MATCH event fires. -/
  | tcuMatch (c : Nat)
  /-- TCU_OVF (R254): A channel's count wraps to 0, and an OVF event fires. -/
  | tcuOvf (c : Nat)
  /-- TCU_ACTION (R255): The self and target actions of a channel event apply at the next tick. -/
  | tcuAction (c : Nat)
  /-- TCU_PAIR_CARRY (R256): Two ticks after the low channel of a pair wraps, the high channel steps. -/
  | tcuPairCarry (c : Nat)
  /-- TCU_START (R252): The CTRL.START bit starts a channel at the next tick. -/
  | tcuStart (ag : Nat) (c : Nat)
  /-- TCU_STOP (R252): The CTRL.STOP bit stops a channel at the next tick. -/
  | tcuStop (ag : Nat) (c : Nat)
  /-- TCU_RESET (R252): The CTRL.RESET bit sets a channel's count to 0 at the next tick. -/
  | tcuReset (ag : Nat) (c : Nat)
  /-- TCU_CNT_WRITE (R252): A CHc_CNT write sets the count at the next tick in place of a step. -/
  | tcuCntWrite (ag : Nat) (c : Nat) (v : W32)
  /-- TCU_CMP_WRITE (R253): A CHc_CMP write goes to the live comparator at the next tick. -/
  | tcuCmpWrite (ag : Nat) (c : Nat) (v : W32)
  /-- CAPSEL_WRITE (R259): A TCU.CAPSELj write sets the input source, restarts the prescaler and resets the filter. -/
  | capselWrite (ag : Nat) (j : Nat) (v : W32) (level : Bool)
  /-- CAPTURE_EVENT (R260): A filtered, prescaled capture-input edge captures the count into CAP. -/
  | captureEvent (j : Nat)
  /-- QMG_COMMIT (R267): The QCMD COMMIT operation checks the QDATA words and writes them to the queue-table entry. -/
  | qmgCommit (ag : Nat)
  /-- QMG_DISABLE (R267): The QCMD DISABLE operation sets a queue's V to 0 at once. -/
  | qmgDisable (ag : Nat)
  /-- QMG_READ (R267): The QCMD READ operation copies the queue-table entry into QDATA. -/
  | qmgRead (ag : Nat)
  /-- QMG_ADVANCE (R267): The QCMD ADVANCE operation sets a queue's device-side index after the doorbell check. -/
  | qmgAdvance (ag : Nat)
  /-- DOORBELL_WRITE (R269): A doorbell write is checked and sets the host-side index, or is refused with ERR. -/
  | doorbellWrite (q : Nat) (v : W32)
  /-- MODERATION_EXPIRY (R272): A moderation window expires by count or time; the queue disarms and interrupts or signals wake. -/
  | moderationExpiry (q : Nat)
  /-- MSIX_MASK_CLEAR (R274): An MSI-X vector or function mask clears, and a pending message is sent once. -/
  | msixMaskClear (v : Option Nat)
  /-- MSIX_ENABLE (R273): With the function in D0, MSI-X is enabled; held records are written and pending vectors sent. -/
  | msixEnable
  /-- SWTRIG (R275): A write of EVR.SWTRIG fires a software-trigger source. -/
  | swtrig (ag : Nat) (v : W32)
  /-- SRC_CFG_WRITE (R276): An EVR.SRC_CFG write sets a source's MASK, PRIO, TGT and EQ. -/
  | srcCfgWrite (ag : Nat) (v : W32)
  /-- EVENT_COMMIT (R277): The Event Router commits a record for an eligible source to its host event queue. -/
  | eventCommit
  /-- SV_CLAIM (R278): A read of EVR.SVn_CLAIM claims the highest offered source and pushes it onto the priority stack. -/
  | svClaim (ag : Nat) (n : Nat)
  /-- EOI (R279): A write of EVR.SVn_EOI pops the stack top when the priority matches, or raises PRIO_STACK_FAULT. -/
  | eoi (ag : Nat) (n : Nat) (prio : Nat)
  /-- EOI_FORCE (R279): A write of EVR.SVn_EOI with FORCE = 1 pops the top entry whatever its priority. -/
  | eoiForce (ag : Nat) (n : Nat)
  /-- LINK_TRAINED (R287): CXL link training completes, with Field Book 0x0702, or falls back to CXL.io only. -/
  | linkTrained (width : Nat) (rate : Nat) (alt : Bool)
  /-- L0P_WIDTH_CHANGE (R287): The host requests an L0p width change, and the device accepts it. -/
  | l0pWidthChange (width : Nat)
  /-- L1_ENTRY (R301): With no traffic pending, the link enters L1 under ASPM. -/
  | l1Entry
  /-- L2_ENTRY (R301): The host's turn-off handshake takes the link to L2. -/
  | l2Entry
  /-- PERST_ASSERT (R303): PERST# asserts and resets the host interface. -/
  | perstAssert
  /-- PERST_DEASSERT (R302): PERST# deasserts, WAKE# is released and the link trains. -/
  | perstDeassert
  /-- HOT_RESET (R303): A hot reset resets the link and the CXL.io function state. -/
  | hotReset
  /-- LINK_DOWN (R303): A surprise link down resets the host interface as PERST# does. -/
  | linkDown
  /-- FLR (R303): A function-level reset resets the CXL.io function state and sets the vector masks. -/
  | flr
  /-- CXL_RESET (R303): A CXL Reset resets the decoders and enables, empties the snoop filter and ends CXL.cache requests. -/
  | cxlReset
  /-- D_STATE_CHANGE (R300): The host changes the function's D-state, which changes whether the host is reachable. -/
  | dStateChange (d : Nat)
  /-- HDM_COMMIT (R290): The host commits an HDM decoder, which fails under the listed conditions. -/
  | hdmCommit (k : Nat) (base : W64) (size : Nat) (skip : Nat) (ways : Nat)
  /-- CXL_MEM_READ (R291): A host CXL.mem read is served from HBM, with poison, re-backing and Dormant wake as needed. -/
  | cxlMemRead (dpa : Nat) (keep : Bool)
  /-- CXL_MEM_WRITE (R291): A host CXL.mem write is applied to HBM, with poison marking as needed. -/
  | cxlMemWrite (dpa : Nat) (data : List Byte) (mask : W64) (poison : Bool) (keep : Bool)
  /-- UIO_ACCESS (R291): A UIO read or write into a committed decoder is served as a CXL.mem access. -/
  | uioAccess (write : Bool) (dpa : Nat) (data : List Byte) (mask : W64)
  /-- HOST_SNOOP (R292): A host snoop to the device is answered as a miss. -/
  | hostSnoop (hpa : Nat)
  /-- HOST_READ_COMPLETION (R294): A completion arrives for a device-to-host read request. -/
  | hostReadCompletion (k : Nat) (data : List Byte) (ok : Bool)
  /-- HOST_REQUEST_TIMEOUT (R294): A device-to-host request with no completion for 2^26 ticks is ended by the host interface. -/
  | hostRequestTimeout (k : Nat)
  /-- DOE_REQUEST (R295): A DOE data object is received and answered. -/
  | doeRequest (inst : Nat) (type : W32)
  /-- DOE_ABORT (R295): A DOE instance is aborted without affecting the other instance. -/
  | doeAbort (inst : Nat)
  /-- SPDM_REQUEST (R348): An SPDM 1.3 request is answered, or receives Busy before stage-1 verifies. -/
  | spdmRequest (code : Nat)
  /-- LKEK_INSTALL (R350): A vendor-defined SPDM request in a secured session installs the LKEK. -/
  | lkekInstall (key : BitVec 256) (gen : W32)
  /-- IDE_KM_KEY (R296): IDE_KM in a secured session delivers IDE stream keys. -/
  | ideKmKey (n : Nat)
  /-- IDE_INTEGRITY_FAIL (R296): An IDE stream detects an integrity failure and moves to its insecure state. -/
  | ideIntegrityFail (n : Nat)
  /-- CXL_LOOPBACK_START (R307): A GLB.LOOP_CTRL write of a non-zero DEPTH in Test starts a host-interface loop-back. -/
  | cxlLoopbackStart (ag : Nat) (v : W32)
  /-- CXL_LOOPBACK_END (R307): A host-interface loop-back reaches its duration, sets DONE and FAIL, and the link retrains. -/
  | cxlLoopbackEnd (errs : Nat) (formed : Bool)
  /-- ATLAS_JOIN (R308): Writing ATL.CTRL.EN = 1 makes the sheet join the atlas. -/
  | atlasJoin (ag : Nat)
  /-- ATLAS_LEAVE (R308): Clearing ATL.CTRL.EN takes every link down and makes the sheet its own tidemaster. -/
  | atlasLeave (ag : Nat)
  /-- CWL_ENABLE (R310): Writing CWL.CTRL.EN = 1 starts training of a link. -/
  | cwlEnable (ag : Nat) (l : Nat)
  /-- CWL_DISABLE (R310): Writing CWL.CTRL.EN = 0 takes a link down. -/
  | cwlDisable (ag : Nat) (l : Nat)
  /-- CWL_RETRAIN (R333): The CWL.CTRL.RETRAIN bit takes a link down and trains it again. -/
  | cwlRetrain (ag : Nat) (l : Nat)
  /-- CWL_TRAINED (R310): Training ends, and the link enters UP or MISWIRED according to its peer. -/
  | cwlTrained (l : Nat) (peerCfg : W32) (psheet : Nat) (plink : Nat)
  /-- MISWIRED_RETRY (R310): Every 1 ms a MISWIRED link retries training. -/
  | miswiredRetry (l : Nat)
  /-- CTRL_FLIT (R313): A CTRL flit is received, with its acknowledgement and credits. -/
  | ctrlFlit (l : Nat) (header : W32) (body : List Byte)
  /-- NAK_FLIT (R313): A NAK flit is received, and the sender replays from the named flit. -/
  | nakFlit (l : Nat) (header : W32) (body : List Byte)
  /-- HB_FLIT (R325): A heartbeat is received, updating delay, offset, steering, ages and tidemaster choice. -/
  | hbFlit (l : Nat) (header : W32) (body : List Byte) (frac : Nat)
  /-- AUDIO_FLIT (R319): An AUDIO flit is received, written if its TAG is current, and forwarded. -/
  | audioFlit (l : Nat) (header : W32) (body : List Byte)
  /-- MEMRD_FLIT (R324): A MEMRD flit is routed on or served from the target's HBM. -/
  | memrdFlit (l : Nat) (header : W32) (body : List Byte)
  /-- MEMRSP_FLIT (R324): A MEMRSP flit pair is routed on or completes the requester's atlas read. -/
  | memrspFlit (l : Nat) (header : W32) (body : List Byte) (body2 : List Byte)
  /-- MEMWR_FLIT (R324): A MEMWR flit pair is routed on or writes its masked bytes to the target's HBM. -/
  | memwrFlit (l : Nat) (header : W32) (body : List Byte) (body2 : List Byte)
  /-- MGMT_FLIT (R352): A MGMT message is routed on or delivered to the target's firmware. -/
  | mgmtFlit (l : Nat) (header : W32) (body : List Byte) (body2 : List Byte)
  /-- LOOP_FLIT (R331): A LOOP flit is returned or compared for a Causeway loop-back. -/
  | loopFlit (l : Nat) (header : W32) (body : List Byte) (same : Bool)
  /-- CWL_BAD_FLIT (R313): A flit fails its CRC or has a reserved TYPE; it is discarded and a NAK is sent. -/
  | cwlBadFlit (l : Nat) (reserved : Bool)
  /-- REPLAY_TIMEOUT (R313): ACKSEQ has not advanced for 512 block times, and the sender replays from the oldest unacknowledged flit. -/
  | replayTimeout (l : Nat)
  /-- LANE_MARGIN_LOW (R314): A lane's margin stays below threshold for 1 ms, and it is swapped onto the spare without loss. -/
  | laneMarginLow (l : Nat) (lane : Nat)
  /-- LANE_LOSS (R314): An active lane loses block lock, and the spare is substituted, or the link goes DEGRADED. -/
  | laneLoss (l : Nat) (lane : Nat)
  /-- HB_SEND (R325): Every 1 µs of Meridian time, the sheet sends a heartbeat on each UP link. -/
  | hbSend
  /-- PARTITION (R326): AGE0 reaches 8 µs, and the sheet enters holdover and sets PARTITION. -/
  | partition (cut : List Nat)
  /-- SUCCESSOR_UNREACHABLE (R326): A successor's age passes 8 µs, and Field Book 0x0817 is written. -/
  | successorUnreachable (k : Nat)
  /-- PROMOTION (R327): A partitioned successor whose higher-ranked successors are all aged out promotes itself to tidemaster. -/
  | promotion
  /-- BUS_COMMIT (R317): A write of ATL.BUSW1 checks and commits a bus-table entry for the next boundary of its domain. -/
  | busCommit (ag : Nat) (v : W32)
  /-- REJOIN (R329): The ATL.CTRL.REJOIN bit starts a rejoin, which is refused or begins the phase slew. -/
  | rejoin (ag : Nat) (tm : Nat) (err : Nat)
  /-- REJOIN_COMPLETE (R329): Every sheet of the yielding part is LOCKED; PARTITION and HOLDOVER clear and RESULT reads done. -/
  | rejoinComplete
  /-- CWL_LOOPBACK_START (R331): A CWL.LOOP_CTRL write of a permitted DEPTH starts a Causeway loop-back. -/
  | cwlLoopbackStart (ag : Nat) (l : Nat) (v : W32)
  /-- CWL_LOOPBACK_END (R331): A Causeway loop-back ends, setting DONE and FAIL. -/
  | cwlLoopbackEnd (l : Nat) (errs : Nat) (formed : Bool)
  /-- START_SEQUENCE (R336): On Start-up entry, the device runs BIST, verification and training steps toward Service. -/
  | startSequence (step : Nat) (args : List Nat) (image : Option (List Byte))
  /-- STARTUP_WATCHDOG (R336): The start has not completed within 2^33 ticks and fails with reason 0x05. -/
  | startupWatchdog
  /-- PUSH_GO (R338): The SEC.PUSH_CTRL GO bit empties the push buffer and starts a push, or is refused. -/
  | pushGo (ag : Nat) (v : W32)
  /-- PUSH_DATA (R338): A write of SEC.PUSH_DATA appends 4 image bytes, and verification starts after the LEN-th byte. -/
  | pushData (ag : Nat) (v : W32)
  /-- PUSH_VERIFY_COMPLETE (R340): Verification of a pushed image or trust record ends; DONE is set and the image or record is applied. -/
  | pushVerifyComplete
  /-- BOOT_ACK (R345): A write of GLB.BOOT_ACK in Service clears the boot-attempt counter and FORCEHOST. -/
  | bootAck (ag : Nat)
  /-- SVNCOMMIT (R341): The SEC.CTRL.SVNCOMMIT bit raises the OTP SVN floors to the running stages. -/
  | svncommit (ag : Nat)
  /-- ZEROIZE (R350): The SEC.CTRL.ZEROIZE bit clears the LKEK and every Sluice key slot. -/
  | zeroize (ag : Nat)
  /-- MAILBOX_INFO (R352): A mailbox message to service 0x0001 returns the SVNs and measurements. -/
  | mailboxInfo (q : Nat) (op : Nat) (tag : W32)
  /-- MAILBOX_LOAD_IMAGE (R352): A mailbox message to service 0x0002 loads a Parzal image and extends measurement 5. -/
  | mailboxLoadImage (q : Nat) (op : Nat) (tag : W32) (l : Nat) (c : Nat) (cfg : W32) (entry : W16) (parcels : List W128) (imOff : Nat) (im : List W32) (bytes : List Byte)
  /-- MAILBOX_UNKNOWN_SERVICE (R352): A mailbox message to an undefined service is answered with status 1. -/
  | mailboxUnknownService (q : Nat) (service : Nat) (op : Nat) (tag : W32)
  /-- FB_COMMIT (R356): A queued Field Book request is committed as a record, or updates an accumulating record in place. -/
  | fbCommit (ue : Bool)
  /-- FB_REFILL (R360): A token-bucket refill period ends, adding a token and flushing a suppressed occurrence when full. -/
  | fbRefill (code : Nat)
  /-- FB_LATCH (R359): A read of FBK.RD_DATA0 latches the selected record into the read buffer. -/
  | fbLatch (ag : Nat) (ue : Bool)
  /-- WALL_SET (R358): A write of FBK.WALL_HI sets the wall time and increments EPOCH. -/
  | wallSet (ag : Nat) (hi : W32)
  /-- FB_SCRUB (R362): The Field Book patrol scrub pass completes every 2^30 ticks, correcting or finding errors. -/
  | fbScrub (main : Option Nat) (backup : Option Nat)
  /-- FB_REPAIR (R362): The FBK.CTRL.REPAIR bit hands the main SRAM to sparing for repair. -/
  | fbRepair (ag : Nat)
  /-- FB_REPAIR_COMPLETE (R362): The main SRAM repair ends; on success the backup is copied back and recording resumes in main. -/
  | fbRepairComplete (mac : Nat) (row : Nat)
  /-- MIREN_SET (R363): Setting FBK.CTRL.MIREN starts mirroring from the oldest record in the window. -/
  | mirenSet (ag : Nat)
  /-- FB_MIRROR_COPY (R363): The Field Book copies the next record to the mirror queue when the ring has room. -/
  | fbMirrorCopy
  /-- PCEIL_ESTIMATE (R368): Every 1,048,576 ticks, each reed's PCEIL is estimated and a planned retirement may start. -/
  | pceilEstimate (r : Nat) (pceil : Nat)
  /-- REED_ECC_WINDOW (R368): A reed's corrected-error window of 2^30 ticks ends and is checked against SPR.WEAR.CE. -/
  | reedEccWindow (r : Nat) (ce : Nat)
  /-- HANDSHAKE_STALL (R375): A reed shows no completed handshake for 4,096 ticks, and hard failover begins. -/
  | handshakeStall (r : Nat)
  /-- FAILOVER_RELOAD_COMPLETE (R375): After hard failover, the contexts are reloaded on the spare and start at the next boundary. -/
  | failoverReloadComplete (l : Nat)
  /-- MIGRATION_START (R370): The Surveyor starts the next queued migration, choosing a spare or waiting for the host. -/
  | migrationStart
  /-- MIGRATION_COPY_COMPLETE (R371): The copy phase of a migration ends, and the shadow run begins. -/
  | migrationCopyComplete
  /-- MIGRATION_ABANDON (R372): No boundary meets the takeover conditions within 64 tides, and the migration is abandoned. -/
  | migrationAbandon
  /-- MIGRATION_RETRY (R372): The retry delay after an abandoned planned migration expires, and the migration is tried again. -/
  | migrationRetry
  /-- MIG_GO (R370): The SPR.MIG_CTRL GO bit requests a planned retirement of the named logical reed. -/
  | migGo (ag : Nat) (l : Nat)
  /-- MIG_GO_FORCE (R370): The SPR.MIG_CTRL GO and FORCE bits proceed with a cross-bed move past a failed XCOST check. -/
  | migGoForce (ag : Nat) (l : Nat)
  /-- SURVEYOR_WATCHDOG (R376): A working Surveyor is unresponsive for 2^24 ticks; an idle Surveyor takes its number, or Recovery is entered. -/
  | surveyorWatchdog (n : Nat)
  /-- TEST_PROC_RUN (R380): The TST.PSEL RUN bit starts a test procedure on its target, or refuses it. -/
  | testProcRun (ag : Nat) (v : W32)
  /-- TEST_PROC_END (R380): A test procedure ends, and PSTAT and Field Book 0x0E01 are written. -/
  | testProcEnd (first : Option Nat)
  /-- SPARE_BIST_PERIODIC (R380): Every 2^36 ticks, firmware runs BIST on idle spare reeds and engine 32. -/
  | spareBistPeriodic (reeds : List Nat) (engineFails : Bool)
  /-- HBM_LOOPBACK_START (R382): An HBM.LOOP_CTRL write of a non-zero DEPTH in Test starts a pseudo-channel loop-back. -/
  | hbmLoopbackStart (ag : Nat) (p : Nat) (v : W32)
  /-- HBM_LOOPBACK_END (R382): An HBM loop-back ends, setting DONE and FAIL. -/
  | hbmLoopbackEnd (p : Nat) (errs : Nat) (formed : Bool)
  /-- IRQ_FORCE (R388): A write of 1 to an IRQ_FORCE bit sets the IRQ_STAT bit and may fire the page source. -/
  | irqForce (ag : Nat) (pg : Nat) (v : W32)
  /-- MER_CFG_WRITE (R396): A MER.CFG write is checked and selects the tick family and reference, which then relocks. -/
  | merCfgWrite (ag : Nat) (v : W32)
  /-- REF_LOCK (R396): The tick locks to the selected reference, and REFLOCK is set. -/
  | refLock
  /-- REF_LOSS (R397): The reference shows no edge for its window; the Meridian holds its frequency and REFLOSS is set. -/
  | refLoss
  /-- REF_RETURN (R397): The reference returns, and the Meridian relocks by a bounded phase slew. -/
  | refReturn
  /-- PPS_CAPTURE (R399): A rising PPS edge captures the tide counter into MER.PPS. -/
  | ppsCapture
  /-- THERMAL_WARNING (R395): The junction temperature reaches TWARN and sets THERM, with Field Book 0x0303 above 105 °C. -/
  | thermalWarning (tj : Int)
  /-- THERMTRIP (R408): A junction sensor reaches 120 °C, asserting THERMTRIP# and writing Field Book 0x0305. -/
  | thermtrip (t : Int)
  /-- RAIL_EXCURSION (R404): A supply rail stays outside its limits for 1 µs, and Field Book 0x0304 is written. -/
  | railExcursion (rail : Nat)
  /-- OVR_COUNT_READ (R36): A read of RED.CTXn_OVR returns and clears its COUNT. -/
  | ovrCountRead (ag : Nat) (r : Nat) (n : Nat)
  /-- FAR_LATE_READ (R62): A read of RED.FAR_STAT returns and clears LATE. -/
  | farLateRead (ag : Nat) (r : Nat)
  /-- TOK_CNT_READ (R193): A read of BED.TOK_CNT returns and clears its counts. -/
  | tokCntRead (ag : Nat) (b : Nat)
  /-- POOL_ECC_READ (R193): A read of BED.POOL_ECC returns and clears its counts. -/
  | poolEccRead (ag : Nat) (b : Nat)
  /-- HBM_ECC_CE_READ (R194): A read of HBM.ECC_CE returns and clears its count. -/
  | hbmEccCeRead (ag : Nat) (p : Nat)
  /-- HBM_ECC_UE_READ (R194): A read of HBM.ECC_UE returns and clears its count. -/
  | hbmEccUeRead (ag : Nat) (p : Nat)
  /-- SF_STAT_READ (R194): A read of HBM.SF_STAT returns and clears its count. -/
  | sfStatRead (ag : Nat) (p : Nat)
  /-- SLC_CNT_A_READ (R223): A read of SLC.CNT_A returns and clears its counts. -/
  | slcCntARead (ag : Nat) (b : Nat)
  /-- SLC_CNT_B_READ (R223): A read of SLC.CNT_B returns and clears its counts. -/
  | slcCntBRead (ag : Nat) (b : Nat)
  /-- SLC_LOAD_READ (R223): A read of SLC.LOAD returns and clears PEAK. -/
  | slcLoadRead (ag : Nat) (b : Nat)
  /-- ASP_CNT_A_READ (R240): A read of ASP.CNT_A returns and clears its counts. -/
  | aspCntARead (ag : Nat) (n : Nat)
  /-- ASP_CNT_B_READ (R240): A read of ASP.CNT_B returns and clears its counts. -/
  | aspCntBRead (ag : Nat) (n : Nat)
  /-- SSP_CNT_READ (R263): A read of SSP.CNT returns and clears its counts. -/
  | sspCntRead (ag : Nat) (n : Nat)
  /-- QMG_DROP_READ (R284): A read of QMG.DROP returns and clears its count. -/
  | qmgDropRead (ag : Nat)
  /-- FBK_LOST_READ (R365): A read of FBK.LOST returns and clears its counts. -/
  | fbkLostRead (ag : Nat)
  /-- GLB_ERR_CNT_READ (R393): A read of GLB.ERR_CNT returns and clears its count. -/
  | glbErrCntRead (ag : Nat)
  /-- PKG_POWER_READ (R395): A read of PWR.PKG_POWER returns and clears PEAK. -/
  | pkgPowerRead (ag : Nat)
  /-- CWL_CNT_CRC_READ (R333): A read of CWL.CNT_CRC returns and clears its count. -/
  | cwlCntCrcRead (ag : Nat) (l : Nat)
  /-- CWL_CNT_REPLAY_READ (R333): A read of CWL.CNT_REPLAY returns and clears its count. -/
  | cwlCntReplayRead (ag : Nat) (l : Nat)
  /-- ATL_CNT_READ (R334): A read of ATL.CNT returns and clears LATE. -/
  | atlCntRead (ag : Nat)
  /-- REGISTER_WRITE (R387): A write to a register with no row of its own acts by its access code, lock and refusal rules. -/
  | registerWrite (sp : Space) (ag : Nat) (off : Nat) (len : Nat) (v : W32)
  /-- UNDEFINED_OPCODE (R67): A bundle holding a syllable with an undefined major or minor opcode, such as the BIST-cleared word 0x0000_0000, raises a precise ILL exception with subcode 0x01 or 0x02. -/
  | undefinedOpcode (r : Nat) (w : W32)
  /-- BOUNDARY_SCAN (R381): An IEEE 1149.1 or 1149.6 TAP operation on TCK, TMS, TDI and TRST# runs IDCODE, EXTEST or debug access, gated by TST.CTRL bit 0 and SEC.DBG.OPEN. -/
  | boundaryScan (op : Nat) (addr : Nat)
  /-- VDD_AON_LOSS (R335): VDD_AON fails, which clears the boot-attempt counter, FORCEHOST and the retention state, so the counter reads 0 when the supply returns. -/
  | vddAonLoss
  /-- LOOPBACK_FOLLOWER (R307): The host directs the link into standard loop-back, and the device enters it as follower, whatever GLB.LOOP_CTRL holds. -/
  | loopbackFollower
deriving DecidableEq, Repr

end Sys2Proof
end

