-- ==== Sys2Proof/Decode.lean ====
section
/-! DEFINITION. Sys2Proof/Decode.lean: the reading of a command from a word of the opcode table. The table gives no row any
bits: the block takes commands, and no word spells one. The words that the reeds fetch are operands of the syllable rows,
and Machine/Syllable.lean reads them. -/

namespace Sys2Proof

/-- The command that a word spells by the table's bits: none, for no row has bits. -/
def decodeTableWord (_nbits _w : Nat) : Option Instr := none

end Sys2Proof
end

