-- ==== Sys2Proof/Config.lean ====
section
/-! DEFINITION. Sys2Proof/Config.lean: what one implementation fixes and the spec leaves open: the free values, as
opaque constants without a body, and the functions the spec places outside itself. -/

namespace Sys2Proof.Config

/-- A candidate result of a transcendental function where the spec gives only an error bound (R139): by function code
(R77) and operand magnitude. The model takes the candidate where it meets the bound (log entry 12). -/
opaque transcendental : Nat → W32 → W32

/-- Free values of 32 bits, one for each number of `State.fresh` (log entry 11). -/
opaque freeValue : Nat → W32

/-- RFC 3394 unwrap of a wrapped library key under the LKEK: the key and nonce, or a failed integrity check (R213). The
algorithm is outside the spec (log entry 13). -/
opaque aesUnwrap : (lkek : BitVec 256) → (wrapped : List W32) → Option (BitVec 256 × W64)

/-- The AES-256-GCM key stream of one line, and the tag check (R213); outside the spec (log entry 13). -/
opaque gcmDecrypt : (key : BitVec 256) → (nonce : W64) → (line : Nat) → (data : List Byte) → Option (List Byte)

/-- SHAKE256 with 64 bytes of output, over a message named by bytes (R340, R349); outside the spec (log entry 13). -/
opaque shake256 : List Byte → BitVec 512

/-- Falcon-1024 verification of a signature over a digest under a public key (R340); outside the spec (log entry 13). -/
opaque falconVerify : (key : List Byte) → (digest : BitVec 512) → (signature : List Byte) → Bool

/-- Measurement 1, over the boot ROM, fixed per stepping (R349; log entry 13). -/
opaque romMeasure : BitVec 512

/-- Measurement 4, over the OTP configuration and the debug state, whose layout the spec does not give (R349; log entry
13). -/
opaque otpMeasure : List Nat → BitVec 512

end Sys2Proof.Config
end

