-- ==== Sys2Proof/Machine/Tab.lean ====
section
/-! DEFINITION. Sys2Proof/Machine/Tab.lean: a table of like things by number, as plain sorted data. -/

namespace Sys2Proof.Machine

/-- A table of things by number: the entries written so far, keys rising. An entry not listed holds the
table's default, which each reader names. -/
abbrev Tab (α : Type) := List (Nat × α)

/-- The entry `k`, or the default `d` where none is listed. -/
def Tab.get {α : Type} (d : α) : Tab α → Nat → α
  | [], _ => d
  | (j, v) :: t, k => if j = k then v else Tab.get d t k

/-- The table with entry `k` set to `v`, the others kept. -/
def Tab.set {α : Type} : Tab α → Nat → α → Tab α
  | [], k, v => [(k, v)]
  | (j, u) :: t, k, v =>
    if k < j then (k, v) :: (j, u) :: t
    else if k = j then (k, v) :: t
    else (j, u) :: Tab.set t k v

/-- The table with entry `k` changed by `f`. -/
def Tab.modify {α : Type} (d : α) (t : Tab α) (k : Nat) (f : α → α) : Tab α :=
  Tab.set t k (f (Tab.get d t k))

/-- The table's keys rise strictly. -/
def Tab.sorted {α : Type} : Tab α → Bool
  | [] => true
  | [_] => true
  | (j, _) :: (k, v) :: t => decide (j < k) && Tab.sorted ((k, v) :: t)

end Sys2Proof.Machine
end

