-- ==== Sys2Proof/Machine/AtlasState.lean ====
section
/-! DEFINITION. Sys2Proof/Machine/AtlasState.lean: the state of the Causeway links, the atlas and its audio buses (R308 to
R334). -/

namespace Sys2Proof.Machine

/-- CWL.LSTAT.STATE (R333). -/
inductive CwlState where
  | down | train | up | degraded | miswired | test
deriving DecidableEq, Repr

/-- The code of a link state. -/
def CwlState.code : CwlState → Nat
  | .down => 0 | .train => 1 | .up => 2 | .degraded => 3 | .miswired => 4 | .test => 5

/-- A flit without its CRC: header and payload bytes 4 to 59 (R312). -/
structure Flit where
  /-- bytes 0 to 3 -/
  header : W32
  /-- bytes 4 to 59; bytes not given are 0 -/
  payload : List Byte := []
deriving DecidableEq, Repr

/-- A flit in a replay buffer (R313). -/
structure SentFlit where
  /-- its sequence number -/
  seq : Nat
  /-- the flit -/
  flit : Flit
  /-- how often it has been resent -/
  replays : Nat := 0
deriving DecidableEq, Repr

/-- One Causeway link and its CWL page (R310 to R314, R333). -/
structure Link where
  /-- CTRL.EN -/
  en : Bool := false
  /-- LSTAT.STATE -/
  state : CwlState := .down
  /-- LSTAT.PEERSHEET -/
  peerSheet : Nat := 0
  /-- LSTAT.PEERLINK -/
  peerLink : Nat := 0
  /-- LSTAT.LANES -/
  lanes : Nat := 0
  /-- LMAP -/
  lmap : W32 := 0x20688#32
  /-- lanes that have failed, by physical number -/
  failed : List Nat := []
  /-- EYE.THR -/
  thr : Nat := 0x10
  /-- CNT_CRC -/
  cntCrc : Nat := 0
  /-- CNT_REPLAY -/
  cntReplay : Nat := 0
  /-- DELAY -/
  delay : W32 := 0
  /-- EYEk.MARGIN -/
  margin : Tab Nat := []
  /-- LOOP_CTRL -/
  loop : W32 := 0x100#32
  /-- the tick at which the loop-back ends -/
  loopEnd : Nat := 0
  /-- the next sequence number to send -/
  txSeq : Nat := 0
  /-- the sequence number expected next -/
  rxSeq : Nat := 0
  /-- a NAK is out and later flits are discarded until the named one arrives -/
  nakOut : Bool := false
  /-- the replay buffer: flits not yet acknowledged, oldest first -/
  unacked : List SentFlit := []
  /-- the tick at which ACKSEQ last advanced, or flits came to be unacknowledged -/
  ackSince : Nat := 0
  /-- messages that wait for room or credits, oldest first; the flits of a message go back to back -/
  waiting : List (List Flit) := []
  /-- AUDIO flits sent since a MGMT or memory flit, while one waits (R315) -/
  tideRun : Nat := 0
  /-- flits accepted since the last CTRL sent -/
  accepted : Nat := 0
  /-- credits held for the MGMT class -/
  mgmtCredit : Nat := 64
  /-- credits held for the memory class -/
  memCredit : Nat := 64
  /-- MGMT credits to return -/
  mgmtBack : Nat := 0
  /-- memory credits to return -/
  memBack : Nat := 0
  /-- ticks at which reserved TYPEs were received, newest first -/
  reserved : List Nat := []
  /-- tide counter and fraction of the last HB received, in 1/65,536 tick -/
  hbSent : Nat := 0
  /-- the time of its reception, in 1/65,536 tick -/
  hbTime : Nat := 0
  /-- the tick at which the link entered its state -/
  since : Nat := 0
deriving DecidableEq, Repr

/-- A bus-table entry (R317). -/
structure BusEntry where
  /-- BUSW0 -/
  w0 : W32 := 0
  /-- BUSW1 -/
  w1 : W32 := 0
deriving DecidableEq, Repr

/-- The receiving side of a bus (R319, R328). -/
structure BusRx where
  /-- the TAG whose flits are being collected -/
  tag : Nat := 0
  /-- the FIDXs written for it -/
  got : List Nat := []
  /-- last received channel values -/
  last : Tab W32 := []
  /-- the sender lies in the other part, and substitution is due or under way -/
  cut : Bool := false
  /-- substituted tides so far -/
  subst : Nat := 0
  /-- the rejoin is complete: the first accepted flit ends the substitution (R329) -/
  ending : Bool := false
  /-- the tide number in which a received bus was last written -/
  rxTide : Option Nat := none
deriving DecidableEq, Repr

/-- A request that waits for its memory response from another sheet (R324). -/
structure AtlasRead where
  /-- request tag -/
  tag : Nat
  /-- a reed by physical number, or 0x8000 + page for an engine (R304) -/
  agent : Nat
  /-- the request slot of an engine -/
  slot : Nat := 0
  /-- the ATLAS word address of the 64-byte line -/
  addr : Nat
  /-- the line's bytes, once they have come -/
  got : Option (List Byte) := none
  /-- its requester's own timeout has won (R60, R212) -/
  late : Bool := false
deriving DecidableEq, Repr

/-- A MEMRD from another sheet that waits for a host snoop of its line (R187, R324). -/
structure AtlasServe where
  /-- the requesting sheet -/
  sheet : Nat
  /-- its request tag -/
  tag : Nat
  /-- the word offset of the line in HBM -/
  addr : Nat
deriving DecidableEq, Repr

/-- The ATL page, the bus table and the sheet's part in the atlas (R308, R317, R322 to R329, R334). -/
structure Atlas where
  /-- CTRL.EN -/
  en : Bool := false
  /-- CFG -/
  cfg : W32 := 0
  /-- TM.TM -/
  tm : Nat := 0
  /-- TM.EPOCH -/
  epoch : Nat := 0
  /-- TM.CURTM; none is this sheet -/
  curTm : Option Nat := none
  /-- SUCC0 -/
  succ0 : W32 := 0
  /-- SUCC1 -/
  succ1 : W32 := 0
  /-- STAT.LOCKED -/
  locked : Bool := false
  /-- STAT.HOLDOVER -/
  holdover : Bool := false
  /-- STAT.PARTITION -/
  partition : Bool := false
  /-- STAT.TMASTER -/
  tmaster : Bool := false
  /-- STAT.SLEWING -/
  slewing : Bool := false
  /-- STAT.HOPS -/
  hops : Nat := 0
  /-- PHASE -/
  phase : W32 := 0
  /-- OFFSET -/
  offset : W64 := 0
  /-- REJOIN.MAXERR -/
  maxErr : Nat := 0x40
  /-- REJOIN.RESULT -/
  result : Nat := 0
  /-- the tidemaster a rejoin joins -/
  joining : Nat := 0
  /-- BUSSEL -/
  busSel : Nat := 0
  /-- BUSW0 as written and not yet committed -/
  busW0 : Option W32 := none
  /-- the bus table -/
  buses : Tab BusEntry := []
  /-- commits that wait for the next boundary of their DOM -/
  next : Tab (Option BusEntry) := []
  /-- the receiving side of each bus -/
  rx : Tab BusRx := []
  /-- CNT.LATE -/
  late : Nat := 0
  /-- the tick at which each age was 0, by index 0 to 8; not listed is unknown -/
  ageAt : Tab Nat := []
  /-- successors already reported unreachable (R326) -/
  lost : List Nat := []
  /-- reads of other sheets that await their responses -/
  reads : List AtlasRead := []
  /-- reads for other sheets that wait for a snoop, oldest first -/
  serve : List AtlasServe := []
  /-- the next request tag -/
  nextTag : Nat := 0
  /-- the tick of the last heartbeats -/
  hbAt : Nat := 0
deriving DecidableEq, Repr

end Sys2Proof.Machine
end

