-- ==== Sys2Proof/Machine/DeviceState.lean ====
section
/-! DEFINITION. Sys2Proof/Machine/DeviceState.lean: the state of the device pages: page headers, GLB, PWR, MER and its
domains, the Field Book, the bed pools and HBM. -/

namespace Sys2Proof.Machine

/-- The device states (R5). -/
inductive DevState where
  | off | startup | test | service | recovery | tussock | dormant
deriving DecidableEq, Repr

/-- The code of a device state in GLB.STATE (R394); Off has none and reads 0. -/
def DevState.code : DevState → Nat
  | .off => 0 | .startup => 1 | .test => 2 | .service => 3 | .recovery => 4 | .tussock => 5 | .dormant => 6

/-- The header registers of one page that hardware and software change (R386, R388). -/
structure PageHdr where
  /-- IRQ_STAT -/
  irqStat : W32 := 0
  /-- IRQ_EN -/
  irqEn : W32 := 0
  /-- ERR_INFO -/
  errInfo : W32 := 0
  /-- ERR_ADDR, 48 bits -/
  errAddr : Nat := 0
deriving DecidableEq, Repr

/-- A request or event that starts a state transition and waits for the one in progress (R8). -/
inductive Trigger where
  | request (target : DevState)
  | fault (reason : Nat)
  | tussock (reason : Nat)
  | reset
deriving DecidableEq, Repr

/-- The GLB page and the device state (R393, R394). -/
structure Glb where
  /-- GLB.STATE.STATE, with Off (R5) -/
  state : DevState := .startup
  /-- the target of the transition in progress -/
  target : Option DevState := none
  /-- the reason that the transition in progress carries (R10, R343) -/
  reason : Nat := 0
  /-- triggers that arrived during it (R8) -/
  waiting : List Trigger := []
  /-- the sheet number (R11) -/
  sheet : Nat := 0
  /-- TUSSOCK_REASON -/
  tussock : Nat := 0
  /-- ERR.V -/
  errV : Bool := false
  /-- ERR.OVF -/
  errOvf : Bool := false
  /-- ERR.AGENT -/
  errAgent : Nat := 0
  /-- ERR.CAUSE -/
  errCause : Nat := 0
  /-- ERR.INDEX -/
  errIndex : Nat := 0
  /-- ERR_CNT -/
  errCnt : Nat := 0
  /-- REC.ACTIVE -/
  recActive : Bool := false
  /-- REC.REASON -/
  recReason : Nat := 0
deriving DecidableEq, Repr

/-- The PWR page and the supply (R32, R33, R395, R402, R403, R408). -/
structure Pwr where
  /-- STAT.THERM -/
  therm : Bool := false
  /-- STAT.FASTRAISE -/
  fastRaise : Bool := false
  /-- STAT.PLIM_UNMET -/
  plimUnmet : Bool := false
  /-- STAT.TGT_UNMET -/
  tgtUnmet : Bool := false
  /-- PACE_TGT -/
  target : Nat := 1600
  /-- PACE_EFF -/
  effective : Nat := 1600
  /-- PKG_LIMIT -/
  limit : Nat := 0x320
  /-- PKG_POWER.PEAK -/
  peak : Nat := 0
  /-- PKG_POWER.NOW -/
  now : Nat := 0
  /-- the VDD_CORE setpoint, in units of 0.5 mV -/
  vdd : Nat := 0
  /-- TEMP.TWARN -/
  twarn : Nat := 100
  /-- TEMP.TJ, in °C -/
  tj : Int := 0
  /-- PACE_MIN.PHYS -/
  minPhys : Nat := 0
  /-- PACE_MIN.MIN -/
  minPace : Nat := 0
  /-- THERMTRIP# asserted -/
  thermtrip : Bool := false
  /-- SYS_PWRGD present -/
  good : Bool := true
  /-- VDD_AON present -/
  aon : Bool := true
  /-- VID_VALID driven -/
  vidValid : Bool := false
  /-- the tick of the next regular adjustment (R32) -/
  loopNext : Nat := 4096
  /-- the tick from which the next fast raise may come (R32) -/
  fastNext : Nat := 0
  /-- the tick at which the power window ends (R33) -/
  winNext : Nat := 1048576
deriving DecidableEq, Repr

/-- One rate domain (R16 to R18, R399). -/
structure Domain where
  /-- TDn_PERIOD.PINT -/
  pint : Nat := 20480
  /-- TDn_PERIOD.PFRAC -/
  pfrac : Nat := 0
  /-- TDn_PERIOD_LO as written and not yet committed -/
  periodLo : W32 := 20480
  /-- TDn_START, S -/
  start : Nat := 0
  /-- TDn_START_LO as written and not yet committed -/
  startLo : W32 := 0
  /-- the domain is active (R18) -/
  active : Bool := false
  /-- a clear of EN awaits its boundary (R17) -/
  clearing : Bool := false
  /-- the tick from which a pending clear takes effect -/
  clearFrom : Nat := 0
  /-- the tick of the first tide -/
  first : Nat := 0
  /-- the first tide has begun -/
  begun : Bool := false
  /-- the tide number -/
  tide : Nat := 0
deriving DecidableEq, Repr

/-- The MER page (R396 to R399). -/
structure Mer where
  /-- STAT.PPS -/
  pps : Bool := false
  /-- STAT.REFLOSS -/
  refLoss : Bool := false
  /-- STAT.REFLOCK -/
  refLock : Bool := false
  /-- STAT.LATESTART -/
  lateStart : Bool := false
  /-- CFG -/
  cfg : W32 := 0
  /-- WCIN.PERIOD -/
  wcin : W32 := 20480
  /-- TRIM -/
  trim : W32 := 0
  /-- the reference is lost (R397) -/
  lost : Bool := false
  /-- TD_EN.EN as last written -/
  en : BitVec 8 := 0
  /-- the tide counter at the last PPS capture -/
  ppsAt : Nat := 0
  /-- the tide counter -/
  ticks : Nat := 0
  /-- the domains -/
  doms : Tab Domain := []
deriving DecidableEq, Repr

/-- A Field Book record (R355). -/
structure FbRecord where
  /-- SEQ -/
  seq : Nat := 0xFFFFFFFFFFFF
  /-- CODE -/
  code : Nat := 0
  /-- COUNT -/
  count : Nat := 0
  /-- TIDE: the tide counter at the commit -/
  tide : Nat := 0
  /-- WALL: the wall time at the commit, in ns -/
  wall : Nat := 0
  /-- EPOCH -/
  epoch : Nat := 0
  /-- PAYLOAD -/
  payload : W64 := 0
deriving DecidableEq, Repr

/-- A request in the input queue (R356): code, COUNT and payload. -/
structure FbRequest where
  /-- the code -/
  code : Nat
  /-- COUNT as its bucket fixed it -/
  count : Nat
  /-- the payload -/
  payload : W64
deriving DecidableEq, Repr

/-- A code's token bucket (R360). -/
structure Bucket where
  /-- tokens held -/
  held : Nat
  /-- the tick at which the running refill period started -/
  since : Nat
  /-- the length of that period in ticks -/
  len : Nat := 983040
  /-- occurrences suppressed since the code's last written record -/
  suppressed : Nat := 0
  /-- the payload of the last suppressed occurrence -/
  last : W64 := 0
deriving DecidableEq, Repr

/-- A copy to the mirror queue that awaits room or a change of a record (R363). -/
structure MirrorUpdate where
  /-- the record's sequence number -/
  seq : Nat
deriving DecidableEq, Repr

/-- The Field Book and the FBK page (R355 to R365). -/
structure Fbk where
  /-- the 8,192 slots of the main SRAM -/
  main : Tab FbRecord := []
  /-- the 64 slots of the backup SRAM -/
  backup : Tab FbRecord := []
  /-- the next sequence number -/
  next : Nat := 0
  /-- the input queue, oldest first -/
  queue : List FbRequest := []
  /-- the token buckets by code; a code not listed has `base` tokens since `baseSince` -/
  buckets : Tab Bucket := []
  /-- tokens of a bucket that nothing has used -/
  base : Nat := 8
  /-- the tick at which such buckets came to hold fewer than B, where they do -/
  baseSince : Nat := 0
  /-- the length of their refill period -/
  baseLen : Nat := 983040
  /-- RL_CFG: refill -/
  refill : Nat := 960
  /-- RL_CFG: burst B -/
  burst : Nat := 8
  /-- the wall time in ns -/
  wall : Nat := 0
  /-- the fraction of a ns, in units of 1 ÷ f_tick s -/
  wallFrac : Nat := 0
  /-- WALL_LO as written and not yet committed -/
  wallLo : W32 := 0
  /-- EPOCH -/
  epoch : Nat := 0
  /-- a wall time set that applies at the next tick -/
  wallSet : Option Nat := none
  /-- RD_SEL -/
  rdSel : Nat := 0
  /-- RD_SEL_LO as written and not yet committed -/
  rdSelLo : W32 := 0
  /-- the read buffer -/
  buffer : FbRecord := { seq := 0 }
  /-- MIRQ: the mirror queue -/
  mirq : Nat := 0
  /-- mirroring is enabled -/
  miren : Bool := false
  /-- the sequence number of the next record to mirror -/
  mirSeq : Nat := 0
  /-- updates of mirrored records that wait for room -/
  updates : List MirrorUpdate := []
  /-- LOST.MIRLOST -/
  mirLost : Nat := 0
  /-- LOST.DROPPED -/
  dropped : Nat := 0
  /-- STAT.BACKUP -/
  onBackup : Bool := false
  /-- STAT.REPAIRING -/
  repairing : Bool := false
  /-- STAT.BKFAIL -/
  bkFail : Bool := false
  /-- STAT.DEAD -/
  dead : Bool := false
  /-- the tick at which the last patrol scrub pass ended -/
  scrubbed : Nat := 0
  /-- spare rows used of each main SRAM macro (R378) -/
  rowsUsed : Tab Nat := []
deriving DecidableEq, Repr

/-- A token slot of a bed pool (R174, R175). -/
structure TokenSlot where
  /-- TS_CFG in force -/
  cfg : W32 := 0
  /-- TS_CFG written while enabled, for the next boundary of its domain -/
  next : Option W32 := none
  /-- FULL -/
  full : Bool := false
  /-- TS_STATE.DBL -/
  dbl : Bool := false
  /-- the tag of the last accepted closing write -/
  tag : Nat := 0
deriving DecidableEq, Repr

/-- A bed's pool side and its BED page (R174, R193). -/
structure Bed where
  /-- the token slots -/
  slots : Tab TokenSlot := []
  /-- TS_SEL -/
  sel : Nat := 0
  /-- TOK_CNT.LATE -/
  late : Nat := 0
  /-- TOK_CNT.DBL -/
  dbl : Nat := 0
  /-- POOL_ECC.CE -/
  ce : Nat := 0
  /-- POOL_ECC.UE -/
  ue : Nat := 0
  /-- POOL_SCRUB -/
  scrub : W32 := 0x80000400#32
  /-- the tick at which the last full scrub pass ended -/
  scrubbed : Nat := 0
deriving DecidableEq, Repr

/-- One pseudo-channel's HBM page (R194). -/
structure HbmPage where
  /-- PC_STAT.TRAINED -/
  trained : Bool := false
  /-- PC_STAT.SELFREF -/
  selfRef : Bool := false
  /-- PC_STAT.REFRATE -/
  refRate : Nat := 0
  /-- PC_STAT.TEMP -/
  temp : Nat := 0
  /-- ECC_CE -/
  ce : Nat := 0
  /-- ECC_UE -/
  ue : Nat := 0
  /-- PPR.USED -/
  pprUsed : Nat := 0
  /-- PPR.LEFT -/
  pprLeft : Nat := 0
  /-- SCRUB -/
  scrub : W32 := 0x8000FFFF#32
  /-- the tick at which the last full scrub pass ended -/
  scrubbed : Nat := 0
  /-- SF_STAT.BISNP -/
  bisnp : Nat := 0
  /-- LOOP_CTRL (R382) -/
  loop : W32 := 0x100#32
  /-- the tick at which the loop-back ends -/
  loopEnd : Nat := 0
deriving DecidableEq, Repr

/-- The state of a 2 MiB HBM page (R189, R191). -/
inductive PageBack where
  | inHbm
  | copying (rpage : Nat)
  | backed (rpage : Nat)
  | lost
deriving DecidableEq, Repr

/-- A device write that waits for the host's answer to a back-invalidate snoop (R187). -/
structure SnoopWrite where
  /-- the 64-byte line, by HBM word offset ÷ 32 -/
  line : Nat
  /-- the bytes to write after the host's: canonical byte address and value -/
  bytes : List (Nat × Byte)
deriving DecidableEq, Repr

/-- The HBM side: pages, retirement and the snoop filters (R182 to R194). -/
structure Hbm where
  /-- the 64 pages -/
  pages : Tab HbmPage := []
  /-- RB_BASE -/
  rbBase : Nat := 0
  /-- RB_BASE_LO as written and not yet committed -/
  rbBaseLo : W32 := 0
  /-- RB_SIZE -/
  rbSize : Nat := 0
  /-- RB_USED.EXH -/
  exhausted : Bool := false
  /-- RB_QUERY -/
  query : Nat := 0
  /-- 2 MiB pages that are not in HBM alone -/
  back : Tab PageBack := []
  /-- reserve pages in use, rising -/
  reserve : List Nat := []
  /-- lines that the host may hold, oldest first, for both stacks (R187) -/
  filter : List Nat := []
  /-- writes that wait for a BISnp response, oldest first -/
  snoops : List SnoopWrite := []
  /-- the tick of the last CXL.mem access (R184) -/
  lastUse : Nat := 0
deriving DecidableEq, Repr

/-- An event source (R276, R283). -/
structure Source where
  /-- SRC_CFG -/
  cfg : W32 := 0x80000000#32
  /-- COUNT -/
  count : Nat := 0
  /-- SRC_STAT.SAT -/
  sat : Bool := false
  /-- SRC_STAT.BADQ -/
  badq : Bool := false
deriving DecidableEq, Repr

end Sys2Proof.Machine
end

