-- ==== Sys2Proof/Machine/HostState.lean ====
section
/-! DEFINITION. Sys2Proof/Machine/HostState.lean: the state of the Queue Manager, the Event Router and the CXL host
interface (R265 to R307). -/

namespace Sys2Proof.Machine

/-! ### Queue Manager -/

/-- A moderation window (R272). -/
structure Window where
  /-- the tick at which it started -/
  since : Nat
  /-- records written or held in it -/
  count : Nat
deriving DecidableEq, Repr

/-- A queue: its table entry and its run state (R266, R269 to R272). -/
structure Queue where
  /-- Q0 -/
  q0 : W32 := 0
  /-- Q1 -/
  q1 : W32 := 0
  /-- Q2 -/
  q2 : W32 := 0
  /-- Q3 -/
  q3 : W32 := 0
  /-- Q4 -/
  q4 : W32 := 0
  /-- Q5 -/
  q5 : W32 := 0
  /-- Q6: PI -/
  pi : W32 := 0
  /-- Q7: CI -/
  ci : W32 := 0
  /-- DBSTAT.ARMED -/
  armed : Bool := false
  /-- DBSTAT.ERR -/
  err : Bool := false
  /-- DBSTAT.FULLHOLD -/
  fullHold : Bool := false
  /-- records held for a full ring or for want of D0, oldest first, each as 32-bit words -/
  held : List (List W32) := []
  /-- the moderation window -/
  window : Option Window := none
  /-- a shadow in host memory awaits the host (R268, R273) -/
  shadowDue : Bool := false
deriving DecidableEq, Repr

/-- The QMG page (R265, R284). -/
structure Qmg where
  /-- the queue table -/
  queues : Tab Queue := []
  /-- QSEL -/
  qsel : Nat := 0
  /-- QDATA0 to QDATA7 -/
  qdata : Tab W32 := []
  /-- QSTAT.CMTERR -/
  cmtErr : Nat := 0
  /-- DROP -/
  drop : Nat := 0
  /-- spare entries of the queue table in use (R265, R378) -/
  sparesUsed : Nat := 0
deriving DecidableEq, Repr

/-! ### Event Router -/

/-- A Surveyor's registers in the Event Router (R278, R279). -/
structure SvEvents where
  /-- the priority stack, top first: priority and source -/
  stack : List (Nat × Nat) := []
  /-- PSTAT.PSF -/
  psf : Bool := false
deriving DecidableEq, Repr

/-- The EVR pages (R283); the sources stand beside it. -/
structure Evr where
  /-- SRC_SEL -/
  srcSel : Nat := 0
  /-- Surveyors 0 to 5 -/
  sv : Tab SvEvents := []
deriving DecidableEq, Repr

/-! ### Host interface -/

/-- Where the CXL link stands (R287, R299, R301). -/
inductive LinkState where
  | down | l0 | l0p | l1 | l2 | loopback
deriving DecidableEq, Repr

/-- The function's D-state (R300). -/
inductive DState where
  | d0 | d3hot | d3cold
deriving DecidableEq, Repr

/-- Who issued a device-to-host read (R292, R294). -/
inductive Originator where
  /-- a reed, by physical number -/
  | reed (r : Nat)
  /-- a Sluice engine, by page, and its request slot -/
  | engine (b slot : Nat)
deriving DecidableEq, Repr

/-- A device-to-host read in flight (R294). -/
structure HostRequest where
  /-- its originator -/
  from' : Originator
  /-- the tick of issue -/
  since : Nat
  /-- its originator's own timeout has won (R60, R212) -/
  late : Bool := false
  /-- it is unordered I/O (R293) -/
  uio : Bool := false
deriving DecidableEq, Repr

/-- One HDM decoder (R290). -/
structure Decoder where
  /-- committed -/
  committed : Bool := false
  /-- a commit failed: Error Not Committed -/
  error : Bool := false
  /-- HPA base -/
  base : Nat := 0
deriving DecidableEq, Repr

/-- A DOE instance (R295). -/
structure Doe where
  /-- answers not yet read by the host, oldest first -/
  answers : List (List W32) := []
deriving DecidableEq, Repr

/-- The state of an IDE stream (R296). -/
inductive IdeState where
  /-- no key -/
  | off
  /-- keyed and secure -/
  | secure
  /-- insecure after an integrity failure -/
  | insecure
deriving DecidableEq, Repr

/-- The CXL host interface (R285 to R307). -/
structure Cxl where
  /-- the link -/
  link : LinkState := .down
  /-- width in lanes -/
  width : Nat := 0
  /-- width as last trained -/
  trained : Nat := 0
  /-- rate in GT/s -/
  rate : Nat := 0
  /-- CXL.io alone is offered (R287) -/
  ioOnly : Bool := false
  /-- PERST# asserted -/
  perst : Bool := false
  /-- WAKE# asserted -/
  wake : Bool := false
  /-- the D-state -/
  dstate : DState := .d0
  /-- Bus Master Enable -/
  bme : Bool := false
  /-- BAR0, BAR2 and BAR4, by index 0 to 2 -/
  bars : Tab W64 := []
  /-- L1 under ASPM is enabled (R301) -/
  aspm : Bool := false
  /-- MSI-X Enable -/
  msixEn : Bool := false
  /-- MSI-X Function Mask -/
  funcMask : Bool := false
  /-- vectors whose mask bit is 0; every other mask bit is 1 (R298) -/
  unmasked : List Nat := []
  /-- vectors whose pending bit is 1 (R274) -/
  pendingVec : List Nat := []
  /-- MSI-X table words: 4 per vector, address low, address high, data -/
  table : Tab W32 := []
  /-- PME_En -/
  pmeEn : Bool := false
  /-- PME_Status -/
  pmeStatus : Bool := false
  /-- CXL.cache enable -/
  cacheEn : Bool := false
  /-- CXL.mem enable -/
  memEn : Bool := false
  /-- HBM training has completed (R290) -/
  memReady : Bool := false
  /-- viral enable -/
  viralEn : Bool := false
  /-- viral signalled (R304) -/
  viral : Bool := false
  /-- the HDM decoders -/
  dec : Tab Decoder := []
  /-- ECV_HOSTBASE -/
  hostBase : W64 := 0
  /-- ECV_HOSTSIZE -/
  hostSize : W32 := 0
  /-- ECV_PEERe -/
  peers : Tab W32 := []
  /-- device-to-host reads in flight -/
  reqs : List HostRequest := []
  /-- the DOE instances -/
  doe : Tab Doe := []
  /-- an SPDM session is open -/
  session : Bool := false
  /-- IDE streams: 0 the CXL.io link stream, 1 to 4 the selective streams, 8 the CXL.cachemem link stream -/
  ide : Tab IdeState := []
  /-- GLB.LOOP_CTRL (R307) -/
  loop : W32 := 0x100#32
  /-- the tick at which the loop-back ends -/
  loopEnd : Nat := 0
  /-- the loop memory of depth 4, by byte -/
  loopMem : Tab Byte := []
deriving DecidableEq, Repr

end Sys2Proof.Machine
end

