-- ==== Sys2Proof/Machine/PortState.lean ====
section
/-! DEFINITION. Sys2Proof/Machine/PortState.lean: the state of the audio serial ports, the sensor scan ports and the
timer/counter unit (R224 to R264). -/

namespace Sys2Proof.Machine

/-! ### Audio serial ports (R224 to R240) -/

/-- A frame of an audio port: what was fixed at its start, and how far it has come (R225, R234). -/
structure AspFrame where
  /-- T_f -/
  start : Nat := 0
  /-- the tide it belongs to -/
  tide : Nat := 0
  /-- it began in Service, so that its pins are driven (R7, R236) -/
  live : Bool := false
  /-- the loop-back depth in force (R238) -/
  loop : Nat := 0
  /-- the input slot map in force (R234) -/
  slots : Tab W32 := []
  /-- input slots whose last bit has arrived -/
  got : Nat := 0
  /-- output slots whose first bit has been driven -/
  sent : Nat := 0
  /-- what each output slot sends, SW bits -/
  vals : Tab Nat := []
  /-- what each output slot puts on DOUT, SW bits -/
  pins : Tab Nat := []
deriving DecidableEq, Repr

/-- An audio serial port and its ASP page (R240). -/
structure Asp where
  /-- CTRL.EN -/
  en : Bool := false
  /-- CTRL.RXEN -/
  rxen : Bool := false
  /-- CTRL.TXEN -/
  txen : Bool := false
  /-- LOOP_CTRL.DEPTH as written -/
  loop : Nat := 0
  /-- LOOP_CTRL.DEPTH in force -/
  loopNow : Nat := 0
  /-- SLOTMAPk as written -/
  slots : Tab W32 := []
  /-- SLOTMAPk in force -/
  slotsNow : Tab W32 := []
  /-- OSLOTMAPk as written -/
  outs : Tab W32 := []
  /-- OSLOTMAPk in force -/
  outsNow : Tab W32 := []
  /-- the staging entries, left-aligned (R231, R233) -/
  staging : Tab W32 := []
  /-- output slots whose entry has been loaded since its last emission -/
  fresh : BitVec 32 := 0
  /-- output slots whose source a reed has stored to, and whose load is still to come -/
  loadDue : BitVec 32 := 0
  /-- every staging entry is loaded at the next frame: it is the first after enable or lock (R231) -/
  loadAll : Bool := false
  /-- CFG -/
  cfg : W32 := 0
  /-- TIMING -/
  timing : W32 := 0x00000014#32
  /-- the slave has locked, or the master runs (PSTAT.LOCK) -/
  lock : Bool := false
  /-- PSTAT.CLKLOSS -/
  clkLoss : Bool := false
  /-- PSTAT.ENERR -/
  enerr : Nat := 0
  /-- PSTAT.PHASE -/
  phase : Nat := 0
  /-- CNT_A.STALE -/
  stale : Nat := 0
  /-- CNT_A.TSLIP -/
  tslip : Nat := 0
  /-- CNT_B.REALIGN -/
  realign : Nat := 0
  /-- CNT_B.LOSS -/
  losses : Nat := 0
  /-- the latest of the enable, the entry into Service and the domain's activation (R227) -/
  since : Nat := 0
  /-- the frame in progress -/
  frame : Option AspFrame := none
  /-- the frame before it, whose last slot may still be arriving (D = 1) -/
  prev : Option AspFrame := none
  /-- a slave has seen a frame start since the domain, the port or the clock came up (R228) -/
  seen : Bool := false
  /-- frame starts in the present tide since lock (R228) -/
  inTide : Nat := 0
  /-- the first tide whose frame starts count for a tide slip -/
  slipFrom : Nat := 0
  /-- the tick of the last clock loss -/
  lostAt : Nat := 0
  /-- the tide, plus 1, in which each input slot was last written as zero under LOSSPOL (R235) -/
  zeroed : Tab Nat := []
deriving DecidableEq, Repr

/-! ### Sensor scan ports (R241 to R251, R263) -/

/-- Samples of a matrix step that are being converted (R246). -/
structure MatrixSample where
  /-- the row -/
  row : Nat
  /-- T_s -/
  tick : Nat
  /-- the 16 record values -/
  values : List W16
deriving DecidableEq, Repr

/-- A sensor scan port and its SSP page (R263). -/
structure Ssp where
  /-- CTRL.EN -/
  en : Bool := false
  /-- CFG -/
  cfg : W32 := 0
  /-- TIMING -/
  timing : W32 := 0
  /-- ADC -/
  adc : W32 := 0
  /-- SCAN0 to SCAN3 -/
  scan : Tab W32 := []
  /-- SMAPi -/
  smap : Tab W32 := []
  /-- the number m of each entry's next record, modulo 2^16 (R243) -/
  nextRec : Tab Nat := []
  /-- LOOP_CTRL.DEPTH as written -/
  loop : Nat := 0
  /-- LOOP_CTRL.DEPTH in force -/
  loopNow : Nat := 0
  /-- LOOPVAL -/
  loopVal : W32 := 0
  /-- PSTAT.ENERR -/
  enerr : Nat := 0
  /-- the later of the enable and the entry into Service (R245) -/
  since : Nat := 0
  /-- T_0, once the first step or pass has started (R245) -/
  t0 : Option Nat := none
  /-- steps or passes started since T_0 -/
  steps : Nat := 0
  /-- matrix: the row driven high -/
  row : Option Nat := none
  /-- matrix: the sample instant of the present step is still to come -/
  toSample : Bool := false
  /-- matrix: samples being converted -/
  sample : Option MatrixSample := none
  /-- ADC: words of the present pass still to come -/
  toRead : Nat := 0
  /-- the transmit FIFO, oldest first -/
  fifo : List Byte := []
  /-- the byte in the transmit shifter -/
  shifting : Option Byte := none
  /-- CNT.FE -/
  fe : Nat := 0
  /-- CNT.TXOVF -/
  txovf : Nat := 0
deriving DecidableEq, Repr

/-! ### The timer/counter unit (R252 to R262, R264) -/

/-- What reaches a channel at a tick (R252, R255, R260). -/
inductive TcuItem where
  /-- a capture action: CAP takes the count before the tick -/
  | capture
  /-- CTRL.START -/
  | start
  /-- CTRL.STOP -/
  | stop
  /-- CTRL.RESET -/
  | reset
  /-- a CNT write -/
  | setCnt (v : W32)
  /-- a CMP write -/
  | setCmp (v : W32)
  /-- a RESET action -/
  | actReset
  /-- a START action -/
  | actStart
  /-- a STOP action -/
  | actStop
  /-- an event of the channel's CLKIN -/
  | clock
  /-- an event of the channel's CAPIN -/
  | event
deriving DecidableEq, Repr

/-- A TCU channel (R252, R264). -/
structure TcuChan where
  /-- CFG -/
  cfg : W32 := 0
  /-- CNT -/
  count : W32 := 0
  /-- CMP -/
  cmp : W32 := 0xFFFFFFFF#32
  /-- CAP -/
  cap : W32 := 0
  /-- STAT[3:0]: MATCH, OVF, CAP, CAPOVR -/
  stat : BitVec 4 := 0
  /-- STAT.RUN -/
  run : Bool := false
  /-- CTRL[6:4]: IEM, IEO, IEC -/
  ie : BitVec 3 := 0
  /-- the tick for which the count holds -/
  tick : Nat := 0
  /-- what reaches the channel at later ticks, oldest first -/
  due : List (Nat × TcuItem) := []
  /-- the tick of a MATCH event still to be taken -/
  matchAt : Option Nat := none
  /-- the tick of an OVF event still to be taken -/
  ovfAt : Option Nat := none
  /-- actions of an event still to be applied: the event's tick and whether it was an OVF (R255) -/
  acts : List (Nat × Bool) := []
  /-- ticks at which a carry steps this high channel (R256) -/
  carries : List Nat := []
deriving DecidableEq, Repr

/-- A capture input (R258, R259). -/
structure CapInput where
  /-- CAPSELj -/
  sel : W32 := 0
  /-- the filtered level -/
  level : Bool := false
  /-- selected edges since the prescaler restarted -/
  edges : Nat := 0
  /-- the tick at which the filter last took a level -/
  since : Nat := 0
deriving DecidableEq, Repr

/-- The timer/counter unit. -/
structure Tcu where
  /-- the 128 channels -/
  chans : Tab TcuChan := []
  /-- the 64 capture inputs -/
  inputs : Tab CapInput := []
deriving DecidableEq, Repr

end Sys2Proof.Machine
end

