-- ==== Sys2Proof/Machine/Syllable.lean ====
section
/-! DEFINITION. Sys2Proof/Machine/Syllable.lean: the opcode map of the reed (R63 to R87). A syllable word is read here
into an operation with its fields; the checks of R67 that need no context are made here. -/

namespace Sys2Proof.Machine

/-- The M-MAC operations (R72). -/
inductive MacOp where
  | macS | macD | msuS | msuD | mpaS | mpaD | dmac | dmsu | dmpa
deriving DecidableEq, Repr

/-- The M-ACC operations (R73). -/
inductive AccOp where
  | mul | mulu | aclr | ald | amov | aadd | asub | aneg | ashl | ashr | alsr | ash
deriving DecidableEq, Repr

/-- The V-FP operations (R74). -/
inductive FpOp where
  | fadd | fsub | fmul | fma | fms | fneg | fabs | fmin | fmax | fceq | fclt | fcle | fcun
  | fcvtd2s | fcvts2d | fcvth2s | fcvts2h | fcvtf2i | fcvti2f | fmovf2s | fmovs2f | fmovq | fmov
deriving DecidableEq, Repr

/-- The V-VEC operations (R75). -/
inductive VecOp where
  | vadd | vsub | vmul | vfma | vmin | vmax | vand | vor | vxor | vdup
deriving DecidableEq, Repr

/-- The V-MEM operations (R76). -/
inductive VmemOp where
  | fldW | fldQ | vld | fstW | fstQ | vst | cld | cst | lvcpy | lvaddf
deriving DecidableEq, Repr

/-- The Q-LOU operations (R77). -/
inductive LouOp where
  | lmul | lmulu | lmul64 | lmulh64 | ldiv | ldivu | fdiv | fsqrt | exp2 | log2 | sin2pi | tanh | rsqrt
  | bcdadd | bcdsub | lbar
deriving DecidableEq, Repr

/-- The S-MEM operations (R78). -/
inductive SmemOp where
  | ldS | ldSu | ldD | ldQ | stS | stD | stQ | staS | staD
deriving DecidableEq, Repr

/-- The S-SVY operations (R78). -/
inductive SvyOp where
  | ldb | ldbu | ldh | ldhu | ldw | stb | sth | stw
deriving DecidableEq, Repr

/-- The S-ALU operations (R79). -/
inductive AluOp where
  | add | sub | adds | subs | neg | negs | and | or | xor | not | lsl | lsr | asr | ash | min | max | minu | maxu
  | cmpeq | cmpne | cmplt | cmpge | cmpltu | cmpgeu | mov | pand | por | pnot
deriving DecidableEq, Repr

/-- The S-MOV operations (R80). -/
inductive MovOp where
  | movi | movq | mva | mvm | rdsr | wrsr | rpd | wpd
deriving DecidableEq, Repr

/-- The C-BR operations (R85). -/
inductive BrOp where
  | br | call | bri | calli | ret | rfe
deriving DecidableEq, Repr

/-- The C-LOOP operations (R86). -/
inductive LoopOp where
  | loop | rep | repi
deriving DecidableEq, Repr

/-- The C-CTL operations (R87). -/
inductive CtlOp where
  | nop | tend | flushi | bchk | break
deriving DecidableEq, Repr

/-- Every operation of the opcode map, by its format (R64). -/
inductive SylOp where
  | mac (o : MacOp) | acc (o : AccOp) | fp (o : FpOp) | vec (o : VecOp) | vmem (o : VmemOp) | lou (o : LouOp)
  | smem (o : SmemOp) | svy (o : SvyOp) | alu (o : AluOp) | mov (o : MovOp) | br (o : BrOp) | loop (o : LoopOp)
  | ctl (o : CtlOp)
deriving DecidableEq, Repr

/-- OP of M-MAC (R72). -/
def MacOp.ofCode : Nat → Option MacOp
  | 0 => some .macS | 1 => some .macD | 2 => some .msuS | 3 => some .msuD | 4 => some .mpaS | 5 => some .mpaD
  | 6 => some .dmac | 7 => some .dmsu | 8 => some .dmpa | _ => none

/-- OP of M-ACC (R73). -/
def AccOp.ofCode : Nat → Option AccOp
  | 0 => some .mul | 1 => some .mulu | 2 => some .aclr | 3 => some .ald | 4 => some .amov | 5 => some .aadd
  | 6 => some .asub | 7 => some .aneg | 8 => some .ashl | 9 => some .ashr | 10 => some .alsr | 11 => some .ash
  | _ => none

/-- OP of V-FP (R74). -/
def FpOp.ofCode : Nat → Option FpOp
  | 0 => some .fadd | 1 => some .fsub | 2 => some .fmul | 3 => some .fma | 4 => some .fms | 5 => some .fneg
  | 6 => some .fabs | 7 => some .fmin | 8 => some .fmax | 9 => some .fceq | 10 => some .fclt | 11 => some .fcle
  | 12 => some .fcun | 13 => some .fcvtd2s | 14 => some .fcvts2d | 15 => some .fcvth2s | 16 => some .fcvts2h
  | 17 => some .fcvtf2i | 18 => some .fcvti2f | 19 => some .fmovf2s | 20 => some .fmovs2f | 21 => some .fmovq
  | 22 => some .fmov | _ => none

/-- OP of V-VEC (R75). -/
def VecOp.ofCode : Nat → Option VecOp
  | 0 => some .vadd | 1 => some .vsub | 2 => some .vmul | 3 => some .vfma | 4 => some .vmin | 5 => some .vmax
  | 6 => some .vand | 7 => some .vor | 8 => some .vxor | 9 => some .vdup | _ => none

/-- OP of V-MEM (R76). -/
def VmemOp.ofCode : Nat → Option VmemOp
  | 0 => some .fldW | 1 => some .fldQ | 2 => some .vld | 3 => some .fstW | 4 => some .fstQ | 5 => some .vst
  | 6 => some .cld | 7 => some .cst | 8 => some .lvcpy | 9 => some .lvaddf | _ => none

/-- OP of Q-LOU (R77). -/
def LouOp.ofCode : Nat → Option LouOp
  | 0 => some .lmul | 1 => some .lmulu | 2 => some .lmul64 | 3 => some .lmulh64 | 4 => some .ldiv | 5 => some .ldivu
  | 6 => some .fdiv | 7 => some .fsqrt | 8 => some .exp2 | 9 => some .log2 | 10 => some .sin2pi | 11 => some .tanh
  | 12 => some .rsqrt | 13 => some .bcdadd | 14 => some .bcdsub | 15 => some .lbar | _ => none

/-- The operation code of a Q-LOU operation, as the exception record holds it (R77, R161). -/
def LouOp.code : LouOp → Nat
  | .lmul => 0 | .lmulu => 1 | .lmul64 => 2 | .lmulh64 => 3 | .ldiv => 4 | .ldivu => 5 | .fdiv => 6 | .fsqrt => 7
  | .exp2 => 8 | .log2 => 9 | .sin2pi => 10 | .tanh => 11 | .rsqrt => 12 | .bcdadd => 13 | .bcdsub => 14 | .lbar => 15

/-- OP of S-MEM (R78). -/
def SmemOp.ofCode : Nat → Option SmemOp
  | 0 => some .ldS | 1 => some .ldSu | 2 => some .ldD | 3 => some .ldQ | 4 => some .stS | 5 => some .stD
  | 6 => some .stQ | 7 => some .staS | 8 => some .staD | _ => none

/-- OP of S-SVY (R78). -/
def SvyOp.ofCode : Nat → Option SvyOp
  | 0 => some .ldb | 1 => some .ldbu | 2 => some .ldh | 3 => some .ldhu | 4 => some .ldw | 5 => some .stb
  | 6 => some .sth | 7 => some .stw | _ => none

/-- OP of S-ALU (R79). -/
def AluOp.ofCode : Nat → Option AluOp
  | 0 => some .add | 1 => some .sub | 2 => some .adds | 3 => some .subs | 4 => some .neg | 5 => some .negs
  | 6 => some .and | 7 => some .or | 8 => some .xor | 9 => some .not | 10 => some .lsl | 11 => some .lsr
  | 12 => some .asr | 13 => some .ash | 14 => some .min | 15 => some .max | 16 => some .minu | 17 => some .maxu
  | 18 => some .cmpeq | 19 => some .cmpne | 20 => some .cmplt | 21 => some .cmpge | 22 => some .cmpltu
  | 23 => some .cmpgeu | 24 => some .mov | 25 => some .pand | 26 => some .por | 27 => some .pnot | _ => none

/-- OP of S-MOV (R80). -/
def MovOp.ofCode : Nat → Option MovOp
  | 0 => some .movi | 1 => some .movq | 2 => some .mva | 3 => some .mvm | 4 => some .rdsr | 5 => some .wrsr
  | 6 => some .rpd | 7 => some .wpd | _ => none

/-- OP of C-BR (R85). -/
def BrOp.ofCode : Nat → Option BrOp
  | 0 => some .br | 1 => some .call | 2 => some .bri | 3 => some .calli | 4 => some .ret | 5 => some .rfe | _ => none

/-- OP of C-LOOP (R86). -/
def LoopOp.ofCode : Nat → Option LoopOp
  | 0 => some .loop | 1 => some .rep | 2 => some .repi | _ => none

/-- OP of C-CTL (R87). -/
def CtlOp.ofCode : Nat → Option CtlOp
  | 0 => some .nop | 1 => some .tend | 2 => some .flushi | 3 => some .bchk | 4 => some .break | _ => none

/-- MAJ of a syllable (R63). -/
def maj (w : W32) : Nat := fld w 24 4
/-- PG of a syllable (R63). -/
def pg (w : W32) : Nat := fld w 28 3
/-- STOP of a syllable (R63). -/
def stop (w : W32) : Bool := bitOf w 31

/-- The operation a syllable word names: its major opcode (R64) and the minor opcode of its format. -/
def decodeOp (w : W32) : Option SylOp :=
  match maj w with
  | 1 => (MacOp.ofCode (fld w 18 4)).map .mac
  | 2 => (AccOp.ofCode (fld w 18 4)).map .acc
  | 3 => (FpOp.ofCode (fld w 18 6)).map .fp
  | 4 => (VecOp.ofCode (fld w 18 6)).map .vec
  | 5 => (VmemOp.ofCode (fld w 20 4)).map .vmem
  | 6 => (LouOp.ofCode (fld w 18 6)).map .lou
  | 7 => (SmemOp.ofCode (fld w 20 4)).map .smem
  | 8 => (SvyOp.ofCode (fld w 20 4)).map .svy
  | 9 => (AluOp.ofCode (fld w 19 5)).map .alu
  | 10 => (MovOp.ofCode (fld w 20 4)).map .mov
  | 11 => (BrOp.ofCode (fld w 20 4)).map .br
  | 12 => (LoopOp.ofCode (fld w 20 4)).map .loop
  | 13 => (CtlOp.ofCode (fld w 20 4)).map .ctl
  | _ => none

/-- MAJ is defined (R64). -/
def majDefined (w : W32) : Bool := decide (1 ≤ maj w ∧ maj w ≤ 13)

/-- The slot of a syllable, 0 to 7 (R64). -/
def slotOf (w : W32) : Nat :=
  if maj w ≤ 2 then fld w 22 2
  else if maj w ≤ 5 then 4
  else if maj w = 6 then 5
  else if maj w ≤ 10 then 6
  else 7

/-- The highest slot a syllable takes: a long-vector syllable takes slots 4 and 6 (R64). -/
def lastSlotOf (w : W32) : Nat :=
  if maj w = 5 ∧ (fld w 20 4 = 8 ∨ fld w 20 4 = 9) then 6 else slotOf w

/-- The general registers named by a GR code (R69). -/
inductive Gr where
  | s (n : Nat) | x (n : Nat) | y (n : Nat) | nr (n : Nat) | l (n : Nat) | b (n : Nat) | p (n : Nat) | a (n : Nat)
deriving DecidableEq, Repr

/-- The register of a GR code, none for a reserved code (R69). -/
def Gr.ofCode (c : Nat) : Option Gr :=
  if c < 0x08 then some (.s c)
  else if c < 0x0C then some (.x (c - 0x08))
  else if c < 0x10 then some (.y (c - 0x0C))
  else if c < 0x14 then some (.nr (c - 0x10))
  else if c < 0x18 then some (.l (c - 0x14))
  else if c < 0x1C then some (.b (c - 0x18))
  else if c < 0x20 then none
  else if c < 0x28 then some (.p (c - 0x20))
  else if c < 0x2C then some (.a (c - 0x28))
  else none

/-- The codes of the class S–B (R79). -/
def grSB (c : Nat) : Bool := decide (c ≤ 0x1B)
/-- The codes of S0 to S7. -/
def grS (c : Nat) : Bool := decide (c < 8)
/-- The codes of P0 to P7. -/
def grP (c : Nat) : Bool := decide (0x20 ≤ c ∧ c < 0x28)
/-- The codes of A0 to A3. -/
def grA (c : Nat) : Bool := decide (0x28 ≤ c ∧ c < 0x2C)

/-- The SRNs that RDSR accepts (R81). -/
def srReadable (n : Nat) : Bool := decide (n ≤ 0x11)
/-- The SRNs that WRSR accepts (R81). -/
def srWritable (n : Nat) : Bool :=
  decide (n = 0 ∨ n = 1 ∨ (6 ≤ n ∧ n ≤ 0x0B) ∨ n = 0x0D)

/-- Check 3 of R67: the minor opcode is defined and every field that qualifies the operation holds a value
the format tables define for it. -/
def minorOk (w : W32) : Bool :=
  match decodeOp w with
  | none => false
  | some (.mac _) | some (.acc _) | some (.fp _) | some (.vmem _) | some (.lou _) | some (.br _) | some (.loop _) => true
  | some (.vec o) =>
    match o with
    | .vfma => fld w 16 2 == 0
    | .vand | .vor | .vxor => fld w 16 2 == 1 || fld w 16 2 == 2
    | _ => fld w 16 2 != 3
  | some (.smem o) =>
    let gr := fld w 14 6
    match o with
    | .ldS | .ldSu | .stS => grSB gr || grP gr
    | .ldD | .stD => grS gr
    | .ldQ | .stQ => grS gr && gr % 2 == 0
    | .staS | .staD => grA gr && !bitOf w 13
  | some (.svy _) => grS (fld w 14 6)
  | some (.alu o) =>
    let im := bitOf w 18
    let gd := fld w 12 6
    let ga := fld w 6 6
    let gb := fld w 0 6
    match o with
    | .neg | .negs | .not => !im && grSB gd && grSB ga
    | .cmpeq | .cmpne | .cmplt | .cmpge | .cmpltu | .cmpgeu => grP gd && grSB ga && (im || grSB gb)
    | .mov => grSB gd && (im || grSB ga)
    | .pand | .por => !im && grP gd && grP ga && grP gb
    | .pnot => !im && grP gd && grP ga
    | _ => grSB gd && grSB ga && (im || grSB gb)
  | some (.mov o) =>
    match o with
    | .rdsr => srReadable (fld w 11 6)
    | .wrsr => srWritable (fld w 11 6)
    | _ => true
  | some (.ctl o) =>
    match o with
    | .bchk => grSB (fld w 14 6) && (bitOf w 13 || grSB (fld w 7 6))
    | _ => true

/-- The set field beside a mode that uses no set is reserved (R70). -/
def modeOk (mode set : Nat) : Bool := decide (2 ≤ mode) || set == 0

/-- Check 4 of R67: every field reserved for the operation is zero. -/
def reservedOk (w : W32) : Bool :=
  match decodeOp w with
  | none => true
  | some (.mac _) => modeOk (fld w 16 2) (fld w 14 2) && modeOk (fld w 12 2) (fld w 10 2) && fld w 0 10 == 0
  | some (.acc o) =>
    match o with
    | .mul | .mulu | .ald => fld w 0 12 == 0
    | .ashl | .ashr | .alsr => fld w 0 11 == 0
    | .ash => fld w 0 15 == 0
    | .aclr | .amov | .aadd | .asub | .aneg => fld w 0 18 == 0
  | some (.fp o) =>
    fld w 0 2 == 0 &&
    (match o with
    | .fadd | .fsub | .fmul | .fma | .fms | .fmin | .fmax => true
    | .fneg | .fabs => fld w 2 5 == 0
    | .fceq | .fclt | .fcle | .fcun => fld w 15 2 == 0
    | .fcvtd2s | .fcvts2d | .fcvth2s | .fcvts2h | .fmov => fld w 2 5 == 0 && !bitOf w 17
    | .fcvtf2i => fld w 2 5 == 0 && fld w 15 2 == 0
    | .fcvti2f => fld w 2 5 == 0 && fld w 10 2 == 0
    | .fmovf2s => fld w 2 5 == 0 && !bitOf w 17 && fld w 15 2 == 0
    | .fmovs2f | .fmovq => fld w 2 5 == 0 && !bitOf w 17 && fld w 10 2 == 0)
  | some (.vec o) =>
    fld w 0 4 == 0 &&
    (match o with
    | .vdup => if fld w 16 2 = 2 then !bitOf w 7 else fld w 6 2 == 0
    | _ => true)
  | some (.vmem o) =>
    match o with
    | .lvcpy | .lvaddf => fld w 0 3 == 0
    | .fldW | .fldQ | .fstW | .fstQ => fld w 0 6 == 0 && fld w 6 2 == 0 && modeOk (fld w 10 2) (fld w 8 2)
    | .vld | .vst => fld w 0 6 == 0 && fld w 6 2 == 0 && modeOk (fld w 10 2) (fld w 8 2) && !bitOf w 19
    | .cld => fld w 0 6 == 0 && modeOk (fld w 10 2) (fld w 8 2) && !bitOf w 19
    | .cst => fld w 0 6 == 0 && fld w 6 2 == 0 && modeOk (fld w 10 2) (fld w 8 2) && !bitOf w 19 && fld w 15 2 == 0
  | some (.lou o) =>
    fld w 0 4 == 0 &&
    (match o with
    | .lmul | .lmulu | .ldiv | .ldivu | .bcdadd | .bcdsub => fld w 13 2 == 0 && fld w 8 2 == 0 && !bitOf w 4
    | .lmul64 | .lmulh64 =>
      fld w 13 2 == 0 && !bitOf w 10 && fld w 8 2 == 0 && !bitOf w 5 && !bitOf w 4
    | .fdiv => true
    | .fsqrt => fld w 5 5 == 0
    | .exp2 | .log2 | .sin2pi | .tanh | .rsqrt => fld w 5 5 == 0 && !bitOf w 4
    | .lbar => fld w 4 14 == 0)
  | some (.smem o) =>
    match o with
    | .staS | .staD => modeOk (fld w 8 2) (fld w 6 2)
    | _ => bitOf w 13 || (modeOk (fld w 8 2) (fld w 6 2) && fld w 0 6 == 0)
  | some (.svy _) => bitOf w 13 || (modeOk (fld w 8 2) (fld w 6 2) && fld w 0 6 == 0)
  | some (.alu o) =>
    match o with
    | .neg | .negs | .not | .pnot => fld w 0 6 == 0
    | .mov => !bitOf w 18 || fld w 6 6 == 0
    | _ => true
  | some (.mov o) =>
    match o with
    | .movi => true
    | .movq => fld w 0 13 == 0
    | .mva => fld w 0 9 == 0
    | .mvm => fld w 0 14 == 0
    | .rdsr | .wrsr | .rpd | .wpd => fld w 0 11 == 0
  | some (.br o) =>
    match o with
    | .br | .call => fld w 17 3 == 0
    | .bri | .calli => fld w 0 17 == 0
    | .ret | .rfe => fld w 0 20 == 0
  | some (.loop o) =>
    match o with
    | .loop => !bitOf w 18 || fld w 10 5 == 0
    | .rep | .repi => fld w 16 4 == 0
  | some (.ctl o) =>
    match o with
    | .nop | .tend | .flushi => fld w 0 20 == 0
    | .bchk => if bitOf w 13 then fld w 0 9 == 0 else fld w 0 7 == 0
    | .break => fld w 16 4 == 0

/-- Check 6 of R67: the personality rules of R83. -/
def personalityOk (pers : Bool) (w : W32) : Bool :=
  if pers then maj w != 5 && maj w != 7 else maj w != 8

/-- Check 7 of R67: WPD and a WRSR that names CTXCFG are privileged (R84). -/
def privileged (w : W32) : Bool :=
  match decodeOp w with
  | some (.mov .wpd) => true
  | some (.mov .wrsr) => fld w 11 6 == 1
  | _ => false

/-- The first check of R67 that one syllable fails, as its subcode; `prev` is the highest slot taken by the
syllables before it. -/
def sylCheck (pers priv : Bool) (prev : Option Nat) (w : W32) : Option Nat :=
  if !majDefined w then some 0x01
  else if (match prev with | some p => decide (slotOf w ≤ p) | none => false) then some 0x04
  else if !minorOk w then some 0x02
  else if !reservedOk w then some 0x03
  else if slotOf w = 7 && !stop w then some 0x05
  else if !personalityOk pers w then some 0x06
  else if privileged w && !priv then some 0x07
  else none

/-- The first failing syllable of a bundle, in address order, with its position and subcode (R67). -/
def decodeCheck (pers priv : Bool) : Option Nat → Nat → List W32 → Option (Nat × Nat)
  | _, _, [] => none
  | prev, i, w :: ws =>
    match sylCheck pers priv prev w with
    | some c => some (i, c)
    | none => decodeCheck pers priv (some (lastSlotOf w)) (i + 1) ws

end Sys2Proof.Machine
end

