-- ==== Sys2Proof/Machine/Flags.lean ====
section
/-! DEFINITION. Sys2Proof/Machine/Flags.lean: the FSW, and every flag computation of the fixed-point path (R42, R91 to
R102). -/

namespace Sys2Proof.Machine

/-- FSW.OV (R42). -/
def fswOV : Nat := 8
/-- FSW.DZ (R42). -/
def fswDZ : Nat := 9
/-- FSW.SAT (R42). -/
def fswSAT : Nat := 10
/-- FSW.DZE (R42). -/
def fswDZE : Nat := 19
/-- FSW.AGE (R42). -/
def fswAGE : Nat := 20

/-- The writable FSW bits that software may set or clear: all but the reserved bits and AGD (R42). -/
def fswWritable : W32 := 0x03FFFF0F#32

/-- The rounding mode, FSW.RM (R42). -/
inductive Round where
  | rne | rtz | rdn | rup
deriving DecidableEq, Repr

/-- FSW.RM read as a mode (R42). -/
def roundOf (fsw : W32) : Round :=
  match fld fsw 16 2 with
  | 0 => .rne | 1 => .rtz | 2 => .rdn | _ => .rup

/-- FSW.FTZ (R42). -/
def ftzOf (fsw : W32) : Bool := bitOf fsw 18

/-- The flags an operation raises: sticky bits of FSW[15:8], and guard overflows by lane with their
direction (true is negative) (R91, R102, R126). -/
structure Raised where
  /-- the sticky bits, in FSW positions -/
  sticky : W32 := 0
  /-- guard overflows: lane, and true where the exact result was below the range -/
  guard : List (Nat × Bool) := []
deriving DecidableEq, Repr

/-- No flag. -/
def Raised.none : Raised := {}

/-- One sticky bit. -/
def Raised.bit (i : Nat) (b : Bool) : Raised := if b then { sticky := putBit 0 i true } else {}

/-- The flags of two operations together. -/
def Raised.and (p q : Raised) : Raised := { sticky := p.sticky ||| q.sticky, guard := p.guard ++ q.guard }

/-- A guard overflow of one lane: AGV is set, and AGD takes the direction only where AGV was 0 (R91). -/
def guardSet (fsw : W32) (g : Nat × Bool) : W32 :=
  if bitOf fsw g.1 then fsw else putBit (putBit fsw g.1 true) (4 + g.1) g.2

/-- The FSW after flags are delivered to it: hardware only ever sets (R42). -/
def deliver (fsw : W32) (r : Raised) : W32 := r.guard.foldl guardSet (fsw ||| r.sticky)

/-- The FSW after a software write of `v`: AGDn is cleared with AGVn, and otherwise kept (R42, R93). -/
def fswWrite (old v : W32) : W32 :=
  let w := v &&& fswWritable
  let kept := old &&& 0x000000F0#32
  let mask := (w &&& 0x0000000F#32) <<< 4
  w ||| (kept &&& mask)

/-- The direction in which an exact result leaves [−2^71, 2^71): false above, true below (R91). -/
def guardOver (t : Int) : Option Bool :=
  if t ≥ 2 ^ 71 then some false else if t < -(2 ^ 71) then some true else Option.none

/-- The result of an accumulator operation: the wrapped value and its guard overflow (R90, R91). -/
structure AccResult where
  /-- the new An -/
  value : W72
  /-- the direction of a guard overflow, where one was taken -/
  overflow : Option Bool
deriving DecidableEq, Repr

/-- An exact result t written to An (R90, R91). -/
def accWrap (t : Int) : AccResult := { value := wrap 72 t, overflow := guardOver t }

/-- A result that cannot overflow. -/
def accExact (t : Int) : AccResult := { value := wrap 72 t, overflow := Option.none }

/-- The guard flags of an accumulator result of lane n. -/
def AccResult.raised (n : Nat) (r : AccResult) : Raised :=
  match r.overflow with
  | some d => { guard := [(n, d)] }
  | Option.none => {}

/-- The M-MAC operations (R90): `x` and `y` are the fetched operands, 16 or 32 bits wide as the operation has them. -/
def macResult (o : MacOp) (ain : W72) (x y : Nat) : AccResult :=
  let a := ain.toInt
  let s16 := fun v : Nat => signed 16 (v % 2 ^ 16)
  let hi16 := fun v : Nat => signed 16 (field v 16 16)
  let s32 := fun v : Nat => signed 32 (v % 2 ^ 32)
  let dual := s16 x * s16 y + hi16 x * hi16 y
  match o with
  | .macS => accWrap (a + s16 x * s16 y)
  | .macD => accWrap (a + s32 x * s32 y)
  | .msuS => accWrap (a - s16 x * s16 y)
  | .msuD => accWrap (a - s32 x * s32 y)
  | .mpaS => accWrap (s16 x * s16 y)
  | .mpaD => accWrap (s32 x * s32 y)
  | .dmac => accWrap (a + dual)
  | .dmsu => accWrap (a - dual)
  | .dmpa => accWrap dual

/-- The operations that accumulate onto An (R72, R73). -/
def MacOp.accumulates : MacOp → Bool
  | .mpaS | .mpaD | .dmpa => false
  | _ => true

/-- An M-MAC operation fetches doubles (R72). -/
def MacOp.double : MacOp → Bool
  | .macS | .msuS | .mpaS => false
  | _ => true

/-- An accumulator shifted left (R96, R97). -/
def accShl (a : W72) (c : Nat) : AccResult := accWrap (a.toInt * 2 ^ c)
/-- An accumulator shifted right arithmetically (R96, R97). -/
def accShr (a : W72) (c : Nat) : AccResult := accExact (a.toInt / 2 ^ c)

/-- The M-ACC operations that write An (R96, R97): `a` is An, or a.in for the accumulating two; `m` is Mn; `sa`, `sb` are
the S registers; `cnt` the immediate count. -/
def accResult (o : AccOp) (a : W72) (m : W64) (sa sb : W32) (cnt : Nat) : AccResult :=
  match o with
  | .aclr | .mul | .mulu => accExact 0
  | .ald => accExact (sb ++ sa).toInt
  | .amov => accExact m.toInt
  | .aadd => accWrap (a.toInt + m.toInt)
  | .asub => accWrap (a.toInt - m.toInt)
  | .aneg => accWrap (-a.toInt)
  | .ashl => accShl a cnt
  | .ashr => accShr a cnt
  | .alsr => accExact ((a.toNat / 2 ^ cnt : Nat) : Int)
  | .ash =>
    let c := signed 7 (sa.toNat % 128)
    if c ≥ 0 then accShl a c.toNat else accShr a (-c).toNat

/-- MUL and MULU (R96). -/
def mulResult (o : AccOp) (sa sb : W32) : W64 :=
  match o with
  | .mulu => wrap 64 ((sa.toNat * sb.toNat : Nat) : Int)
  | _ => wrap 64 (sa.toInt * sb.toInt)

/-- A value clamped to `n` signed bits, and whether it clamped (R94). -/
def clampTo (n : Nat) (v : Int) : Int × Bool :=
  if v > 2 ^ (n - 1) - 1 then (2 ^ (n - 1) - 1, true)
  else if v < -(2 ^ (n - 1)) then (-(2 ^ (n - 1)), true)
  else (v, false)

/-- The read-out of An by STA and MVA to `n` bits: floor(An ÷ 2^SH) clamped (R94), or, while AGVn reads 1, the clamp of
the latched direction (R95). The second part is FSW.SAT. -/
def readOut (n : Nat) (fsw : W32) (lane : Nat) (a : W72) (sh : Nat) : Int × Bool :=
  if bitOf fsw lane then
    (if bitOf fsw (4 + lane) then -(2 ^ (n - 1)) else 2 ^ (n - 1) - 1, true)
  else clampTo n (a.toInt / 2 ^ sh)

/-- The immediate of an S-ALU operation is signed (R79). -/
def AluOp.immSigned : AluOp → Bool
  | .lsl | .lsr | .asr | .minu | .maxu | .cmpltu | .cmpgeu => false
  | _ => true

/-- The S-ALU operation writes a predicate (R79). -/
def AluOp.toPred : AluOp → Bool
  | .cmpeq | .cmpne | .cmplt | .cmpge | .cmpltu | .cmpgeu | .pand | .por | .pnot => true
  | _ => false

/-- A wrapped 32-bit sum and its overflow (R98). -/
def wrap32 (t : Int) : W32 × Bool := (wrap 32 t, decide (t < -(2 ^ 31) ∨ t > 2 ^ 31 - 1))
/-- A clamped 32-bit sum and whether it clamped (R98). -/
def sat32 (t : Int) : W32 × Bool := (wrap 32 (clampTo 32 t).1, (clampTo 32 t).2)

/-- The S-ALU shifts (R99). -/
def shl32 (a : W32) (c : Nat) : W32 := if c ≥ 32 then 0 else a <<< c
/-- Logical right shift (R99). -/
def shr32 (a : W32) (c : Nat) : W32 := if c ≥ 32 then 0 else a >>> c
/-- Arithmetic right shift (R99). -/
def sar32 (a : W32) (c : Nat) : W32 := wrap 32 (a.toInt / 2 ^ c)

/-- The result of an S-ALU operation on 32 bits, and FSW.OV (R79, R98, R99). A predicate result stands in bit 0. -/
def aluResult (o : AluOp) (a b : W32) : W32 × Bool :=
  let tt : Bool → W32 := fun p => if p then 1 else 0
  let c := b.toNat % 128
  match o with
  | .add => wrap32 (a.toInt + b.toInt)
  | .sub => wrap32 (a.toInt - b.toInt)
  | .adds => sat32 (a.toInt + b.toInt)
  | .subs => sat32 (a.toInt - b.toInt)
  | .neg => wrap32 (-a.toInt)
  | .negs => sat32 (-a.toInt)
  | .and => (a &&& b, false)
  | .or => (a ||| b, false)
  | .xor => (a ^^^ b, false)
  | .not => (~~~a, false)
  | .lsl => (shl32 a c, false)
  | .lsr => (shr32 a c, false)
  | .asr => (sar32 a c, false)
  | .ash =>
    let sc := signed 7 c
    (if sc ≥ 0 then shl32 a sc.toNat else sar32 a (-sc).toNat, false)
  | .min => (if a.toInt ≤ b.toInt then a else b, false)
  | .max => (if a.toInt ≥ b.toInt then a else b, false)
  | .minu => (if a.toNat ≤ b.toNat then a else b, false)
  | .maxu => (if a.toNat ≥ b.toNat then a else b, false)
  | .cmpeq => (tt (a == b), false)
  | .cmpne => (tt (a != b), false)
  | .cmplt => (tt (decide (a.toInt < b.toInt)), false)
  | .cmpge => (tt (decide (a.toInt ≥ b.toInt)), false)
  | .cmpltu => (tt (decide (a.toNat < b.toNat)), false)
  | .cmpgeu => (tt (decide (a.toNat ≥ b.toNat)), false)
  | .mov => (a, false)
  | .pand => (a &&& b, false)
  | .por => (a ||| b, false)
  | .pnot => (tt (a == 0), false)

/-- The last bit shifted out is defined by a shift of c − 1 and a test of bit 31 (LSL) or bit 0 (LSR, ASR) (R100). -/
def lastShiftedOut (o : AluOp) (a : W32) (c : Nat) : Bool :=
  match o with
  | .lsl => bitOf (shl32 a (c - 1)) 31
  | .lsr => bitOf (shr32 a (c - 1)) 0
  | _ => bitOf (sar32 a (c - 1)) 0

/-- The pointer update of R70 on exact integers, `width` 16 or 32. -/
def circUpdate (width : Nat) (p : Nat) (step : Int) (b l : Nat) : Nat :=
  if l = 0 then (((p : Int) + step) % 2 ^ width).toNat
  else (b + ((((p : Int) - b) + step) % l).toNat) % 2 ^ width

/-- The update takes the extra beat of R59. -/
def circSlow (p : Nat) (step : Int) (b l : Nat) : Bool :=
  decide (l ≠ 0 ∧ (step.natAbs ≥ l ∨ p < b ∨ p ≥ b + l))

end Sys2Proof.Machine
end

