-- ==== Sys2Proof/Machine/Float.lean ====
section
/-! DEFINITION. Sys2Proof/Machine/Float.lean: binary16, binary32 and binary64 arithmetic (R121 to R138). Every result
is formed exactly and rounded once. -/

namespace Sys2Proof.Machine

/-- A binary format: exponent and fraction bits. -/
structure Fmt where
  /-- exponent bits -/
  eb : Nat
  /-- fraction bits -/
  mb : Nat
deriving DecidableEq, Repr

/-- binary16 (R121). -/
def f16 : Fmt := { eb := 5, mb := 10 }
/-- binary32 (R121). -/
def f32 : Fmt := { eb := 8, mb := 23 }
/-- binary64 (R121). -/
def f64 : Fmt := { eb := 11, mb := 52 }

/-- The exponent bias. -/
def Fmt.bias (f : Fmt) : Nat := 2 ^ (f.eb - 1) - 1
/-- The sign bit's position. -/
def Fmt.signPos (f : Fmt) : Nat := f.eb + f.mb
/-- The canonical NaN (R123). -/
def Fmt.nan (f : Fmt) : Nat := (2 ^ f.eb - 1) * 2 ^ f.mb + 2 ^ (f.mb - 1)
/-- An infinity. -/
def Fmt.inf (f : Fmt) (s : Bool) : Nat := s.toNat * 2 ^ f.signPos + (2 ^ f.eb - 1) * 2 ^ f.mb
/-- The largest finite value. -/
def Fmt.maxFin (f : Fmt) (s : Bool) : Nat := Fmt.inf f s - 1
/-- A zero. -/
def Fmt.zero (f : Fmt) (s : Bool) : Nat := s.toNat * 2 ^ f.signPos

/-- A floating-point datum: a finite non-zero value is (−1)^s · m · 2^e. -/
inductive Fval where
  | nan (signalling : Bool)
  | inf (s : Bool)
  | zero (s : Bool)
  | fin (s : Bool) (m : Nat) (e : Int)
deriving DecidableEq, Repr

/-- FTZ acts on binary32 and binary64 only (R125). -/
def Fmt.ftzApplies (f : Fmt) : Bool := f.eb != 5

/-- The datum of a bit pattern; under FTZ a subnormal is a zero of its sign (R123, R125). -/
def unpack (f : Fmt) (ftz : Bool) (v : Nat) : Fval :=
  let s := bitAt v f.signPos
  let ex := field v f.mb f.eb
  let fr := v % 2 ^ f.mb
  if ex = 2 ^ f.eb - 1 then
    (if fr = 0 then .inf s else .nan (!bitAt fr (f.mb - 1)))
  else if ex = 0 then
    (if fr = 0 || (ftz && f.ftzApplies) then .zero s else .fin s fr (1 - (f.bias : Int) - f.mb))
  else .fin s (2 ^ f.mb + fr) ((ex : Int) - f.bias - f.mb)

/-- The five exception flags, in the order of FSW[15:11] (R127): invalid. -/
def fNV : Nat := 1
/-- Divide by zero. -/
def fFDZ : Nat := 2
/-- Overflow. -/
def fOF : Nat := 4
/-- Underflow. -/
def fUF : Nat := 8
/-- Inexact. -/
def fNX : Nat := 16

/-- A result's bits and its flags. -/
structure FRes where
  /-- the bit pattern of the result -/
  bits : Nat
  /-- the flags raised, in the order of FSW[15:11] -/
  fl : Nat := 0
deriving DecidableEq, Repr

/-- `m` shifted right by `q` and rounded to an integer, with whether bits were lost (R124). -/
def roundShift (rm : Round) (s : Bool) (m : Nat) (q : Int) : Nat × Bool :=
  if q ≤ 0 then (m * 2 ^ (-q).toNat, false)
  else
    let k := q.toNat
    let d := m / 2 ^ k
    let r := m % 2 ^ k
    let h := 2 ^ (k - 1)
    let up := match rm with
      | .rne => decide (r > h ∨ (r = h ∧ d % 2 = 1))
      | .rtz => false
      | .rdn => s && r != 0
      | .rup => !s && r != 0
    (d + up.toNat, r != 0)

/-- The result of an overflow (R131, R132). -/
def overflowRes (f : Fmt) (rm : Round) (s : Bool) : FRes :=
  let toInf := match rm with
    | .rne => true
    | .rtz => false
    | .rdn => s
    | .rup => !s
  { bits := if toInf then f.inf s else f.maxFin s, fl := fOF ||| fNX }

/-- The exact value (−1)^s · m · 2^e, m > 0, rounded to the format (R124, R125): tininess is judged after rounding with
an unbounded exponent; under FTZ a tiny result is a zero with UF and NX. -/
def roundFin (f : Fmt) (rm : Round) (ftz : Bool) (s : Bool) (m : Nat) (e : Int) : FRes :=
  let p := f.mb + 1
  let len := Nat.log2 m + 1
  let q : Int := (len : Int) - p
  let (m1, x1) := roundShift rm s m q
  let carry := decide (m1 = 2 ^ p)
  let ex : Int := e + q + f.mb + carry.toNat
  let emin : Int := 1 - (f.bias : Int)
  let sgn := f.zero s
  if ex < emin then
    if ftz && f.ftzApplies then { bits := sgn, fl := fUF ||| fNX }
    else
      let (m2, x2) := roundShift rm s m (emin - f.mb - e)
      { bits := sgn + m2, fl := if x2 then fUF ||| fNX else 0 }
  else if ex > f.bias then overflowRes f rm s
  else
    let mant := if carry then 0 else m1 - 2 ^ f.mb
    { bits := sgn + (ex + f.bias).toNat * 2 ^ f.mb + mant, fl := if x1 then fNX else 0 }

/-- An exact integer multiple of 2^e rounded to the format; `zs` is the sign of an exact zero. -/
def roundInt (f : Fmt) (rm : Round) (ftz : Bool) (zs : Bool) (v : Int) (e : Int) : FRes :=
  if v = 0 then { bits := f.zero zs }
  else roundFin f rm ftz (decide (v < 0)) v.natAbs e

/-- NV where any of the operands is a signalling NaN, with the canonical NaN (R123, R130). -/
def nanRes (f : Fmt) (vs : List Fval) : FRes :=
  { bits := f.nan, fl := if vs.any (· == .nan true) then fNV else 0 }

/-- The invalid result (R131). -/
def invalidRes (f : Fmt) : FRes := { bits := f.nan, fl := fNV }

/-- A datum is a NaN. -/
def Fval.isNan : Fval → Bool
  | .nan _ => true
  | _ => false

/-- The datum with its sign inverted. -/
def Fval.neg : Fval → Fval
  | .nan q => .nan q
  | .inf s => .inf (!s)
  | .zero s => .zero (!s)
  | .fin s m e => .fin (!s) m e

/-- A signed significand. -/
def signedInt (s : Bool) (m : Nat) : Int := if s then -(m : Int) else m

/-- The sum of two data, rounded once (R124, R131). -/
def addVal (f : Fmt) (rm : Round) (ftz : Bool) (a b : Fval) : FRes :=
  match a, b with
  | .nan _, _ => nanRes f [a, b]
  | _, .nan _ => nanRes f [a, b]
  | .inf s, .inf t => if s = t then { bits := f.inf s } else invalidRes f
  | .inf s, _ => { bits := f.inf s }
  | _, .inf t => { bits := f.inf t }
  | .zero s, .zero t => { bits := f.zero (if s = t then s else decide (rm = .rdn)) }
  | .zero _, .fin s m e => roundFin f rm ftz s m e
  | .fin s m e, .zero _ => roundFin f rm ftz s m e
  | .fin s m e, .fin t n g =>
    let lo := min e g
    roundInt f rm ftz (decide (rm = .rdn))
      (signedInt s m * 2 ^ (e - lo).toNat + signedInt t n * 2 ^ (g - lo).toNat) lo

/-- The product of two data, not rounded (R132); an invalid product is none. -/
def mulVal (a b : Fval) : Option Fval :=
  match a, b with
  | .nan q, .nan r => some (.nan (q || r))
  | .nan q, _ => some (.nan q)
  | _, .nan r => some (.nan r)
  | .inf _, .zero _ => none
  | .zero _, .inf _ => none
  | .inf s, .inf t => some (.inf (s != t))
  | .inf s, .fin t _ _ => some (.inf (s != t))
  | .fin s _ _, .inf t => some (.inf (s != t))
  | .zero s, .zero t => some (.zero (s != t))
  | .zero s, .fin t _ _ => some (.zero (s != t))
  | .fin s _ _, .zero t => some (.zero (s != t))
  | .fin s m e, .fin t n g => some (.fin (s != t) (m * n) (e + g))

/-- FADD (R131). -/
def fAdd (f : Fmt) (rm : Round) (ftz : Bool) (a b : Nat) : FRes := addVal f rm ftz (unpack f ftz a) (unpack f ftz b)
/-- FSUB A, B is FADD A, −B (R131). -/
def fSub (f : Fmt) (rm : Round) (ftz : Bool) (a b : Nat) : FRes :=
  addVal f rm ftz (unpack f ftz a) (unpack f ftz b).neg

/-- FMUL (R132). -/
def fMul (f : Fmt) (rm : Round) (ftz : Bool) (a b : Nat) : FRes :=
  match mulVal (unpack f ftz a) (unpack f ftz b) with
  | none => invalidRes f
  | some (.nan q) => nanRes f [.nan q]
  | some (.inf s) => { bits := f.inf s }
  | some (.zero s) => { bits := f.zero s }
  | some (.fin s m e) => roundFin f rm ftz s m e

/-- FD + FA × FB with one rounding; `sub` negates FA (R133). -/
def fFma (f : Fmt) (rm : Round) (ftz : Bool) (sub : Bool) (d a b : Nat) : FRes :=
  let fa := unpack f ftz a
  match mulVal (if sub then fa.neg else fa) (unpack f ftz b) with
  | none => invalidRes f
  | some p => addVal f rm ftz p (unpack f ftz d)

/-- The operand with a subnormal taken as a zero of its sign under FTZ (R125). -/
def flush (f : Fmt) (ftz : Bool) (v : Nat) : Nat :=
  if ftz && f.ftzApplies && field v f.mb f.eb == 0 then f.zero (bitAt v f.signPos) else v % 2 ^ (f.signPos + 1)

/-- The order of non-NaN patterns: both zeros are 0. -/
def orderKey (f : Fmt) (v : Nat) : Int := signedInt (bitAt v f.signPos) (v % 2 ^ f.signPos)

/-- FMIN (`mx` false) and FMAX (R134). -/
def fMinMax (f : Fmt) (ftz mx : Bool) (a b : Nat) : FRes :=
  let va := unpack f ftz a
  let vb := unpack f ftz b
  if va.isNan || vb.isNan then nanRes f [va, vb]
  else
    let x := flush f ftz a
    let y := flush f ftz b
    let kx := orderKey f x
    let ky := orderKey f y
    let less := decide (kx < ky) || (decide (kx = ky) && bitAt x f.signPos)
    { bits := if less != mx then x else y }

/-- FNEG and FABS: a NaN gives the canonical NaN (R123, R134). -/
def fSign (f : Fmt) (abs : Bool) (a : Nat) : FRes :=
  if (unpack f false a).isNan then { bits := f.nan }
  else
    let mag := a % 2 ^ f.signPos
    { bits := if abs || bitAt a f.signPos then mag else mag + 2 ^ f.signPos }

/-- The compares (R135): 0 for false and 1 for true. -/
def fCompare (f : Fmt) (ftz : Bool) (o : FpOp) (a b : Nat) : FRes :=
  let va := unpack f ftz a
  let vb := unpack f ftz b
  let sig := if va == .nan true || vb == .nan true then fNV else 0
  if va.isNan || vb.isNan then
    match o with
    | .fcun => { bits := 1, fl := sig }
    | .fceq => { bits := 0, fl := sig }
    | _ => { bits := 0, fl := fNV }
  else
    let kx := orderKey f (flush f ftz a)
    let ky := orderKey f (flush f ftz b)
    match o with
    | .fceq => { bits := (decide (kx = ky)).toNat }
    | .fclt => { bits := (decide (kx < ky)).toNat }
    | .fcle => { bits := (decide (kx ≤ ky)).toNat }
    | _ => { bits := 0 }

/-- A conversion between formats (R136). -/
def fConvert (src dst : Fmt) (rm : Round) (ftz : Bool) (a : Nat) : FRes :=
  match unpack src ftz a with
  | .nan q => nanRes dst [.nan q]
  | .inf s => { bits := dst.inf s }
  | .zero s => { bits := dst.zero s }
  | .fin s m e => roundFin dst rm ftz s m e

/-- FCVTF2I (R137). -/
def fToInt (f : Fmt) (rm : Round) (ftz : Bool) (a : Nat) : FRes :=
  let clamped := fun s : Bool => ({ bits := if s then 0x80000000 else 0x7FFFFFFF, fl := fNV } : FRes)
  match unpack f ftz a with
  | .nan _ => { bits := 0, fl := fNV }
  | .inf s => clamped s
  | .zero _ => { bits := 0 }
  | .fin s m e =>
    let (q, x) := roundShift rm s m (-e)
    let v := signedInt s q
    if v > 2 ^ 31 - 1 ∨ v < -(2 ^ 31) then clamped s
    else { bits := (v % 2 ^ 32).toNat, fl := if x then fNX else 0 }

/-- FCVTI2F (R137). -/
def fFromInt (f : Fmt) (rm : Round) (a : W32) : FRes := roundInt f rm false false a.toInt 0

/-- FDIV (R138): the quotient carries enough bits, and a sticky bit, to round once. -/
def fDiv (f : Fmt) (rm : Round) (ftz : Bool) (a b : Nat) : FRes :=
  match unpack f ftz a, unpack f ftz b with
  | .nan q, v => nanRes f [.nan q, v]
  | v, .nan q => nanRes f [v, .nan q]
  | .zero _, .zero _ => invalidRes f
  | .inf _, .inf _ => invalidRes f
  | .inf s, .zero t => { bits := f.inf (s != t) }
  | .inf s, .fin t _ _ => { bits := f.inf (s != t) }
  | .zero s, .inf t => { bits := f.zero (s != t) }
  | .zero s, .fin t _ _ => { bits := f.zero (s != t) }
  | .fin s _ _, .inf t => { bits := f.zero (s != t) }
  | .fin s _ _, .zero t => { bits := f.inf (s != t), fl := fFDZ }
  | .fin s m e, .fin t n g =>
    let k := f.mb + 4 + Nat.log2 n + 1
    let q := m * 2 ^ k / n
    let r := m * 2 ^ k % n
    roundFin f rm ftz (s != t) (2 * q + (r != 0).toNat) (e - g - k - 1)

/-- The integer square root, one bit at a time from bit `k - 1` down. -/
def isqrtFrom : Nat → Nat → Nat → Nat
  | 0, _, r => r
  | k + 1, n, r => if (r + 2 ^ k) * (r + 2 ^ k) ≤ n then isqrtFrom k n (r + 2 ^ k) else isqrtFrom k n r

/-- The largest r with r² ≤ n. -/
def isqrt (n : Nat) : Nat := isqrtFrom (Nat.log2 n / 2 + 1) n 0

/-- FSQRT (R138). -/
def fSqrt (f : Fmt) (rm : Round) (ftz : Bool) (a : Nat) : FRes :=
  match unpack f ftz a with
  | .nan q => nanRes f [.nan q]
  | .zero s => { bits := f.zero s }
  | .inf true => invalidRes f
  | .inf false => { bits := f.inf false }
  | .fin true _ _ => invalidRes f
  | .fin false m e =>
    let odd := (e % 2).toNat
    let k := f.mb + 4
    let n := m * 2 ^ odd * 4 ^ k
    let r := isqrt n
    roundFin f rm ftz false (2 * r + (r * r != n).toNat) ((e - odd) / 2 - k - 1)

/-- The format of the PR bit (R74). -/
def prFmt (pr : Bool) : Fmt := if pr then f64 else f32

/-- A scalar floating-point operation that writes an F register, on the low bits of its operands (R131 to R136). `d`,
`a`, `b` are FD, FA and FB. -/
def fpArith (o : FpOp) (f : Fmt) (rm : Round) (ftz : Bool) (d a b : Nat) : FRes :=
  match o with
  | .fadd => fAdd f rm ftz a b
  | .fsub => fSub f rm ftz a b
  | .fmul => fMul f rm ftz a b
  | .fma => fFma f rm ftz false d a b
  | .fms => fFma f rm ftz true d a b
  | .fneg => fSign f false a
  | .fabs => fSign f true a
  | .fmin => fMinMax f ftz false a b
  | .fmax => fMinMax f ftz true a b
  | .fceq | .fclt | .fcle | .fcun => fCompare f ftz o a b
  | .fcvtd2s => fConvert f64 f32 rm ftz a
  | .fcvts2d => fConvert f32 f64 rm ftz a
  | .fcvth2s => fConvert f16 f32 rm ftz a
  | .fcvts2h => fConvert f32 f16 rm ftz a
  | .fcvtf2i => fToInt f rm ftz a
  | .fcvti2f => fFromInt f rm (BitVec.ofNat 32 a)
  | .fmovf2s => { bits := a % 2 ^ 32 }
  | .fmovs2f => { bits := a % 2 ^ 32 }
  | .fmovq | .fmov => { bits := a }

/-- One lane of a V-VEC operation with LW 0b00: the scalar operation of R141. -/
def vecFpLane (o : VecOp) (rm : Round) (ftz : Bool) (d a b : Nat) : FRes :=
  match o with
  | .vadd => fAdd f32 rm ftz a b
  | .vsub => fSub f32 rm ftz a b
  | .vmul => fMul f32 rm ftz a b
  | .vfma => fFma f32 rm ftz false d a b
  | .vmin => fMinMax f32 ftz false a b
  | .vmax => fMinMax f32 ftz true a b
  | .vand | .vor | .vxor | .vdup => { bits := a }

/-- One integer lane of `n` bits (R141). -/
def vecIntLane (o : VecOp) (n a b : Nat) : Nat :=
  let x := signed n a
  let y := signed n b
  match o with
  | .vadd => (a + b) % 2 ^ n
  | .vsub => (a + 2 ^ n - b) % 2 ^ n
  | .vmul => (a * b) % 2 ^ n
  | .vfma => a
  | .vmin => if x ≤ y then a else b
  | .vmax => if x ≥ y then a else b
  | .vand => a &&& b
  | .vor => a ||| b
  | .vxor => a ^^^ b
  | .vdup => a

/-- Lane `i` of a V register of `n`-bit lanes (R122). -/
def lane (n v i : Nat) : Nat := field v (n * i) n

/-- A V register put together from its lanes, lane 0 first. -/
def fromLanes (n : Nat) : List Nat → Nat
  | [] => 0
  | x :: xs => x % 2 ^ n + 2 ^ n * fromLanes n xs

/-- A V-VEC result: the 128-bit value, the flags OR-ed over the lanes, and the flags of each lane (R141). -/
def vecResult (o : VecOp) (lw : Nat) (rm : Round) (ftz : Bool) (d a b vb : Nat) : Nat × Nat × List Nat :=
  let n := if lw = 2 then 16 else 32
  let cnt := if lw = 2 then 8 else 4
  match o with
  | .vdup =>
    let j := if lw = 2 then vb % 8 else vb % 4
    (fromLanes n ((List.range cnt).map fun _ => lane n a j), 0, [])
  | _ =>
    if lw = 0 then
      let rs := (List.range 4).map fun i => vecFpLane o rm ftz (lane 32 d i) (lane 32 a i) (lane 32 b i)
      (fromLanes 32 (rs.map (·.bits)), rs.foldl (fun acc r => acc ||| r.fl) 0, rs.map (·.fl))
    else
      (fromLanes n ((List.range cnt).map fun i => vecIntLane o n (lane n a i) (lane n b i)), 0, [])

end Sys2Proof.Machine
end

