-- ==== Sys2Proof/Machine/Transcend.lean ====
section
/-! DEFINITION. Sys2Proof/Machine/Transcend.lean: the transcendental functions of the LOU (R139, R140): the exact cases,
and for the rest a free value held to the spec's error bound by fixed-point enclosures of 2^−256. -/

namespace Sys2Proof.Machine

/-- Bits of fraction of the fixed-point enclosures. -/
def fxBits : Nat := 256
/-- The fixed-point one. -/
def fxOne : Nat := 2 ^ 256
/-- A fixed-point product. -/
def fxMul (a b : Nat) : Nat := a * b / 2 ^ 256
/-- A fixed-point square root. -/
def fxSqrt (a : Nat) : Nat := isqrt (a * 2 ^ 256)

/-- The product of 2^(2^−i) over the set bits of a fraction, from bit weight 2^−1 down; `c` is the current factor
(2 at the start, whose root is taken first). -/
def exp2Frac : Nat → Nat → Nat → Nat → Nat
  | 0, _, _, acc => acc
  | n + 1, x, c, acc =>
    let c' := fxSqrt c
    if 2 * x ≥ fxOne then exp2Frac n (2 * x - fxOne) c' (fxMul acc c') else exp2Frac n (2 * x) c' acc

/-- 2^x for a fixed-point x in [0, 1). -/
def exp2Fx (x : Nat) : Nat := exp2Frac 240 x (2 * fxOne) fxOne

/-- The binary digits of log2 m, for a fixed-point m in [1, 2), by repeated squaring. -/
def log2Frac : Nat → Nat → Nat → Nat
  | 0, _, acc => acc
  | n + 1, m, acc =>
    let s := fxMul m m
    if s ≥ 2 * fxOne then log2Frac n (s / 2) (2 * acc + 1) else log2Frac n s (2 * acc)

/-- log2 m for a fixed-point m in [1, 2), fixed point. -/
def log2Fx (m : Nat) : Nat := log2Frac 120 m 0 * 2 ^ 136

/-- Sine and cosine of x of a quarter turn, x fixed point in [0, 1): the rotations of the set bits are composed; `s`,
`c` are the sine and cosine of the current power of two of a quarter turn. -/
def sincosFx : Nat → Nat → (Nat × Nat) → (Nat × Nat) → Nat × Nat
  | 0, _, _, acc => acc
  | n + 1, x, (s, c), (sa, ca) =>
    let c' := fxSqrt ((fxOne + c) / 2)
    let s' := s * fxOne / (2 * c')
    if 2 * x ≥ fxOne then
      sincosFx n (2 * x - fxOne) (s', c') (fxMul sa c' + fxMul ca s', fxMul ca c' - fxMul sa s')
    else sincosFx n (2 * x) (s', c') (sa, ca)

/-- sin(πx/2) for a fixed-point x in [0, 1). -/
def sinQuarter (x : Nat) : Nat := (sincosFx 200 x (fxOne, 0) (0, fxOne)).1

/-- log2(e) times 2^256, rounded down. -/
def log2eFx : Nat := 0x171547652b82fe1777d0ffda0d23a7d11d6aef551bad2b4b1164a2cd9a342648f

/-- A finite magnitude m·2^e in fixed point, cut off. -/
def toFx (m : Nat) (e : Int) : Nat :=
  let k := e + 256
  if k ≥ 0 then m * 2 ^ k.toNat else m / 2 ^ (-k).toNat

/-- A fixed-point value times 2^k. -/
def fxScale (v : Nat) (k : Int) : Nat := if k ≥ 0 then v * 2 ^ k.toNat else v / 2 ^ (-k).toNat

/-- The fixed-point value of a binary32 magnitude. -/
def f32Fx (v : Nat) : Nat :=
  match unpack f32 false (v % 2 ^ 31) with
  | .fin _ m e => toFx m e
  | _ => 0

/-- ulp(y) of R139 for a fixed-point magnitude. -/
def ulpFx (y : Nat) : Nat := 2 ^ (max (Nat.log2 y) (256 - 126) - 23)

/-- `r`, the magnitude pattern of a finite binary32, meets a bound of k ULP of y (R139), to within 2^−20 ULP. -/
def meetsBound (k : Nat) (r y : Nat) : Bool :=
  decide (field r 23 8 ≠ 255) && decide ((((f32Fx r : Nat) : Int) - y).natAbs * 2 ^ 20 ≤ (k * 2 ^ 20 + 1) * ulpFx y)

/-- y cut off to binary32. -/
def truncF32 (y : Nat) : Nat :=
  if y = 0 then 0 else (roundFin f32 .rtz false false y (-256)).bits

/-- The magnitude of an inexact result: the free candidate where it meets the bound, and the cut-off value otherwise. -/
def boundedFree (code k x y : Nat) : Nat :=
  let cand := (Config.transcendental code (BitVec.ofNat 32 x)).toNat % 2 ^ 31
  if meetsBound k cand y then cand else truncF32 y

/-- An inexact result with its sign: NX, with UF where it is tiny, and a zero for a tiny result under FTZ (R125, R139). -/
def inexactRes (ftz : Bool) (s : Bool) (mag : Nat) : FRes :=
  if mag < 2 ^ 23 then { bits := f32.zero s + (if ftz then 0 else mag), fl := fUF ||| fNX }
  else { bits := f32.zero s + mag, fl := fNX }

/-- A finite magnitude m·2^e is a whole number, and which. -/
def wholeOf (m : Nat) (e : Int) : Option Nat :=
  if e ≥ 0 then some (m * 2 ^ e.toNat)
  else if m % 2 ^ (-e).toNat = 0 then some (m / 2 ^ (-e).toNat) else none

/-- EXP2 (R139, R140). -/
def fExp2 (ftz : Bool) (a : Nat) : FRes :=
  match unpack f32 ftz a with
  | .nan q => nanRes f32 [.nan q]
  | .zero _ => { bits := 0x3F800000 }
  | .inf s => { bits := if s then 0 else f32.inf false }
  | .fin s m e =>
    let big := toFx m e
    if !s && decide (big ≥ 128 * fxOne) then { bits := f32.inf false, fl := fOF ||| fNX }
    else if s && decide (big ≥ 150 * fxOne) then { bits := 0, fl := fUF ||| fNX }
    else match wholeOf m e with
      | some n =>
        let r := roundFin f32 .rtz ftz false 1 (signedInt s n)
        { bits := r.bits, fl := r.fl }
      | none =>
        if a % 2 ^ 31 = 1 then { bits := 0x3F800000, fl := fNX }
        else
          let n := big / fxOne
          let fr := big % fxOne
          let y := if s then fxScale (exp2Fx (fxOne - fr)) (-(n : Int) - 1) else fxScale (exp2Fx fr) n
          inexactRes ftz false (boundedFree 8 2 a y)

/-- LOG2 (R139, R140). -/
def fLog2 (ftz : Bool) (a : Nat) : FRes :=
  match unpack f32 ftz a with
  | .nan q => nanRes f32 [.nan q]
  | .zero _ => { bits := f32.inf true, fl := fFDZ }
  | .inf true => invalidRes f32
  | .fin true _ _ => invalidRes f32
  | .inf false => { bits := f32.inf false }
  | .fin false m e =>
    let k := Nat.log2 m
    let ex : Int := e + k
    if m = 2 ^ k then roundInt f32 .rne false false ex 0
    else
      let fr := log2Fx (m * fxOne / 2 ^ k)
      let y : Int := ex * fxOne + fr
      inexactRes ftz (decide (y < 0)) (boundedFree 9 2 a y.natAbs)

/-- SIN2PI (R139, R140): the argument is taken as a magnitude, so the function is odd bit for bit. -/
def fSin2pi (ftz : Bool) (a : Nat) : FRes :=
  match unpack f32 ftz a with
  | .nan q => nanRes f32 [.nan q]
  | .zero s => { bits := f32.zero s }
  | .inf _ => invalidRes f32
  | .fin s m e =>
    match wholeOf m (e + 1) with
    | some _ => { bits := f32.zero s }
    | none =>
      let x := toFx m e % fxOne
      let neg := decide (2 * x ≥ fxOne)
      let h := if neg then x - fxOne / 2 else x
      match wholeOf m (e + 2) with
      | some _ => { bits := f32.zero (s != neg) + 0x3F800000 }
      | none =>
        let q := if 4 * h ≥ fxOne then 2 * fxOne - 4 * h else 4 * h
        inexactRes ftz (s != neg) (boundedFree 10 2 (a % 2 ^ 31) (sinQuarter q))

/-- TANH (R139, R140). -/
def fTanh (ftz : Bool) (a : Nat) : FRes :=
  match unpack f32 ftz a with
  | .nan q => nanRes f32 [.nan q]
  | .zero s => { bits := f32.zero s }
  | .inf s => { bits := f32.zero s + 0x3F800000 }
  | .fin s m e =>
    let x := toFx m e
    if x ≥ 10 * fxOne then { bits := f32.zero s + 0x3F800000, fl := fNX }
    else if x < fxOne / 2 ^ 12 then
      { bits := a % 2 ^ 32, fl := if field a 23 8 = 0 then fUF ||| fNX else fNX }
    else
      let t := fxMul (2 * x) log2eFx
      let p := fxScale (exp2Fx (t % fxOne)) ((t / fxOne : Nat) : Int)
      inexactRes ftz s (boundedFree 11 3 (a % 2 ^ 31) ((p - fxOne) * fxOne / (p + fxOne)))

/-- RSQRT (R139, R140). -/
def fRsqrt (ftz : Bool) (a : Nat) : FRes :=
  match unpack f32 ftz a with
  | .nan q => nanRes f32 [.nan q]
  | .zero s => { bits := f32.inf s, fl := fFDZ }
  | .inf true => invalidRes f32
  | .fin true _ _ => invalidRes f32
  | .inf false => { bits := 0 }
  | .fin false m e =>
    let k := Nat.log2 m
    let ex : Int := e + k
    let odd := (ex % 2).toNat
    let half := (ex - odd) / 2
    if m = 2 ^ k ∧ odd = 0 then roundFin f32 .rne false false 1 (-half)
    else
      let v := m * 2 ^ odd * fxOne / 2 ^ k
      inexactRes ftz false (boundedFree 12 1 a (fxScale (fxOne * fxOne / fxSqrt v) (-half)))

end Sys2Proof.Machine
end

