-- ==== Sys2Proof/Machine/LouArith.lean ====
section
/-! DEFINITION. Sys2Proof/Machine/LouArith.lean: the results, flags and latencies of the long operations (R105 to R120,
R138 to R140). -/

namespace Sys2Proof.Machine

/-- The execution units of the LOU (R105). -/
inductive LouUnit where
  | mul | div | fds | trn | bcd
deriving DecidableEq, Repr

/-- The unit of an operation (R105). -/
def LouOp.unit : LouOp → LouUnit
  | .lmul | .lmulu | .lmul64 | .lmulh64 => .mul
  | .ldiv | .ldivu => .div
  | .fdiv | .fsqrt => .fds
  | .exp2 | .log2 | .sin2pi | .tanh | .rsqrt => .trn
  | .bcdadd | .bcdsub | .lbar => .bcd

/-- The operation is an integer divide (R112). -/
def LouOp.isDivide : LouOp → Bool
  | .ldiv | .ldivu => true
  | _ => false

/-- The smallest m in 1 to `max` for which `p m` holds (R109). -/
def smallestStep (max : Nat) (p : Nat → Bool) : Nat :=
  ((List.range (max - 1)).map (· + 1)).find? p |>.getD max

/-- bl(v): the number of bits up to and including the highest 1 (R109). -/
def bitLen (v : Nat) : Nat := if v = 0 then 0 else Nat.log2 v + 1

/-- The step count of a multiply of B (R109). -/
def mulSteps (o : LouOp) (b : W64) : Nat :=
  match o with
  | .lmulu => smallestStep 4 fun m => decide (b.toNat % 2 ^ 32 < 2 ^ (8 * m))
  | .lmul =>
    let v := signed 32 (b.toNat % 2 ^ 32)
    smallestStep 4 fun m => decide (-(2 ^ (8 * m - 1)) ≤ v ∧ v < 2 ^ (8 * m - 1))
  | _ => smallestStep 8 fun m => decide (-(2 ^ (8 * m - 1)) ≤ b.toInt ∧ b.toInt < 2 ^ (8 * m - 1))

/-- The magnitude a divide works on (R109). -/
def divMag (o : LouOp) (v : W64) : Nat :=
  if o = .ldiv then (signed 32 (v.toNat % 2 ^ 32)).natAbs else v.toNat % 2 ^ 32

/-- A divide by zero, or LDIV of −2^31 by −1 (R109). -/
def divSpecial (o : LouOp) (a b : W64) : Bool :=
  b.toNat % 2 ^ 32 == 0 || (o == .ldiv && a.toNat % 2 ^ 32 == 2 ^ 31 && b.toNat % 2 ^ 32 == 2 ^ 32 - 1)

/-- The step count of a divide (R109). -/
def divSteps (o : LouOp) (a b : W64) : Nat :=
  let d : Int := (bitLen (divMag o a) : Int) - bitLen (divMag o b) + 1
  max 1 ((d + 1) / 2).toNat

/-- The latency L of an operation (R108, R118). -/
def louLatency (o : LouOp) (constTime pr : Bool) (a b : W64) : Nat :=
  match o with
  | .lmul | .lmulu => if constTime then 6 else 2 + mulSteps o b
  | .lmul64 | .lmulh64 => if constTime then 10 else 2 + mulSteps o b
  | .ldiv | .ldivu => if constTime then 19 else if divSpecial o a b then 4 else 3 + divSteps o a b
  | .fdiv => if pr then 20 else 12
  | .fsqrt => if pr then 22 else 12
  | .exp2 | .log2 | .sin2pi | .tanh => 8
  | .rsqrt => 6
  | .bcdadd | .bcdsub | .lbar => 3

/-- A long operation's result: Q, its sticky flags in FSW positions, and whether it is a divide by zero. -/
structure LouRes where
  /-- the Q register -/
  q : W64
  /-- sticky flags in FSW positions (R111) -/
  sticky : W32 := 0
  /-- integer divide by zero (R111) -/
  divZero : Bool := false
deriving DecidableEq, Repr

/-- LDIV and LDIVU (R117). -/
def divResult (o : LouOp) (a b : W32) : LouRes :=
  if b = 0 then
    let q : W32 := if o = .ldivu then 0xFFFFFFFF#32 else if a.toInt ≥ 0 then 0x7FFFFFFF#32 else 0x80000000#32
    { q := a ++ q, sticky := putBit 0 fswDZ true, divZero := true }
  else if o = .ldivu then { q := BitVec.ofNat 32 (a.toNat % b.toNat) ++ BitVec.ofNat 32 (a.toNat / b.toNat) }
  else if a = 0x80000000#32 ∧ b = 0xFFFFFFFF#32 then
    { q := 0#32 ++ 0x80000000#32, sticky := putBit 0 fswOV true }
  else { q := wrap 32 (a.toInt.tmod b.toInt) ++ wrap 32 (a.toInt.tdiv b.toInt) }

/-- The digits of a packed BCD word, digit 0 first (R119). -/
def bcdDigits (v : W32) : List Nat := (List.range 8).map fun i => fld v (4 * i) 4

/-- The number a list of digits spells, digit 0 first. -/
def bcdValue : List Nat → Nat
  | [] => 0
  | d :: ds => d + 10 * bcdValue ds

/-- The packed BCD form of a number, `n` digits. -/
def bcdPack : Nat → Nat → Nat
  | 0, _ => 0
  | n + 1, v => v % 10 + 16 * bcdPack n (v / 10)

/-- The mask of invalid digits (R119, R120). -/
def bcdInvalid (v : W32) : Nat :=
  (bcdDigits v).zipIdx.foldl (fun acc p => if p.1 > 9 then acc + 2 ^ p.2 else acc) 0

/-- BCDADD and BCDSUB (R119, R120). -/
def bcdResult (sub : Bool) (a b : W32) : W64 :=
  let ia := bcdInvalid a
  let ib := bcdInvalid b
  if ia = 0 ∧ ib = 0 then
    let x := bcdValue (bcdDigits a)
    let y := bcdValue (bcdDigits b)
    let r := if sub then (x + 10 ^ 8 - y) % 10 ^ 8 else (x + y) % 10 ^ 8
    let cy := if sub then decide (x < y) else decide (x + y ≥ 10 ^ 8)
    BitVec.ofNat 64 (bcdPack 8 r + cy.toNat * 2 ^ 32)
  else BitVec.ofNat 64 (2 ^ 33 + ia * 2 ^ 48 + ib * 2 ^ 56)

/-- The result of a floating-point long operation in Q (R110). -/
def louFp (r : FRes) : LouRes :=
  { q := BitVec.ofNat 64 r.bits, sticky := BitVec.ofNat 32 (r.fl <<< 11) }

/-- The result of a long operation (R116, R117, R119, R138 to R140). -/
def louResult (o : LouOp) (pr : Bool) (rm : Round) (ftz : Bool) (a b : W64) : LouRes :=
  let a32 := a.setWidth 32
  let b32 := b.setWidth 32
  match o with
  | .lmul => { q := wrap 64 (a32.toInt * b32.toInt) }
  | .lmulu => { q := BitVec.ofNat 64 (a32.toNat * b32.toNat) }
  | .lmul64 => { q := wrap 64 (a.toInt * b.toInt) }
  | .lmulh64 => { q := wrap 64 (a.toInt * b.toInt / 2 ^ 64) }
  | .ldiv | .ldivu => divResult o a32 b32
  | .fdiv => louFp (fDiv (prFmt pr) rm ftz a.toNat b.toNat)
  | .fsqrt => louFp (fSqrt (prFmt pr) rm ftz a.toNat)
  | .exp2 => louFp (fExp2 ftz a32.toNat)
  | .log2 => louFp (fLog2 ftz a32.toNat)
  | .sin2pi => louFp (fSin2pi ftz a32.toNat)
  | .tanh => louFp (fTanh ftz a32.toNat)
  | .rsqrt => louFp (fRsqrt ftz a32.toNat)
  | .bcdadd => { q := bcdResult false a32 b32 }
  | .bcdsub => { q := bcdResult true a32 b32 }
  | .lbar => { q := 0 }

end Sys2Proof.Machine
end

