-- ==== Sys2Proof/Machine/ReedState.lean ====
section
/-! DEFINITION. Sys2Proof/Machine/ReedState.lean: the state of one reed: its eight contexts, its pipeline, its LOU, its
store buffer and its RED page (R36, R39, R62, R169). -/

namespace Sys2Proof.Machine

/-- The hardware loop registers of both levels (R39, R154). -/
structure Loops where
  /-- LC0 -/
  lc0 : W32 := 0
  /-- LS0 -/
  ls0 : W16 := 0
  /-- LE0 -/
  le0 : W16 := 0
  /-- LC1 -/
  lc1 : W32 := 0
  /-- LS1 -/
  ls1 : W16 := 0
  /-- LE1 -/
  le1 : W16 := 0
  /-- level 1 was entered most recently (R154) -/
  recent1 : Bool := false
deriving DecidableEq, Repr

/-- The REP state: repetitions left, and whether preemption and overrun are held off (R156). -/
structure RepState where
  /-- repetitions left, the next one counted -/
  left : Nat
  /-- a REP, not a REPI -/
  holdsOff : Bool
deriving DecidableEq, Repr

/-- An exception frame: what the hardware stacks (R160). EPC and FSW are read back from the record (R163). -/
structure Frame where
  /-- the next PC as stacked -/
  pc : W16
  /-- FSW as stacked -/
  fsw : W32
  /-- P0 to P7 -/
  preds : BitVec 8
  /-- both loop levels -/
  loops : Loops
  /-- the REP state -/
  rep : Option RepState
  /-- the return-stack pointer -/
  rsp : Nat
  /-- the hidden count D -/
  depth : Nat
deriving DecidableEq, Repr

/-- What a result is written to. -/
inductive Dest where
  | a (n : Nat) | m (n : Nat) | s (n : Nat) | x (n : Nat) | y (n : Nat) | nr (n : Nat) | l (n : Nat) | b (n : Nat)
  | p (n : Nat) | f (n : Nat) | fsw | lc (n : Nat) | ls (n : Nat) | le (n : Nat) | pd (n : Nat) | cfg | flags
deriving DecidableEq, Repr

/-- A result issued but not yet due: an entry of the latency shadow (R57). -/
structure Pending where
  /-- the level of execution that issued it -/
  level : Nat
  /-- the bundle of that level at which it is written -/
  due : Nat
  /-- the bundle of that level that issued it -/
  issued : Nat
  /-- the slot that issued it (R41) -/
  slot : Nat
  /-- the register -/
  dest : Dest
  /-- the value -/
  value : Nat
  /-- the flags that become visible with it (R56) -/
  raised : Raised := {}
deriving DecidableEq, Repr

/-- A trap held in a context's LOU trap queue (R112). -/
structure HeldTrap where
  /-- the bundle that issued the operation -/
  fpc : W16
  /-- the operation code -/
  lop : Nat
  /-- QD -/
  qd : Nat
deriving DecidableEq, Repr

/-- The persistent registers of a context (R39, R40). X, Y, N, L and B hold 16 bits in Service personality. -/
structure Regs where
  /-- A0–A3 -/
  a : Tab W72 := []
  /-- X0–X3 -/
  x : Tab W32 := []
  /-- Y0–Y3 -/
  y : Tab W32 := []
  /-- N0–N3 -/
  nr : Tab W32 := []
  /-- L0–L3 -/
  l : Tab W32 := []
  /-- B0–B3 -/
  b : Tab W32 := []
  /-- M0–M3 -/
  m : Tab W64 := []
  /-- S0–S7 -/
  s : Tab W32 := []
  /-- P1–P7; bit 0 is not read (P0 reads 1) -/
  p : BitVec 8 := 0
  /-- F0–F31; Vn is F2n and F2n+1 -/
  f : Tab W64 := []
  /-- FSW -/
  fsw : W32 := 0
  /-- CTXCFG as in force -/
  cfg : W32 := 0
  /-- PD0–PD15 as live -/
  pd : Tab W128 := []
deriving DecidableEq, Repr

/-- The run state of a context (R39, R82, R112, R150). -/
structure Run where
  /-- PC: the first syllable of the next bundle -/
  pc : W16 := 0
  /-- the loop levels -/
  loops : Loops := {}
  /-- the REP state -/
  rep : Option RepState := none
  /-- the return-stack slots -/
  slots : Tab W16 := []
  /-- RSP -/
  rsp : Nat := 0
  /-- the hidden count D -/
  depth : Nat := 0
  /-- the top copy of the fetch stage is valid (R150) -/
  topValid : Bool := false
  /-- the frames in use, innermost first -/
  frames : List Frame := []
  /-- Q0–Q7 -/
  q : Tab W64 := []
  /-- the valid tags of Q0–Q7 -/
  qValid : BitVec 8 := 0
  /-- the issue number of the latest operation that targets each Q register (R110) -/
  qIssue : Tab Nat := []
  /-- the latency shadow -/
  shadow : List Pending := []
  /-- bundles executed at each level (R57) -/
  counts : Tab Nat := []
  /-- the WPD staging register (R82) -/
  staging : W128 := 0
  /-- held LOU traps, oldest first -/
  held : List HeldTrap := []
  /-- the personality check of R45 awaits the first bundle -/
  persCheck : Bool := false
deriving DecidableEq, Repr

/-- The RED-page registers of one context (R36, R62, R169). -/
structure CtxPage where
  /-- CTXn_CFG: the value that applies at the next start -/
  cfgNext : W32 := 0
  /-- CTXn_ENTRY -/
  entry : W16 := 0
  /-- descriptors pending for the next start (R53) -/
  pdNext : Tab (Option W128) := []
  /-- CTXn_XVEC as written -/
  xvec : W32 := 0
  /-- CTXn_XREC as written -/
  xrec : W32 := 0
  /-- CTXn_XVEC in force -/
  xvecLive : W32 := 0
  /-- CTXn_XREC in force -/
  xrecLive : W32 := 0
  /-- CTXn_DBG.STEP -/
  step : Bool := false
  /-- CTXn_ESC0 -/
  esc0 : W32 := 0
  /-- CTXn_ESC1 -/
  esc1 : W32 := 0
  /-- CTXn_ESC2 -/
  esc2 : W32 := 0
  /-- CTXn_ESC3 -/
  esc3 : W32 := 0
  /-- CTXn_BEATS.LAST -/
  beatsLast : Nat := 0
  /-- CTXn_WMARK.MAX -/
  wmark : Nat := 0
  /-- CTXn_SLACK.MIN -/
  slack : Nat := 0x3FFFFF
  /-- CTXn_OVR.HALTED -/
  halted : Bool := false
  /-- CTXn_OVR.SKIPPING -/
  skipping : Bool := false
  /-- CTXn_OVR.CAUSE -/
  ovrCause : Nat := 0
  /-- CTXn_OVR.COUNT -/
  ovrCount : Nat := 0
deriving DecidableEq, Repr

/-- Where a context stands in its tide (R24 to R30). -/
inductive Phase where
  /-- not started in this tide, or ended -/
  | idle
  /-- started and not ended: it runs, or it is preempted -/
  | started
  /-- stopped under SKIP_NEXT with its state intact -/
  | suspended
deriving DecidableEq, Repr

/-- The causes of an overrun (R28, R36). -/
inductive OvrCause where
  | budget | deadline | start
deriving DecidableEq, Repr

/-- A context's run under one tide-table entry. -/
structure Sched where
  /-- where it stands -/
  phase : Phase := .idle
  /-- the domain of the entry -/
  dom : Nat := 0
  /-- the entry's position -/
  pos : Nat := 0
  /-- the entry as it stood at the start -/
  entry : W64 := 0
  /-- the deadline tick -/
  deadline : Nat := 0
  /-- the domain's tide number -/
  tide : Nat := 0
  /-- beats used (R26) -/
  beats : Nat := 0
  /-- this run resumes an overrun one under SKIP_NEXT (R30) -/
  resumed : Bool := false
  /-- an overrun whose condition has arisen and that awaits the bundle boundary (R28) -/
  due : Option OvrCause := none
  /-- CTX_RESTART was written for a halted context (R30) -/
  restart : Bool := false
  /-- it stops at the next bundle boundary, its run state discarded (R10, R344, R369) -/
  stop : Bool := false
deriving DecidableEq, Repr

/-- One context of a reed. -/
structure Ctx where
  /-- persistent registers -/
  regs : Regs := {}
  /-- run state -/
  run : Run := {}
  /-- RED-page registers -/
  page : CtxPage := {}
  /-- scheduling -/
  sched : Sched := {}
  /-- a Parzal image is loaded (R22) -/
  image : Bool := false
deriving DecidableEq, Repr

/-- The loop buffer (R55). -/
structure LoopBuf where
  /-- capturing or holding the body of a loop -/
  active : Bool := false
  /-- the level held -/
  level1 : Bool := false
  /-- the first iteration is complete, and fetches come from the buffer -/
  full : Bool := false
  /-- captured syllables by address -/
  words : Tab W32 := []
  /-- bundles captured -/
  bundles : Nat := 0
deriving DecidableEq, Repr

/-- A word of a posted far store: its 48-bit word address, its value, and which of its bytes are written (R61). -/
structure StoreWord where
  /-- word address -/
  addr : Nat
  /-- value -/
  value : W16
  /-- the low byte is written -/
  lo : Bool := true
  /-- the high byte is written -/
  hi : Bool := true
deriving DecidableEq, Repr

/-- A posted far store (R61). -/
structure FarStore where
  /-- the words it writes, lowest address first -/
  words : List StoreWord
  /-- the target space of its parcel (R50) -/
  tgt : Nat
  /-- the read charge of its region when it was issued (R59) -/
  charge : Nat
  /-- the low 8 bits of each domain's tide number when it was issued: its tide tags (R175) -/
  tags : List Nat
  /-- the tick at which it reached the buffer's head -/
  since : Nat
deriving DecidableEq, Repr

/-- Why a complete bundle in the latch has not issued, or waits inside its atomic bundle. -/
inductive Wait where
  /-- it awaits a Q register, a station, a trap-queue entry, the LOU's drain or a token: it has not issued (R56) -/
  | held
  /-- it awaits the data of a far read, from the tick named (R60) -/
  | farRead (since : Nat)
  /-- it awaits a place in the store buffer, charged as named (R61) -/
  | storeFull (charge : Nat)
  /-- its BUDGET is used up: an overrun is due before it issues (R28) -/
  | budget
deriving DecidableEq, Repr

/-- One reservation station in use (R105). -/
structure Station where
  /-- the issuing context -/
  ctx : Nat
  /-- the operation -/
  op : LouOp
  /-- PR -/
  pr : Bool
  /-- FSW.RM at issue -/
  rm : Round
  /-- FSW.FTZ at issue -/
  ftz : Bool
  /-- CTXCFG.CONSTTIME at issue -/
  constTime : Bool
  /-- operand A -/
  a : W64
  /-- operand B -/
  b : W64
  /-- QD -/
  qd : Nat
  /-- the issuing bundle -/
  fpc : W16
  /-- FSW.DZE at issue: a divide has an entry of the trap queue reserved (R112) -/
  dze : Bool
  /-- issue number -/
  seq : Nat
  /-- the reed's beat clock at the end of the issuing bundle (R107) -/
  issued : Nat
deriving DecidableEq, Repr

/-- A domain's tide on one reed: which entries have ended or been passed over (R24). -/
structure Progress where
  /-- entries ended, passed over or overrun in this tide -/
  ended : BitVec 8 := 0
deriving DecidableEq, Repr

/-- The reed-wide registers of the RED page (R36, R62, R169). -/
structure RedPage where
  /-- TT_CTRL.SWAP -/
  swap : BitVec 8 := 0
  /-- TT_CTRL.RUN -/
  runOn : Bool := false
  /-- TT_STAT.ERRCODE -/
  errCode : Nat := 0
  /-- TT_STAT.ERRDOM -/
  errDom : Nat := 0
  /-- TT_STAT.SWAPERR -/
  swapErr : Bool := false
  /-- TT_STAT.BANK: the active bank of each domain -/
  bank : BitVec 8 := 0
  /-- TT_ADDR -/
  ttAddr : W32 := 0
  /-- TT_DATA_LO as written and not yet committed -/
  ttLo : W32 := 0
  /-- the tide table, entry 16·domain + 8·bank + position (R21) -/
  table : Tab W64 := []
  /-- TK_STAT.TK -/
  tk : BitVec 16 := 0
  /-- TK_STAT.DBL -/
  dbl : BitVec 16 := 0
  /-- PACE.MIN -/
  paceMin : Nat := 0xFFFF
  /-- PACE.NOW -/
  paceNow : Nat := 0
  /-- PD_SEL -/
  pdSel : W32 := 0
  /-- PD_DATA0 to 2 as written and not yet committed -/
  pdData : Tab W32 := []
  /-- FAR_TMO -/
  farTmo : W32 := 0x00400040#32
  /-- FAR_STAT.WERR -/
  werr : Bool := false
  /-- FAR_STAT.LATE -/
  late : Nat := 0
  /-- PERF_FETCH_DISCARD -/
  discard : W32 := 0
deriving DecidableEq, Repr

/-- One physical reed. -/
structure Reed where
  /-- the contexts -/
  ctx : Tab Ctx := []
  /-- the syllables of the bundle being fetched, in address order -/
  latch : List W32 := []
  /-- why a complete bundle in the latch waits -/
  wait : Option Wait := none
  /-- the bundle prefetched before an IM store, by address (R157) -/
  prefetch : Option (W16 × List W32) := none
  /-- the loop buffer -/
  lbuf : LoopBuf := {}
  /-- the context that has the reed -/
  running : Option Nat := none
  /-- preempted contexts, the last preempted first -/
  preempted : List Nat := []
  /-- the far-store buffer, oldest first (R61) -/
  stores : List FarStore := []
  /-- far reads whose timeout won and whose data have not arrived (R60) -/
  lateReads : Nat := 0
  /-- the stations in use, in issue order (R105) -/
  stations : List Station := []
  /-- the next issue number -/
  louSeq : Nat := 0
  /-- the reed's beat clock -/
  clock : Nat := 0
  /-- the beat at which each unit is next free, by unit (R107) -/
  unitFree : Tab Nat := []
  /-- each domain's tide on this reed -/
  progress : Tab Progress := []
  /-- the reed-wide registers of the RED page -/
  page : RedPage := {}
  /-- the monitored pace in M beats/s, as the pace monitor shows it -/
  pace : Nat := 0
deriving DecidableEq, Repr

end Sys2Proof.Machine
end

