-- ==== Sys2Proof/Machine/SluiceState.lean ====
section
/-! DEFINITION. Sys2Proof/Machine/SluiceState.lean: the state of the Sluice engines: stream contexts, request slots, key
slots and the SLC pages (R195 to R223). -/

namespace Sys2Proof.Machine

/-- The states of a stream (R198). -/
inductive StreamSt where
  | idle | armed | running | paused
deriving DecidableEq, Repr

/-- SD_STAT.STATE of a stream state. -/
def StreamSt.code : StreamSt → Nat
  | .idle => 0 | .armed => 1 | .running => 2 | .paused => 3

/-- A 64-byte line that an engine has fetched for a stream, or the cause of the fault that its read met. -/
inductive LineData where
  | words (ws : List W16)
  | failed (cause : Nat)
deriving DecidableEq, Repr

/-- One stream context (R198, R199). -/
structure Stream where
  /-- D0 to D15 as committed -/
  desc : Tab W32 := []
  /-- its state -/
  st : StreamSt := .idle
  /-- SD_STAT.LAST -/
  last : Nat := 0
  /-- RING: the consumption accumulator A (R203) -/
  acc : Nat := 0
  /-- RING: the rate, 16.16 -/
  rate : Nat := 0
  /-- RING: rates that apply from a tide number, in the order taken (R201, R206) -/
  nextRates : List (Nat × Nat) := []
  /-- RING: c, the latest consumption position -/
  c : Nat := 0
  /-- the next sample to write -/
  next : Nat := 0
  /-- samples of a faulted unit still to be written as 0 (R209) -/
  zeros : Nat := 0
  /-- a flag awaits the window's residency in this tide (R204) -/
  awaiting : Bool := false
  /-- END has been posted -/
  ended : Bool := false
  /-- a STOP awaits its boundary: its command tag and its place in the queue -/
  stop : Option (Nat × Nat) := none
  /-- a RESUME awaits its boundary: its command tag and its place in the queue -/
  resume : Option (Nat × Nat) := none
  /-- SILT: a block number and the word offset at which it starts -/
  pos : Nat × Nat := (0, 0)
  /-- fetched lines by line address (word address ÷ 32) -/
  lines : Tab LineData := []
  /-- GATHER commands that wait or run, by command tag and place in the queue, oldest first -/
  gathers : List (Nat × Nat) := []
  /-- COPY: the place in the queue of the START that runs -/
  copy : Option Nat := none
  /-- GATHER: the element at work -/
  elem : Nat := 0
  /-- GATHER: the first fault of the run: element, cause and address -/
  fault : Option (Nat × Nat × Nat) := none
  /-- GATHER: faulted elements -/
  nfault : Nat := 0
deriving DecidableEq, Repr

/-- What answers a request (R210, R212). -/
inductive SourceKind where
  /-- HBM or a bed pool -/
  | device
  /-- host or fabric memory, and re-backed HBM pages (R211) -/
  | host
  /-- another sheet -/
  | atlas
deriving DecidableEq, Repr

/-- A request in a slot (R210). -/
structure SluiceReq where
  /-- the stream -/
  stream : Nat
  /-- the line, as word address ÷ 32 -/
  line : Nat
  /-- who answers -/
  kind : SourceKind
  /-- the tick of issue -/
  since : Nat
  /-- the stream was stopped meanwhile: its data are discarded (R201) -/
  dead : Bool := false
deriving DecidableEq, Repr

/-- A request whose timeout has won and whose data have not come (R212). -/
structure SluiceLate where
  /-- the slot it held -/
  rq : Nat
  /-- the stream -/
  stream : Nat
  /-- the tag its stream carried -/
  tag : Nat
  /-- who answers -/
  kind : SourceKind
deriving DecidableEq, Repr

/-- One engine with its SLC page (R195, R223). Page 32 is the floating spare's. -/
structure Engine where
  /-- the streams -/
  streams : Tab Stream := []
  /-- requests by slot -/
  slots : Tab (Option SluiceReq) := []
  /-- late requests, oldest first -/
  late : List SluiceLate := []
  /-- key slots: key and nonce base (R213) -/
  keys : Tab (Option (BitVec 256 × W64)) := []
  /-- ENG_STAT: an engine serves the bed -/
  serving : Bool := true
  /-- ENG_STAT.SPAREIN -/
  spareIn : Bool := false
  /-- ENG_STAT.BED of page 32 -/
  bed : Nat := 0
  /-- QUEUES -/
  queues : W32 := 0
  /-- TMO -/
  tmo : W32 := 0x00400040#32
  /-- SLOTCFG -/
  slotCfg : W32 := 512
  /-- SD_SEL -/
  sel : Nat := 0
  /-- SD_DATA0 to 14 as written and not yet committed -/
  data : Tab W32 := []
  /-- SD_STAT.CMTERR -/
  cmtErr : Nat := 0
  /-- CNT_A.UNDERRUN -/
  underrun : Nat := 0
  /-- CNT_A.LATE -/
  lateCnt : Nat := 0
  /-- CNT_B.AUTH -/
  auth : Nat := 0
  /-- CNT_B.DECODE -/
  decode : Nat := 0
  /-- LOAD.PEAK -/
  peak : Nat := 0
  /-- LOAD.NOW -/
  now : Nat := 0
  /-- commands taken from the queue so far -/
  seq : Nat := 0
  /-- commands, gathers and copies that have not completed, by place in the queue -/
  jobs : List Nat := []
  /-- FENCEs that wait: command tag and place in the queue -/
  fences : List (Nat × Nat) := []
deriving DecidableEq, Repr

end Sys2Proof.Machine
end

