-- ==== Sys2Proof/Machine/TrustState.lean ====
section
/-! DEFINITION. Sys2Proof/Machine/TrustState.lean: the state of start-up and trust (R335 to R354), of sparing and test
(R366 to R385), and of the Surveyors. -/

namespace Sys2Proof.Machine

/-- A key slot in OTP (R341). -/
structure KeySlot where
  /-- V -/
  v : Bool := false
  /-- REVOKED -/
  revoked : Bool := false
  /-- STAGES: bit 0 stage-1, bit 1 stage-2 -/
  stages : Nat := 0
  /-- the key hash -/
  hash : BitVec 512 := 0
deriving DecidableEq, Repr

/-- The OTP fields that the spec names (R337, R341, R342, R343, R354). -/
structure Otp where
  /-- the 8 key slots -/
  slots : Tab KeySlot := []
  /-- SVN floor of stage-1 -/
  floor1 : Nat := 0
  /-- SVN floor of stage-2 -/
  floor2 : Nat := 0
  /-- BOOTSRC -/
  bootSrc : Nat := 0
  /-- the boot-attempt threshold -/
  threshold : Nat := 3
  /-- CUSTLOCK -/
  custLock : Bool := false
  /-- DBGPOL -/
  dbgPol : Nat := 0
  /-- the 16 bytes of the device identifier -/
  devId : List Byte := []
deriving DecidableEq, Repr

/-- A host push in progress (R338). -/
inductive PushSt where
  /-- no push is open -/
  | idle
  /-- image bytes are awaited -/
  | filling
  /-- the image is being verified -/
  | verifying
deriving DecidableEq, Repr

/-- What the SEC page and start-up hold (R335 to R354). -/
structure Sec where
  /-- the boot-attempt counter, on the always-on supply -/
  count : Nat := 0
  /-- BOOT_CFG.FORCEHOST, on the always-on supply -/
  forceHost : Bool := false
  /-- OTP -/
  otp : Otp := {}
  /-- OTP_STAT.OK -/
  otpOk : Bool := false
  /-- BOOT_STAT.LASTFAIL -/
  lastFail : Nat := 0
  /-- the stage that awaits a host push; 0 none (BOOT_STAT.WAITPUSH) -/
  waitPush : Nat := 0
  /-- BOOT_STAT.S1SRC -/
  s1Src : Nat := 0
  /-- BOOT_STAT.S2SRC -/
  s2Src : Nat := 0
  /-- BOOT_STAT.STEP: the last step of R336 begun -/
  step : Nat := 0
  /-- the tick at which the present start began -/
  since : Nat := 0
  /-- a start is in progress -/
  starting : Bool := true
  /-- QSPI copies of the stage sought that have been tried, and whether one was present (R337) -/
  tried : Nat × Bool := (0, false)
  /-- stage-2 firmware runs -/
  fw : Bool := false
  /-- the last stage verified in the present start -/
  verified : Nat := 0
  /-- GLB.BOOT_ACK has been written in the present start (R341) -/
  bootAck : Bool := false
  /-- PUSH_CTRL.KIND -/
  kind : Nat := 0
  /-- PUSH_CTRL.LEN -/
  len : Nat := 0
  /-- PUSH_CTRL.DONE -/
  done : Bool := false
  /-- PUSH_CTRL.ERR -/
  err : Bool := false
  /-- where the push stands -/
  push : PushSt := .idle
  /-- the push buffer -/
  buffer : List Byte := []
  /-- SVN1.RUN -/
  svn1 : Nat := 0
  /-- SVN2.RUN -/
  svn2 : Nat := 0
  /-- the library key-encryption key (R350) -/
  lkek : Option (BitVec 256) := none
  /-- its generation number -/
  lkekGen : Nat := 0
  /-- DBG.OPEN -/
  dbgOpen : Bool := false
  /-- measurements 1 to 5 (R349) -/
  meas : Tab (BitVec 512) := []
  /-- TST.CTRL bit 0, which lets EXTEST drive pins (R381) -/
  extest : Bool := false
deriving DecidableEq, Repr

/-- A Parzal image as firmware keeps it for a context (R40, R352, R375). -/
structure Image where
  /-- the CTXCFG value -/
  cfg : W32
  /-- the entry address -/
  entry : W16
  /-- the parcel descriptors PD0 to PD15 -/
  parcels : List W128
  /-- the first IM syllable it loads -/
  imOff : Nat
  /-- the syllables -/
  im : List W32
deriving DecidableEq, Repr

/-- A migration or the wait for one (R369 to R372). -/
structure Retirement where
  /-- the logical reed -/
  lreed : Nat
  /-- urgent -/
  urgent : Bool := false
  /-- it goes past a failed check of R370 -/
  force : Bool := false
  /-- it has been abandoned once (R372) -/
  again : Bool := false
  /-- the tick from which it may be tried again -/
  notBefore : Nat := 0
deriving DecidableEq, Repr

/-- The phase of the migration in progress (R371, R384). -/
inductive MigPhase where
  | idle | copy | shadow | hostWait
deriving DecidableEq, Repr

/-- Sparing: the SPR page and what the Surveyor holds behind it (R366 to R378, R384). -/
structure Spr where
  /-- physical reeds that have failed or been retired -/
  failed : List Nat := []
  /-- INV.RETIRED -/
  retired : Nat := 0
  /-- WEAR, as it reads -/
  wear : W32 := 0x62741040#32
  /-- MIG_CTRL.LREED -/
  migSel : Nat := 0
  /-- the phase of the migration in progress -/
  phase : MigPhase := .idle
  /-- the retirement in progress or waiting for the host -/
  now : Retirement := { lreed := 0 }
  /-- the chosen spare -/
  spare : Nat := 0
  /-- the worn reed -/
  worn : Nat := 0
  /-- tides of the slowest domain since the copy ended -/
  tides : Nat := 0
  /-- retirements that wait, in order, urgent ones first -/
  queue : List Retirement := []
  /-- abandoned planned retirements that wait for their retry -/
  retries : List Retirement := []
  /-- LR_SEL -/
  lrSel : Nat := 0
  /-- LR_MAP.XCOST by logical reed -/
  xcost : Tab Nat := []
  /-- logical reeds stopped under R369 -/
  stopped : List Nat := []
  /-- logical reeds that await the reload of a hard failover, with the RUN bit they had (R375) -/
  reload : Tab Bool := []
  /-- the images loaded, by 8 × logical reed + context -/
  images : Tab Image := []
  /-- consecutive PCEIL estimates below the threshold, by physical reed (R368) -/
  pceilLow : Tab Nat := []
  /-- consecutive corrected-error windows at or above the threshold, by physical reed (R368) -/
  ceHigh : Tab Nat := []
  /-- the physical Surveyor of each logical number 0 to 5 (R376) -/
  survMap : Tab Nat := []
  /-- physical Surveyors that do not work -/
  survFailed : List Nat := []
  /-- engine 32 serves no bed and works (R377) -/
  engineIdle : Bool := true
deriving DecidableEq, Repr

/-- The TST page (R380, R385). -/
structure Tst where
  /-- PSEL.PROC -/
  proc : Nat := 0
  /-- PSEL.TARGET -/
  target : Nat := 0
  /-- the procedure that runs, with its target -/
  running : Option (Nat × Nat) := none
  /-- PSTAT.DONE -/
  done : Bool := false
  /-- PSTAT.FAIL -/
  fail : Bool := false
  /-- PSTAT.REFUSED -/
  refused : Bool := false
  /-- PSTAT.FIRST -/
  first : Nat := 0
deriving DecidableEq, Repr

end Sys2Proof.Machine
end

