-- ==== Sys2Proof/Machine/State.lean ====
section
/-! DEFINITION. Sys2Proof/Machine/State.lean: the state of the whole block, the reasons it can stop, and the state after
reset. -/

namespace Sys2Proof.Machine

/-- The reasons a command faults. -/
inductive Fault where
  /-- Raised by an access outside the memory the spec gives the device: a CXL.mem or UIO access beyond 128 GiB (R186), a
  host memory window no range of R49 covers. Safe: the spec names no effect there. -/
  | noSuchAddress
deriving DecidableEq, Repr

/-- The reasons a command is refused. -/
inductive Refusal where
  /-- Raised by an arm of exec whose command has no meaning yet. Safe. -/
  | notModelled (mnemonic : String)
  /-- Raised where an operand names a reed, bed, page, port, link, engine or vector the device does not have (R170, R392).
  Safe: no such command exists. -/
  | noSuchUnit
  /-- Raised by a syllable row whose word does not spell the row's operation (R64). Safe: no such command exists. -/
  | illFormed
deriving DecidableEq, Repr

/-- What the device sends outside: the model's own record of it, newest last. -/
inductive Out where
  /-- the data a register read returns -/
  | readData (v : W32)
  /-- the data of a CXL.mem or UIO read, and whether they are poisoned -/
  | memData (bytes : List Byte) (poison : Bool)
  /-- a back-invalidate snoop of a 64-byte HBM line (R187) -/
  | bisnp (line : Nat)
  /-- a write of host or fabric memory: bytes by host physical address, as unordered I/O or by CXL.cache (R292, R293) -/
  | hostWrite (uio : Bool) (bytes : List (Nat × Byte))
  /-- a read of host or fabric memory: the host physical address and the bytes (R292, R293) -/
  | hostRead (uio : Bool) (hpa bytes : Nat)
  /-- an MSI-X message: its address and its data (R274) -/
  | msix (vector : Nat) (address : W64) (data : W32)
  /-- a PME message (R302) -/
  | pme
  /-- the answer to a host snoop: a miss (R292) -/
  | snoopMiss (hpa : Nat)
  /-- an answer on a DOE instance: the request's type word and what answers it (R295) -/
  | doeAnswer (inst : Nat) (type answer : W32)
  /-- a Causeway flit of 64 bytes on a link (R312) -/
  | flit (link : Nat) (bytes : List Byte)
  /-- the value an output slot of an audio port puts on DOUT, SW bits (R233) -/
  | slotOut (port slot value : Nat)
  /-- a MIDI byte on TXD (R249) -/
  | midi (port : Nat) (byte : Byte)
  /-- a management message for this sheet's Surveyor firmware: the sending sheet and the bytes (R312, R352) -/
  | mgmt (sheet : Nat) (bytes : List Byte)
deriving DecidableEq, Repr

/-- The state of the ZLQ9144. -/
structure State where
  /-- the commands that wait, first in first out -/
  pending : List Instr
  /-- what the device has sent outside (log entry 5) -/
  out : List Out
  /-- the number of free values taken so far (log entry 11) -/
  fresh : Nat
  /-- every word memory on the device, by byte: twice the word address of R49 -/
  mem : List Host.Cell
  /-- ECC units that hold an uncorrectable error, by their first word: 0 none, 1 not yet found, 2 found (R48, R171,
  R183) -/
  bad : Tab Nat
  /-- page headers by BAR0 page number (R386) -/
  hdr : Tab PageHdr
  /-- the GLB page -/
  glb : Glb
  /-- the PWR page -/
  pwr : Pwr
  /-- the MER page and the domains -/
  mer : Mer
  /-- the Field Book -/
  fbk : Fbk
  /-- the physical reeds -/
  reeds : Tab Reed
  /-- the sparing map: the physical reed of each logical reed, where it is not the one of first binding; none is
  VACANT (R367) -/
  binding : Tab (Option Nat)
  /-- the beds -/
  beds : Tab Bed
  /-- HBM -/
  hbm : Hbm
  /-- the event sources -/
  srcs : Tab Source
  /-- the Queue Manager -/
  qmg : Qmg
  /-- the Event Router -/
  evr : Evr
  /-- the CXL host interface -/
  cxl : Cxl
  /-- the Causeway links -/
  links : Tab Link
  /-- the atlas -/
  atl : Atlas
  /-- the Sluice engines by SLC page -/
  slc : Tab Engine
  /-- the audio serial ports -/
  asp : Tab Asp
  /-- the sensor scan ports -/
  ssp : Tab Ssp
  /-- the timer/counter unit -/
  tcu : Tcu
  /-- start-up and trust -/
  sec : Sec
  /-- sparing -/
  spr : Spr
  /-- test -/
  tst : Tst
deriving DecidableEq, Repr

/-- The block right after power-good on a device whose always-on supply has just come up: in Start-up, every register at
its reset value, the boot-attempt counter at 1 and Field Book 0x0101 on its way (R335, R391, R394, R403). -/
def State.reset : State :=
  { pending := [], out := [], fresh := 0, mem := [], bad := [], hdr := [], glb := {}, pwr := { vdd := 1600, vidValid := true }, mer := {}
    fbk := { queue := [{ code := 0x0101, count := 0, payload := 1 }], buckets := [(0x0101, { held := 7, since := 0 })] }
    reeds := [], binding := [], beds := [], hbm := {}, srcs := []
    qmg := {}, evr := {}, cxl := {}, links := [], atl := {}, slc := [], asp := [], ssp := [], tcu := {}, spr := {}, tst := {}
    sec := { count := 1, step := 1 } }

end Sys2Proof.Machine
end

