-- ==== Sys2Proof/Machine/Ops.lean ====
section
/-! DEFINITION. Sys2Proof/Machine/Ops.lean: the named operations over the state that every block shares: memory, page
headers, error reports, Field Book requests, event sources, bindings and token flags. -/

namespace Sys2Proof.Machine

/-- An outcome of a command. -/
abbrev Out3 := Host.Outcome State Fault Refusal

/-! ### Memory bytes -/

/-- The byte at an address: the one listed, or 0 (R48, R171; log entry 4). -/
def memGet : List Host.Cell → Nat → Byte
  | [], _ => 0
  | (b, v) :: m, a => if b = a then v else memGet m a

/-- The memory with one byte written; a zero byte is not listed. -/
def memSet : List Host.Cell → Nat → Byte → List Host.Cell
  | [], a, v => if v = 0 then [] else [(a, v)]
  | (b, u) :: m, a, v =>
    if a < b then (if v = 0 then (b, u) :: m else (a, v) :: (b, u) :: m)
    else if a = b then (if v = 0 then m else (a, v) :: m)
    else (b, u) :: memSet m a v

/-- The canonical form of a memory: addresses rise strictly and no listed byte is 0. -/
def Memory.wf : List Host.Cell → Bool
  | [] => true
  | [(_, v)] => v != 0
  | (a, v) :: (b, u) :: m => v != 0 && decide (a < b) && Memory.wf ((b, u) :: m)

/-- The 16-bit word at a canonical word address, byte 0 its low half (R44). -/
def memWord (m : List Host.Cell) (w : Nat) : W16 := memGet m (2 * w + 1) ++ memGet m (2 * w)

/-- The memory with one word written. -/
def memSetWord (m : List Host.Cell) (w : Nat) (v : W16) : List Host.Cell :=
  memSet (memSet m (2 * w) (v.setWidth 8)) (2 * w + 1) ((v >>> 8).setWidth 8)

/-- The value of consecutive words, the lowest address in the low bits (R44). -/
def wordsValue : List W16 → Nat
  | [] => 0
  | w :: ws => w.toNat + 2 ^ 16 * wordsValue ws

/-- A value as `n` words, low bits first. -/
def valueWords : Nat → Nat → List W16
  | 0, _ => []
  | n + 1, v => BitVec.ofNat 16 v :: valueWords n (v / 2 ^ 16)

/-! ### Where words lie -/

/-- The first word of physical reed `p`'s memories: X-bank, Y-bank at +0x1_0000, IM at +0x2_0000. -/
def reedBase (p : Nat) : Nat := 0x1000000 + p * 0x40000
/-- The first word of bed `b`'s pool (R171). -/
def poolBase (b : Nat) : Nat := 0x10000000 + b * 0x200000
/-- The first word of HBM (R49). -/
def hbmBase : Nat := 0x1000000000
/-- The words of HBM. -/
def hbmWords : Nat := 0x1000000000

/-- The physical reed of logical reed L at first binding (R366, R367). -/
def firstBinding (l : Nat) : Nat := 17 * (l / 16) + l % 16

/-- The physical reed that carries logical reed L; none for a VACANT one (R367). -/
def physOf (s : State) (l : Nat) : Option Nat := Tab.get (some (firstBinding l)) s.binding l

/-- The logical reed that physical reed p carries (R62). -/
def logicalOf (s : State) (p : Nat) : Option Nat :=
  match s.binding.find? fun e => e.2 == some p with
  | some e => some e.1
  | none =>
    let l := 16 * (p / 17) + p % 17
    if p % 17 < 16 ∧ p < 544 ∧ physOf s l = some p then some l else none

/-- The bed whose pool a reed's alias reaches: that of its logical reed (R179), and that of its place where it carries
none. -/
def ownBed (s : State) (p : Nat) : Nat :=
  match logicalOf s p with
  | some l => l / 16
  | none => p / 17

/-- What a 48-bit word address names (R49). -/
inductive Place where
  /-- a word of a reed's bank, by its canonical word address -/
  | bank (w : Nat)
  /-- a word of a reed's IM -/
  | im (w : Nat)
  /-- a word of bed b's pool at offset o -/
  | pool (b o : Nat)
  /-- a word of Surveyor memory -/
  | surveyor (w : Nat)
  /-- a register page word: BAR0 byte offset -/
  | page (off : Nat)
  /-- an HBM word offset -/
  | hbm (a : Nat)
  /-- a word of host or fabric memory, by its offset in the HOST range -/
  | host (a : Nat)
  /-- a word of another sheet's HBM -/
  | atlas (sheet a : Nat)
  /-- reserved -/
  | reserved
deriving DecidableEq, Repr

/-- The place of a word offset within a reed's memories. -/
def reedPlace (p o : Nat) : Place :=
  if o < 0x20000 then .bank (reedBase p + o) else .im (reedBase p + o)

/-- The place of a word address as physical reed `p` names it; other agents pass a reed they do not use (R49). -/
def placeOf (s : State) (p a : Nat) : Place :=
  if a < 0x40000 then reedPlace p a
  else if 0x800000 ≤ a ∧ a < 0xA00000 then .pool (ownBed s p) (a - 0x800000)
  else if 0x1000000 ≤ a ∧ a < 0x1000000 + 512 * 0x40000 then
    let l := (a - 0x1000000) / 0x40000
    match physOf s l with
    | some q => reedPlace q ((a - 0x1000000) % 0x40000)
    | none => .reserved
  else if 0x10000000 ≤ a ∧ a < 0x14000000 then .pool ((a - 0x10000000) / 0x200000) ((a - 0x10000000) % 0x200000)
  else if 0x20000000 ≤ a ∧ a < 0x21000000 then .surveyor a
  else if 0x40000000 ≤ a ∧ a < 0x42000000 then .page (2 * (a - 0x40000000))
  else if hbmBase ≤ a ∧ a < hbmBase + hbmWords then .hbm (a - hbmBase)
  else if 0x20000000000 ≤ a ∧ a < 0x40000000000 then .host (a - 0x20000000000)
  else if 0x80000000000 ≤ a ∧ a < 0xC0000000000 then
    let sh := (a - 0x80000000000) / 0x1000000000
    if sh = s.glb.sheet then .hbm ((a - 0x80000000000) % 0x1000000000)
    else .atlas sh ((a - 0x80000000000) % 0x1000000000)
  else .reserved

/-- The canonical word of a place that the device's own memory holds. -/
def Place.word : Place → Option Nat
  | .bank w => some w
  | .im w => some w
  | .pool b o => some (poolBase b + o)
  | .surveyor w => some w
  | .hbm a => some (hbmBase + a)
  | _ => none

/-- The ECC unit of a place: its first canonical word and its length in words (R48, R171, R183). -/
def Place.unit : Place → Option (Nat × Nat)
  | .bank w => some (w, 1)
  | .im w => some (w - w % 2, 2)
  | .pool b o => some (poolBase b + (o - o % 4), 4)
  | .surveyor w => some (w, 1)
  | .hbm a => some (hbmBase + (a - a % 16), 16)
  | _ => none

/-- The place holds an uncorrectable error. -/
def placeBad (s : State) (pl : Place) : Bool :=
  match pl.unit with
  | some (u, _) => Tab.get 0 s.bad u != 0
  | none => false

/-! ### Time -/

/-- The tide counter's value (R6). -/
def now (s : State) : Nat := s.mer.ticks

/-! ### Events, headers and reports -/

/-- A source fires: COUNT increments and saturates at 255 (R276). The 0x0C04 record of a saturation is the second
part. -/
def fireCount (src : Source) : Source × Bool :=
  if src.count ≥ 255 then (src, false)
  else ({ src with count := src.count + 1, sat := src.sat || decide (src.count = 254) }, decide (src.count = 254))

/-- The codes that accumulate and are not rate-limited (R361). -/
def fbAccumulates (code : Nat) : Bool :=
  code / 256 == 0x03 || code / 256 == 0x0D ||
  [0x0201, 0x0202, 0x0203, 0x0205, 0x0210, 0x0230, 0x0810, 0x0811, 0x0816, 0x0817].contains code

/-- The bucket of a code (R360). -/
def bucketOf (f : Fbk) (code : Nat) : Bucket := 
  Tab.get { held := f.base, since := f.baseSince, len := f.baseLen } f.buckets code

/-- A request meets the input queue of 64 entries: it waits there, or it is lost and counted (R356). -/
def fbEnqueue (f : Fbk) (q : FbRequest) : Fbk × Bool :=
  if f.queue.length < 64 then ({ f with queue := f.queue ++ [q] }, true)
  else ({ f with dropped := satInc 0xFFFF f.dropped }, false)

/-- An occurrence of a code: past its token bucket to the input queue (R356, R360, R361). Once DEAD is set every request
counts in LOST.DROPPED (R362). -/
def fbOccur (f : Fbk) (tick code : Nat) (payload : W64) : Fbk :=
  if f.dead then { f with dropped := satInc 0xFFFF f.dropped }
  else if fbAccumulates code then (fbEnqueue f { code := code, count := 1, payload := payload }).1
  else
    let b := bucketOf f code
    if b.held = 0 then
      { f with buckets := Tab.set f.buckets code { b with suppressed := satInc 0xFFFF b.suppressed, last := payload } }
    else
      let b1 := if b.held ≥ f.burst then { b with held := b.held - 1, since := tick, len := 1024 * max f.refill 1 }
        else { b with held := b.held - 1 }
      let (f1, ok) := fbEnqueue f { code := code, count := b.suppressed, payload := payload }
      let b2 := if ok then { b1 with suppressed := 0 }
        else { b1 with suppressed := satInc 0xFFFF b1.suppressed, last := payload }
      { f1 with buckets := Tab.set f1.buckets code b2 }

/-- Raise a Field Book occurrence (R356). -/
def fbRaise (code : Nat) (payload : W64) (s : State) : State :=
  { s with fbk := fbOccur s.fbk (now s) code payload }

/-- A payload with the source instance in [63:48] and a value in [47:0] (R355). -/
def payload (inst v : Nat) : W64 := BitVec.ofNat 64 (inst % 2 ^ 16 * 2 ^ 48 + v % 2 ^ 48)

/-- Something is sent outside (log entry 5). -/
def send (o : Out) (s : State) : State := { s with out := s.out ++ [o] }

/-! ### The host's reach (R274, R292, R298 to R302) -/

/-- The link carries traffic or can be brought to (R299). -/
def Cxl.linkUp (c : Cxl) : Bool := c.link == .l0 || c.link == .l0p || c.link == .l1

/-- The host can be reached (R299). -/
def hostReachable (s : State) : Bool := s.cxl.linkUp && s.cxl.dstate == .d0 && s.cxl.cacheEn

/-- The link leaves L1 for a message or request to send (R301). -/
def Cxl.wakeLink (c : Cxl) : Cxl := if c.link = .l1 then { c with link := .l0 } else c

/-- A value put into a rising list without repeats. -/
def insertNat (n : Nat) : List Nat → List Nat
  | [] => [n]
  | m :: ms => if n < m then n :: m :: ms else if n = m then m :: ms else m :: insertNat n ms

/-- A vector's message may be sent now (R274, R298, R299). -/
def msixOpen (s : State) (v : Nat) : Bool :=
  hostReachable s && s.cxl.msixEn && s.cxl.bme && !s.cxl.funcMask && s.cxl.unmasked.contains v

/-- The address of a vector's message, from its table words (R298). -/
def Cxl.vectorAddr (c : Cxl) (v : Nat) : W64 := Tab.get 0 c.table (4 * v + 1) ++ Tab.get 0 c.table (4 * v)

/-- A vector's pending bit is set (R274). -/
def pendVector (v : Nat) (s : State) : State := { s with cxl := { s.cxl with pendingVec := insertNat v s.cxl.pendingVec } }

/-- A vector's message is issued: it is sent, or its pending bit is set (R273, R274, R298, R299). -/
def issueMsix (v : Nat) (s : State) : State :=
  if msixOpen s v then
    send (.msix v (s.cxl.vectorAddr v) (Tab.get 0 s.cxl.table (4 * v + 2))) { s with cxl := s.cxl.wakeLink }
  else pendVector v s

/-- PME is sent with the link brought to L0 (R273, R302). -/
def sendPme (s : State) : State :=
  fbRaise 0x0705 0 (send .pme { s with cxl := { s.cxl.wakeLink with pmeStatus := true } })

/-- WAKE# is asserted and held until PERST# is deasserted (R302). -/
def assertWake (s : State) : State :=
  if s.cxl.wake then s else fbRaise 0x0705 1 { s with cxl := { s.cxl with wake := true } }

/-- The wake signal for a function out of D0: WAKE# once the link is in L2, PME before it (R302, R305). -/
def signalWake (s : State) : State :=
  if !s.cxl.pmeEn then s
  else if s.cxl.dstate = .d3cold ∨ s.cxl.link = .l2 then assertWake s
  else if s.cxl.dstate = .d3hot ∧ s.cxl.linkUp then sendPme s
  else s

/-- The Queue Manager's entry for a queue. -/
def queueOf (s : State) (q : Nat) : Queue := Tab.get {} s.qmg.queues q
/-- V of a queue (R266). -/
def Queue.v (q : Queue) : Bool := bitOf q.q0 31
/-- MSIV of a queue. -/
def Queue.msiv (q : Queue) : Nat := fld q.q3 21 11

/-- In Dormant, a source with MASK = 0 and TGT bit 7 = 1 fires: the host is signalled (R302). -/
def dormantWake (src : Source) (s : State) : State :=
  if s.glb.state = .dormant ∧ !bitOf src.cfg 31 ∧ bitOf src.cfg 23 then
    if s.cxl.dstate = .d0 ∧ s.cxl.link = .l1 then issueMsix (queueOf s (fld src.cfg 0 14)).msiv s else signalWake s
  else s

/-- An event source fires (R276); in Dormant it may wake the host (R302). -/
def fireSource (n : Nat) (s : State) : State :=
  let r := fireCount (Tab.get {} s.srcs n)
  let s1 := dormantWake r.1 { s with srcs := Tab.set s.srcs n r.1 }
  if r.2 then fbRaise 0x0C04 (BitVec.ofNat 64 (n * 2 ^ 32)) s1 else s1

/-- The source of a page, by BAR0 page number, where the page fires one (R275, R387). -/
def pageSource (pg : Nat) : Option Nat :=
  if 1 ≤ pg ∧ pg ≤ 7 then some (pg - 1)
  else if pg = 0x10 then some 8
  else if pg = 0x20 then some 9
  else if 0x30 ≤ pg ∧ pg < 0x38 then some (0x600 + 16 * (pg - 0x30))
  else if 0x100 ≤ pg ∧ pg < 0x160 then some (0x400 + (pg - 0x100))
  else if 0x180 ≤ pg ∧ pg < 0x1A0 then some (0x480 + (pg - 0x180))
  else if 0x1C0 ≤ pg ∧ pg < 0x1D0 then some (0x4C0 + (pg - 0x1C0))
  else if pg = 0x1D0 then some 7
  else if 0x200 ≤ pg ∧ pg < 0x240 then some (0x500 + (pg - 0x200))
  else if 0x300 ≤ pg ∧ pg < 0x321 then some (0x580 + (pg - 0x300))
  else if 0x400 ≤ pg ∧ pg < 0x420 then some (0x5C0 + (pg - 0x400))
  else if 0x1000 ≤ pg ∧ pg < 0x1220 then some (0x100 + (pg - 0x1000))
  else none

/-- The header of a page. -/
def hdrOf (s : State) (pg : Nat) : PageHdr := Tab.get {} s.hdr pg

/-- The source that bit `b` of a page's IRQ_STAT fires: on a TCU page that of the bit's channel (R260, R275). -/
def bitSource (pg b : Nat) : Option Nat :=
  match pageSource pg with
  | some n => some (if 0x30 ≤ pg ∧ pg < 0x38 then n + b % 16 else n)
  | none => none

/-- A page's header changes: its source fires at each bit of IRQ_STAT and IRQ_EN that goes from 0 to 1 (R275, R388). -/
def setHdr (pg : Nat) (h : PageHdr) (s : State) : State :=
  let old := hdrOf s pg
  let rises := (h.irqStat &&& h.irqEn) &&& ~~~(old.irqStat &&& old.irqEn)
  (setBits 32 rises.toNat).foldl (fun t b => match bitSource pg b with
    | some n => fireSource n t
    | none => t) { s with hdr := Tab.set s.hdr pg h }

/-- Bits of IRQ_STAT are set (R388). -/
def irqSet (pg : Nat) (mask : W32) (s : State) : State :=
  let h := hdrOf s pg
  setHdr pg { h with irqStat := h.irqStat ||| mask } s

/-- A block error is captured in ERR_INFO and ERR_ADDR: the first since V was cleared, later ones set OVF (R388, R421). -/
def pageError (pg code addr : Nat) (s : State) : State :=
  let h := hdrOf s pg
  let h1 := if bitOf h.errInfo 31 then { h with errInfo := putBit h.errInfo 30 true }
    else { h with errInfo := BitVec.ofNat 32 (2 ^ 31 + field h.errInfo.toNat 30 1 * 2 ^ 30 + code), errAddr := addr }
  { s with hdr := Tab.set s.hdr pg h1 }

/-- Who made a refused access (R394, GLB.ERR.AGENT). -/
inductive Agent where
  | host | surveyor | reed | device
deriving DecidableEq, Repr

/-- GLB.ERR.AGENT of an agent. -/
def Agent.code : Agent → Nat
  | .host => 0 | .surveyor => 1 | .reed => 2 | .device => 3

/-- GLB.ERR records a refused access (R393): the first since V was cleared, OVF for later ones; every one counts and sets
GLB.IRQ_STAT.ERR. -/
def glbErr (cause : Nat) (ag : Agent) (index : Nat) (s : State) : State :=
  let g := s.glb
  let g1 := if g.errV then { g with errOvf := true }
    else { g with errV := true, errAgent := ag.code, errCause := cause, errIndex := index % 2 ^ 24 }
  irqSet 1 1 { s with glb := { g1 with errCnt := satInc 0xFFFF g.errCnt } }

/-- The agent that a register command names: 0 the host, 1 a Surveyor, 2 a reed context, 3 the device itself (R394). -/
def agentOf (ag : Nat) : Agent := match ag with
  | 0 => .host | 1 => .surveyor | 2 => .reed | _ => .device

/-- Only the GLB, FBK, SEC and TST pages respond to the host in Start-up, in Tussock and where CXL.io alone is offered
(R289). -/
def pageOpen (s : State) (ag pg : Nat) : Bool :=
  ag != 0 || [0, 1, 4, 5, 7].contains pg ||
    !(s.glb.state == .startup || s.glb.state == .tussock || s.cxl.ioOnly)

/-- A register write by an agent at a BAR0 byte offset: refused with cause 0x3 where its page does not respond (R289,
R393). In Off nothing responds (R5). -/
def atPage (ag off : Nat) (f : State → State) (s : State) : State :=
  if s.glb.state = .off then s
  else if pageOpen s ag (off / 4096) then f s
  else glbErr 3 (agentOf ag) (off / 4) s

/-- A register read by an agent at a BAR0 byte offset, with its side effect: a page that does not respond reads 0 (R289,
R387). -/
def readPage (ag off : Nat) (f : State → W32 × State) (s : State) : State :=
  if s.glb.state = .off then s
  else if pageOpen s ag (off / 4096) then send (.readData (f s).1) (f s).2
  else send (.readData 0) (glbErr 3 (agentOf ag) (off / 4) s)

/-- A refused register write (R393). -/
def refuseReg (cause ag off : Nat) (s : State) : State := glbErr cause (agentOf ag) (off / 4) s

/-- A free value is taken (log entry 11). -/
def takeFree (s : State) : W32 × State := (Config.freeValue s.fresh, { s with fresh := s.fresh + 1 })

/-! ### Reeds, beds and domains by number -/

/-- A physical reed. -/
def reedOf (s : State) (r : Nat) : Reed := Tab.get {} s.reeds r
/-- A physical reed changed. -/
def setReed (r : Nat) (x : Reed) (s : State) : State := { s with reeds := Tab.set s.reeds r x }
/-- A context of a reed. -/
def Reed.ctxOf (x : Reed) (c : Nat) : Ctx := Tab.get {} x.ctx c
/-- A context of a reed changed. -/
def Reed.setCtx (x : Reed) (c : Nat) (k : Ctx) : Reed := { x with ctx := Tab.set x.ctx c k }
/-- A bed. -/
def bedOf (s : State) (b : Nat) : Bed := Tab.get {} s.beds b
/-- A bed changed. -/
def setBed (b : Nat) (x : Bed) (s : State) : State := { s with beds := Tab.set s.beds b x }
/-- A domain. -/
def domOf (s : State) (d : Nat) : Domain := Tab.get {} s.mer.doms d
/-- A domain changed. -/
def setDom (d : Nat) (x : Domain) (s : State) : State :=
  { s with mer := { s.mer with doms := Tab.set s.mer.doms d x } }
/-- A pseudo-channel's page. -/
def hbmPageOf (s : State) (p : Nat) : HbmPage := Tab.get {} s.hbm.pages p
/-- A pseudo-channel's page changed. -/
def setHbmPage (p : Nat) (x : HbmPage) (s : State) : State :=
  { s with hbm := { s.hbm with pages := Tab.set s.hbm.pages p x } }

/-- The period of a domain in units of 1/65,536 tick (R16). -/
def Domain.period (d : Domain) : Nat := d.pint * 65536 + d.pfrac
/-- The tick at which tide k begins (R16). -/
def Domain.tideTick (d : Domain) (k : Nat) : Nat := d.first + k * d.period / 65536
/-- The tick of the next boundary. -/
def Domain.nextTick (d : Domain) : Nat := if d.begun then d.tideTick (d.tide + 1) else d.first

/-- A token flag of a physical reed is set; set while set, the DBL bit is set too (R23). -/
def setToken (r k : Nat) (s : State) : State :=
  let x := reedOf s r
  let pg := if bitOf x.page.tk k then { x.page with dbl := putBit x.page.dbl k true }
    else { x.page with tk := putBit x.page.tk k true }
  setReed r { x with page := pg } s

/-- A token flag of a logical reed is set; a VACANT reed has no flag to set (R23, R367). -/
def setTokenLogical (l k : Nat) (s : State) : State :=
  match physOf s l with
  | some r => setToken r k s
  | none => s

/-! ### Retirements (R368, R369) -/

/-- A retirement in its place: urgent ones go first. -/
def queueRetirement (q : Retirement) (l : List Retirement) : List Retirement :=
  if q.urgent then l.filter (·.urgent) ++ [q] ++ l.filter (fun r => !r.urgent) else l ++ [q]

/-- A migration of logical reed `l` is in progress. -/
def Spr.migrates (p : Spr) (l : Nat) : Bool := (p.phase == .copy || p.phase == .shadow) && p.now.lreed == l

/-- A logical reed is to be retired: it joins the retirements that wait, or what it waits for becomes urgent or forced. -/
def retireReed (l : Nat) (urgent force : Bool) (s : State) : State :=
  let p := s.spr
  if p.migrates l then { s with spr := { p with now := { p.now with urgent := p.now.urgent || urgent } } }
  else
    let old := p.queue.find? (·.lreed == l)
    let was : Retirement := old.getD { lreed := l }
    let q := { was with urgent := urgent || was.urgent, force := force || was.force }
    let rest := p.queue.filter (·.lreed != l)
    { s with spr := { p with queue := if old = some q then p.queue else queueRetirement q rest
                             retries := p.retries.filter (·.lreed != l)
                             phase := if p.phase = .hostWait ∧ p.now.lreed = l then .idle else p.phase } }

/-- A guard of a unit number: a command that names a unit the device does not have is refused. -/
def withUnit (ok : Bool) (s : State) : Out3 := if ok then .next s else .refused .noSuchUnit

end Sys2Proof.Machine
end

