-- ==== Sys2Proof/Machine/Mem.lean ====
section
/-! DEFINITION. Sys2Proof/Machine/Mem.lean: writes to the device's memories by any agent, with what the rules attach to
them: error codes (R48, R171, R183), page retirement (R189, R191), back-invalidate snoops (R187) and token slots (R174 to
R176). -/

namespace Sys2Proof.Machine

/-- The HBM page index, 0 to 63, of a word offset (R182). -/
def hbmPc (a : Nat) : Nat := (field a 7 6 ^^^ field a 13 6) ^^^ field a 19 6

/-- The lowest free reserve page (R189). -/
def freeReserve (h : Hbm) : Option Nat := (List.range h.rbSize).find? fun i => !h.reserve.contains i

/-- The back state of a 2 MiB page. -/
def backOf (s : State) (n : Nat) : PageBack := Tab.get .inHbm s.hbm.back n

/-- A 2 MiB page is retired: copying to a reserve page begins, or the page is lost (R189, R191). -/
def retirePage (n : Nat) (s : State) : State :=
  match backOf s n with
  | .inHbm =>
    match freeReserve s.hbm with
    | some i => { s with hbm := { s.hbm with back := Tab.set s.hbm.back n (.copying i), reserve := insertNat i s.hbm.reserve } }
    | none =>
      fbRaise 0x0622 (payload n 0) { s with hbm := { s.hbm with back := Tab.set s.hbm.back n .lost, exhausted := true } }
  | _ => s

/-- An access meets an uncorrectable error: counters, the page's ERR registers, the Field Book and page retirement (R171,
R183, R189, R191, R192, R421). -/
def noteUe (pl : Place) (s : State) : State :=
  let s := match pl.unit with
    | some (u, _) => { s with bad := Tab.set s.bad u 2 }
    | none => s
  match pl with
  | .pool b o =>
    let x := bedOf s b
    fbRaise 0x0611 (payload b o) (pageError (0x400 + b) 0x0611 (poolBase b + o)
      (setBed b { x with ue := satInc 0xFFFF x.ue } s))
  | .hbm a =>
    let p := hbmPc a
    let x := hbmPageOf s p
    let s1 := fbRaise 0x0620 (payload p a) (pageError (0x200 + p) 0x0620 (hbmBase + a)
      (setHbmPage p { x with ue := satInc 0xFFFFFFFF x.ue } s))
    match backOf s1 (a / 2 ^ 20) with
    | .lost => fireSource (0x500 + p) s1
    | _ => retirePage (a / 2 ^ 20) s1
  | .bank w | .im w =>
    match logicalOf s ((w - 0x1000000) / 0x40000) with
    | some l => retireReed l true false s
    | none => s
  | _ => s

/-- A word of a write: its place, and the word. -/
abbrev PlacedWord := Place × StoreWord

/-- The memory with the addressed bytes of one word written. -/
def putWord (m : List Host.Cell) (w : Nat) (x : StoreWord) : List Host.Cell :=
  let m1 := if x.lo then memSet m (2 * w) (x.value.setWidth 8) else m
  if x.hi then memSet m1 (2 * w + 1) ((x.value >>> 8).setWidth 8) else m1

/-- One word written at its place. -/
def putPlaced (m : List Host.Cell) (p : PlacedWord) : List Host.Cell :=
  match p.1.word with
  | some w => putWord m w p.2
  | none => m

/-- The write covers the whole ECC unit. -/
def coversUnit (ws : List PlacedWord) (u len : Nat) : Bool :=
  (List.range len).all fun i => ws.any fun p => p.1.word == some (u + i) && p.2.lo && p.2.hi

/-- What a write does to the code of the unit its word lies in: a whole unit gets a fresh code; a merge into a failed unit
leaves it failed, and counts the error where the merge is the first to find it (R171, R183). -/
def unitAfter (ws : List PlacedWord) (p : PlacedWord) (s : State) : State :=
  match p.1.unit with
  | some (u, len) =>
    let b := Tab.get 0 s.bad u
    if b = 0 then s
    else if coversUnit ws u len then { s with bad := Tab.set s.bad u 0 }
    else if b = 1 then noteUe p.1 s
    else s
  | none => s

/-- Words written to the device's memories at once, with their error codes. -/
def writePlaced (ws : List PlacedWord) (s : State) : State :=
  ws.foldl (fun t p => unitAfter ws p t) { s with mem := ws.foldl putPlaced s.mem }

/-- The 64-byte line of an HBM word offset. -/
def lineOf (a : Nat) : Nat := a / 32

/-- The HBM line of a place that the host may hold, or whose snoop is still open (R187). -/
def snoopLine (s : State) (pl : Place) : Option Nat :=
  match pl with
  | .hbm a =>
    if s.hbm.filter.contains (lineOf a) || s.hbm.snoops.any (·.line == lineOf a) then some (lineOf a) else none
  | _ => none

/-- A back-invalidate snoop is sent for a line: the filter drops it, and its pseudo-channel counts it (R187, R194). -/
def sendBisnp (line : Nat) (s : State) : State :=
  if s.hbm.filter.contains line then
    let p := hbmPc (32 * line)
    let x := hbmPageOf s p
    send (.bisnp line) (setHbmPage p { x with bisnp := satInc 0xFFFFFFFF x.bisnp }
      { s with hbm := { s.hbm with filter := s.hbm.filter.filter (· != line) } })
  else s

/-- The bytes of a word that is written, by canonical byte address. -/
def wordBytes (p : PlacedWord) : List (Nat × Byte) :=
  match p.1.word with
  | some w =>
    (if p.2.lo then [(2 * w, p.2.value.setWidth 8)] else []) ++
    (if p.2.hi then [(2 * w + 1, (p.2.value >>> 8).setWidth 8)] else [])
  | none => []

/-- A word written by a device agent: to a line that the host may hold, the write waits for the host's answer (R187). -/
def snoopOrKeep (acc : State × List PlacedWord) (p : PlacedWord) : State × List PlacedWord :=
  match snoopLine acc.1 p.1 with
  | some l =>
    let s1 := sendBisnp l acc.1
    ({ s1 with hbm := { s1.hbm with snoops := s1.hbm.snoops ++ [{ line := l, bytes := wordBytes p }] } }, acc.2)
  | none => (acc.1, acc.2 ++ [p])

/-- Words written by a reed, a Sluice engine, a Surveyor or a port (R47, R171, R183, R187). -/
def deviceWrite (ws : List PlacedWord) (s : State) : State :=
  let r := ws.foldl snoopOrKeep (s, [])
  writePlaced r.2 r.1

/-- The words of a store, each at its place as physical reed `r` names it. -/
def placed (s : State) (r : Nat) (ws : List StoreWord) : List PlacedWord := ws.map fun x => (placeOf s r x.addr, x)

/-! ### Token slots -/

/-- The first offset of the token area (R171). -/
def tokenArea : Nat := 0x1FC000

/-- The token slot of a pool offset. -/
def slotAt (o : Nat) : Option Nat := if tokenArea ≤ o ∧ o < 0x200000 then some ((o - tokenArea) / 16) else none

/-- A bed's token slot. -/
def tokenSlot (s : State) (b i : Nat) : TokenSlot := Tab.get {} (bedOf s b).slots i
/-- A bed's token slot changed. -/
def setTokenSlot (b i : Nat) (t : TokenSlot) (s : State) : State :=
  setBed b { bedOf s b with slots := Tab.set (bedOf s b).slots i t } s

/-- TS_CFG.EN. -/
def TokenSlot.en (t : TokenSlot) : Bool := bitOf t.cfg 31
/-- TS_CFG.DOM. -/
def TokenSlot.dom (t : TokenSlot) : Nat := fld t.cfg 28 3

/-- The pool and enabled slot of a place. -/
def enabledSlot (s : State) : Place → Option (Nat × Nat)
  | .pool b o =>
    match slotAt o with
    | some i => if (tokenSlot s b i).en then some (b, i) else none
    | none => none
  | _ => none

/-- The place is the gate word of an enabled slot that is EMPTY: a reed read of it waits (R176). -/
def gateEmpty (s : State) (pl : Place) : Bool :=
  match pl, enabledSlot s pl with
  | .pool _ o, some (b, i) => o % 16 == 0 && !(tokenSlot s b i).full
  | _, _ => false

/-- A reed store's tags: the low 8 bits of each domain's tide number (R175). -/
def tideTags (s : State) : List Nat := (List.range 8).map fun d => (domOf s d).tide % 256

/-- The tag check of R175 for a word of a reed store. -/
def tagOk (s : State) (tags : List Nat) (pl : Place) : Bool :=
  match enabledSlot s pl with
  | some (b, i) =>
    let d := (tokenSlot s b i).dom
    tags.getD d 0 == (domOf s d).tide % 256
  | none => true

/-- The payload of 0x0A20 and 0x0A21 (R192). -/
def slotPayload (s : State) (b i : Nat) : W64 :=
  payload b (i * 2 ^ 16 + (domOf s (tokenSlot s b i).dom).tide % 2 ^ 16)

/-- A store to an enabled slot is discarded as late (R175). -/
def slotLate (s : State) (p : Nat × Nat) : State :=
  let x := bedOf s p.1
  fbRaise 0x0A20 (slotPayload s p.1 p.2) (setBed p.1 { x with late := satInc 0xFFFF x.late } s)

/-- An accepted closing write: the slot is FULL, a second close is counted, and the bound flag is set (R175). -/
def closeSlot (tags : List Nat) (s : State) (p : Nat × Nat) : State :=
  let t := tokenSlot s p.1 p.2
  let t1 := { t with full := true, dbl := t.dbl || t.full, tag := tags.getD t.dom 0 }
  let s1 := setTokenSlot p.1 p.2 t1 s
  let s2 := if t.full then
      let x := bedOf s1 p.1
      fbRaise 0x0A21 (slotPayload s p.1 p.2) (setBed p.1 { x with dbl := satInc 0xFFFF x.dbl } s1)
    else s1
  if bitOf t.cfg 27 then setTokenLogical (fld t.cfg 18 9) (fld t.cfg 14 4) s2 else s2

/-- The slots of a list of places, each once. -/
def slotsOnce (s : State) (pls : List Place) : List (Nat × Nat) := (pls.filterMap (enabledSlot s)).eraseDups

/-- A reed store reaches its target: late words of the token area are discarded, the rest is written, and accepted gate
words close their slots (R173, R175). -/
def reedStore (r : Nat) (tags : List Nat) (ws : List StoreWord) (s : State) : State :=
  let pw := placed s r ws
  let late := pw.filter fun p => !tagOk s tags p.1
  let good := pw.filter fun p => tagOk s tags p.1
  let closes := slotsOnce s ((good.map (·.1)).filter fun pl => match pl with
    | .pool _ o => o % 16 == 0
    | _ => false)
  let s1 := (slotsOnce s (late.map (·.1))).foldl slotLate s
  closes.foldl (closeSlot tags) (deviceWrite good s1)

end Sys2Proof.Machine
end

