-- ==== Sys2Proof/Machine/Queue.lean ====
section
/-! DEFINITION. Sys2Proof/Machine/Queue.lean: the Queue Manager: the device's writes of host memory, rings and shadows,
doorbells, moderation and MSI-X (R265 to R274, R284, R292, R293, R298, R299). -/

namespace Sys2Proof.Machine

/-! ### Host memory as the device writes it (R292, R293) -/

/-- The size of the HOST window in bytes (R306). -/
def Cxl.windowBytes (c : Cxl) : Nat := min (fld c.hostSize 0 13) 4096 * 2 ^ 30

/-- A HOST word offset lies inside the window (R292). -/
def Cxl.inWindow (c : Cxl) (w : Nat) : Bool := decide (2 * w < c.windowBytes)

/-- The host physical address of a HOST word offset (R292). -/
def Cxl.hpa (c : Cxl) (w : Nat) : Nat := c.hostBase.toNat + 2 * w

/-- A HOST word offset lies in a peer window (R293). -/
def Cxl.inPeer (c : Cxl) (w : Nat) : Bool :=
  (List.range 8).any fun e =>
    let p := Tab.get 0 c.peers e
    bitOf p 31 && decide (fld p 0 12 * 2 ^ 30 ≤ 2 * w) && decide (2 * w < (fld p 0 12 + fld p 16 12) * 2 ^ 30)

/-- Host requests are served from the loop memory of depth 4 (R307). -/
def Cxl.looping (c : Cxl) : Bool := fld c.loop 0 3 == 4

/-- The bytes a word of a host write carries, by host physical address. -/
def hostBytes (c : Cxl) (x : Nat × StoreWord) : List (Nat × Byte) :=
  (if x.2.lo then [(c.hpa x.1, x.2.value.setWidth 8)] else []) ++
  (if x.2.hi then [(c.hpa x.1 + 1, (x.2.value >>> 8).setWidth 8)] else [])

/-- A write of host memory: words by HOST word offset, all inside the window, with the host reachable (R292, R293, R301,
R307). -/
def hostWrite (ws : List (Nat × StoreWord)) (s : State) : State :=
  let bytes := ws.flatMap (hostBytes s.cxl)
  if s.cxl.looping then
    { s with cxl := { s.cxl with loopMem := bytes.foldl (fun m b => Tab.set m (b.1 % 65536) b.2) s.cxl.loopMem } }
  else
    let uio := match ws with
      | x :: _ => s.cxl.inPeer x.1
      | [] => false
    send (.hostWrite uio bytes) { s with cxl := s.cxl.wakeLink }

/-- Words from a word address up. -/
def wordsAt : Nat → List W16 → List StoreWord
  | _, [] => []
  | a, w :: ws => { addr := a, value := w } :: wordsAt (a + 1) ws

/-- The words of 32-bit values, low half first (R44). -/
def halves (vs : List W32) : List W16 := vs.flatMap fun (v : W32) => [v.setWidth 16, (v >>> (16 : Nat)).setWidth 16]

/-! ### The queue table entry (R266) -/

/-- A queue changed. -/
def setQueue (q : Nat) (x : Queue) (s : State) : State := { s with qmg := { s.qmg with queues := Tab.set s.qmg.queues q x } }
/-- TYPE. -/
def Queue.typ (x : Queue) : Nat := fld x.q0 28 3
/-- The entry size in bytes. -/
def Queue.entryBytes (x : Queue) : Nat := 16 * 2 ^ fld x.q0 26 2
/-- N. -/
def Queue.n (x : Queue) : Nat := 2 ^ fld x.q0 21 5
/-- DIR. -/
def Queue.dir (x : Queue) : Bool := bitOf x.q0 20
/-- IEN. -/
def Queue.ien (x : Queue) : Bool := bitOf x.q0 19
/-- BASE. -/
def Queue.base (x : Queue) : Nat := fld x.q0 0 16 * 2 ^ 32 + x.q1.toNat
/-- SHADOW. -/
def Queue.shadow (x : Queue) : Nat := fld x.q4 0 16 * 2 ^ 32 + x.q5.toNat
/-- MODTIME. -/
def Queue.modTime (x : Queue) : Nat := fld x.q2 16 16
/-- MODCNT. -/
def Queue.modCnt (x : Queue) : Nat := fld x.q2 8 8
/-- The source 0x1000 + SRC. -/
def Queue.source (x : Queue) : Nat := 0x1000 + fld x.q3 9 12
/-- SEN. -/
def Queue.sen (x : Queue) : Bool := bitOf x.q3 8
/-- The host produces into the queue: its doorbell carries PI (R265). -/
def Queue.hostProduces (x : Queue) : Bool := x.typ == 0 || (x.typ == 3 && !x.dir)
/-- The entries in the ring (R266). -/
def Queue.used (x : Queue) : Nat := (x.pi - x.ci).toNat
/-- The ring has room (R270). -/
def Queue.room (x : Queue) : Bool := decide (x.used < x.n)
/-- The word address of entry i (R266). -/
def Queue.entryAt (x : Queue) (i : Nat) : Nat := x.base + i % x.n * (x.entryBytes / 2)
/-- The word offset within the HOST range of an address there (R49). -/
def hostOffset (a : Nat) : Option Nat := if 0x20000000000 ≤ a ∧ a < 0x40000000000 then some (a - 0x20000000000) else none
/-- A range of words lies wholly inside the HBM range or the HOST range (R49). -/
def inHbmOrHost (a len : Nat) : Bool :=
  decide (hbmBase ≤ a ∧ a + len ≤ hbmBase + hbmWords) || decide (0x20000000000 ≤ a ∧ a + len ≤ 0x40000000000)

/-! ### Records and shadows (R268, R270 to R273) -/

/-- A word address may be written by the Queue Manager now: in HBM always, in host memory while it is reached (R299). -/
def qmReach (s : State) (a : Nat) : Bool := (hostOffset a).isNone || hostReachable s

/-- The words of an access of the Queue Manager at a HOST address lie inside the window (R292). -/
def qmInside (s : State) (a len : Nat) : Bool :=
  match hostOffset a with
  | some w => s.cxl.inWindow (w + len - 1)
  | none => true

/-- The Queue Manager writes words in HBM or host memory (R268). -/
def qmWrite (a : Nat) (ws : List W16) (s : State) : State :=
  match hostOffset a with
  | some w => hostWrite ((wordsAt w ws).map fun x => (x.addr, x)) s
  | none => deviceWrite (placed s 0 (wordsAt a ws)) s

/-- The shadow of queue q is written with the device-side index, or falls due where the host is out of reach (R268,
R273). -/
def writeShadow (q : Nat) (s : State) : State :=
  let x := queueOf s q
  let v := if x.hostProduces then x.ci else x.pi
  if x.shadow = 0 then s
  else if !qmReach s x.shadow then setQueue q { x with shadowDue := true } s
  else if !qmInside s x.shadow 2 then s
  else qmWrite x.shadow (halves [v]) (setQueue q { x with shadowDue := false } s)

/-- A record is discarded (R270). -/
def dropRecord (q : Nat) (s : State) : State :=
  fbRaise 0x0C03 (BitVec.ofNat 64 (q * 2 ^ 32)) { s with qmg := { s.qmg with drop := satInc 0xFFFFFFFF s.qmg.drop } }

/-- A record joins a window, or starts one where the queue is armed (R272). -/
def Queue.noteRecord (t : Nat) (x : Queue) : Queue :=
  match x.window with
  | some w => { x with window := some { w with count := w.count + 1 } }
  | none => if x.armed && x.ien then { x with window := some { since := t, count := 1 } } else x

/-- A record is written into the ring, PI advances and the shadow follows; outside the HOST window it is discarded (R268,
R270, R292). -/
def putRecord (q : Nat) (count : Bool) (rec : List W32) (s : State) : State :=
  let x := queueOf s q
  let at' := x.entryAt x.pi.toNat
  if !qmInside s at' (x.entryBytes / 2) || (x.shadow != 0 && qmReach s x.shadow && !qmInside s x.shadow 2) then dropRecord q s
  else
    let x1 := { x with pi := x.pi + 1 }
    writeShadow q (setQueue q (if count then x1.noteRecord (now s) else x1) (qmWrite at' (halves rec) s))

/-- FULLHOLD is entered (R270, R271). -/
def enterFullHold (q : Nat) (s : State) : State :=
  let x := queueOf s q
  if x.fullHold then s
  else
    let s1 := fbRaise 0x0C02 (BitVec.ofNat 64 (q * 2 ^ 32 + x.pi.toNat)) (setQueue q { x with fullHold := true } s)
    if x.sen then fireSource x.source s1 else s1

/-- The function is in D3hot or D3cold. -/
def inD3 (s : State) : Bool := s.cxl.dstate != .d0

/-- A record is held behind its queue (R270, R272). -/
def holdRecord (q : Nat) (rec : List W32) (s : State) : State :=
  let x := queueOf s q
  let forD0 := x.held.isEmpty && x.room || !x.held.isEmpty && !x.fullHold
  let x1 := { x with held := x.held ++ [rec] }
  let x2 := if x1.window.isSome || (forD0 && inD3 s && !qmReach s x.base) then x1.noteRecord (now s) else x1
  let s1 := setQueue q x2 s
  if x.room then s1 else enterFullHold q s1

/-- A device producer's record for queue q: written, held, or discarded (R270). -/
def postRecord (q : Nat) (rec : List W32) (s : State) : State :=
  let x := queueOf s q
  if !x.v then dropRecord q s
  else if x.held.isEmpty && x.room && qmReach s x.base then putRecord q true rec s
  else holdRecord q rec s

/-- The first held record is written where the ring has room and is reached. -/
def flushOne (q : Nat) (count : Bool) (s : State) : State :=
  let x := queueOf s q
  match x.held with
  | rec :: rest =>
    if x.room && qmReach s x.base then putRecord q count rec (setQueue q { x with held := rest } s) else s
  | [] => s

/-- FULLHOLD clears once nothing is held and the ring has room (R270). -/
def clearFullHold (q : Nat) (s : State) : State :=
  let x := queueOf s q
  if x.held.isEmpty && x.room then setQueue q { x with fullHold := false } s else s

/-- Held records are written in order while there is room (R270, R273). -/
def flushHeld (q : Nat) (s : State) : State :=
  let x := queueOf s q
  let s1 := (List.range x.held.length).foldl (fun t _ => flushOne q x.window.isNone t) s
  clearFullHold q s1

/-- The records and shadows that waited for the host are written, queue by queue (R273, R299). -/
def flushHost (s : State) : State :=
  s.qmg.queues.foldl (fun t e =>
    let t1 := if (hostOffset e.2.base).isSome then flushHeld e.1 t else t
    if (queueOf t1 e.1).shadowDue then writeShadow e.1 t1 else t1) s

/-- Pending vectors that are open are sent, each once (R273, R274). -/
def sendPending (s : State) : State :=
  s.cxl.pendingVec.foldl (fun t v =>
    if msixOpen t v then
      issueMsix v { t with cxl := { t.cxl with pendingVec := t.cxl.pendingVec.filter (· != v) } }
    else t) s

/-- What follows from the host being reached again: held records, then pending vectors (R273, R299). -/
def hostReturns (s : State) : State := if hostReachable s then sendPending (flushHost s) else s

/-! ### QCMD (R267) -/

/-- The BAR0 offset of QMG.QCMD. -/
def qcmdOff : Nat := 0x20044

/-- The entry that QDATA0 to QDATA7 spell. -/
def Qmg.staged (m : Qmg) : Queue :=
  let d := fun i => Tab.get (0 : W32) m.qdata i
  { q0 := d 0, q1 := d 1, q2 := d 2, q3 := d 3, q4 := d 4, q5 := d 5, pi := d 6, ci := d 7 }

/-- CMTERR 0x1: a reserved field, or TYPE, ESZ or LOG2N out of range. -/
def Queue.badField (x : Queue) : Bool :=
  fld x.q0 16 3 != 0 || fld x.q2 0 8 != 0 || fld x.q3 0 8 != 0 || fld x.q4 16 16 != 0 ||
  decide (4 ≤ x.typ) || fld x.q0 26 2 == 3 || decide (fld x.q0 21 5 < 2) || decide (16 < fld x.q0 21 5) ||
  (x.typ != 3 && x.dir) || (x.hostProduces && x.ien)

/-- The first check of R267 that a COMMIT fails, 0 for none. -/
def commitError (old x : Queue) : Nat :=
  let size := x.entryBytes / 2
  if x.badField then 1
  else if x.typ = 2 ∧ x.entryBytes ≠ 16 then 2
  else if x.base % size ≠ 0 ∨ !inHbmOrHost x.base (x.n * size) then 3
  else if x.shadow ≠ 0 ∧ (x.shadow % 2 = 1 ∨ !inHbmOrHost x.shadow 2) then 4
  else if old.v then 5
  else if x.n < x.used then 6
  else 0

/-- A refused QCMD (R267). -/
def qcmdRefuse (ag code : Nat) (s : State) : State :=
  refuseReg 5 ag qcmdOff { s with qmg := { s.qmg with cmtErr := code } }

/-- COMMIT (R267, R272). -/
def qmgCommit (ag : Nat) (s : State) : State :=
  let old := queueOf s s.qmg.qsel
  let x := s.qmg.staged
  let e := commitError old x
  if e ≠ 0 then qcmdRefuse ag e s
  else setQueue s.qmg.qsel { x with armed := x.v && x.ien, err := old.err } s

/-- DISABLE: V := 0 at once, and held records are discarded (R267, R270). -/
def qmgDisable (s : State) : State :=
  let q := s.qmg.qsel
  let x := queueOf s q
  x.held.foldl (fun t _ => dropRecord q t)
    (setQueue q { x with q0 := putBit x.q0 31 false, held := [], fullHold := false, shadowDue := false } s)

/-- READ: QDATA0 to QDATA7 := the entry (R267). -/
def qmgRead (s : State) : State :=
  let x := queueOf s s.qmg.qsel
  { s with qmg := { s.qmg with
      qdata := [(0, x.q0), (1, x.q1), (2, x.q2), (3, x.q3), (4, x.q4), (5, x.q5), (6, x.pi), (7, x.ci)] } }

/-- The check of R269 for a producer index. -/
def Queue.piOk (x : Queue) (v : W32) : Bool := decide ((v - x.pi).toNat ≤ x.n - x.used)
/-- The check of R269 for a consumer index. -/
def Queue.ciOk (x : Queue) (v : W32) : Bool := decide ((v - x.ci).toNat ≤ x.used)

/-- ADVANCE of the device-side index (R267, R268, R272): records that Surveyor firmware wrote count as written. -/
def qmgAdvance (ag : Nat) (s : State) : State :=
  let q := s.qmg.qsel
  let x := queueOf s q
  let d6 := Tab.get 0 s.qmg.qdata 6
  let d7 := Tab.get 0 s.qmg.qdata 7
  if ag = 0 then refuseReg 5 ag qcmdOff s
  else if !x.v then qcmdRefuse ag 7 s
  else if x.hostProduces then
    if x.ciOk d7 then writeShadow q (setQueue q { x with ci := d7 } s) else qcmdRefuse ag 7 s
  else if x.piOk d6 then
    let x1 := (List.range (d6 - x.pi).toNat).foldl (fun y _ => Queue.noteRecord (now s) y) { x with pi := d6 }
    writeShadow q (setQueue q x1 s)
  else qcmdRefuse ag 7 s

/-- QMG_COMMIT (R267). -/
def execQmgCommit (ag : Nat) (s : State) : Out3 := .next (atPage ag qcmdOff (qmgCommit ag) s)
/-- QMG_DISABLE (R267). -/
def execQmgDisable (ag : Nat) (s : State) : Out3 := .next (atPage ag qcmdOff qmgDisable s)
/-- QMG_READ (R267). -/
def execQmgRead (ag : Nat) (s : State) : Out3 := .next (atPage ag qcmdOff qmgRead s)
/-- QMG_ADVANCE (R267). -/
def execQmgAdvance (ag : Nat) (s : State) : Out3 := .next (atPage ag qcmdOff (qmgAdvance ag) s)

/-! ### Doorbells (R269) -/

/-- A refused doorbell write (R269). -/
def doorbellRefused (q : Nat) (v : W32) (s : State) : State :=
  fbRaise 0x0C01 (BitVec.ofNat 64 (q * 2 ^ 32 + v.toNat))
    (fireSource 9 (setQueue q { queueOf s q with err := true } s))

/-- An accepted producer doorbell write (R269, R271). -/
def producerDoorbell (q : Nat) (v : W32) (s : State) : State :=
  let x := queueOf s q
  let s1 := setQueue q { x with pi := v, err := false } s
  if x.sen && v != x.pi then fireSource x.source s1 else s1

/-- An accepted consumer doorbell write: held records are written, and the queue re-arms with a window for what the ring
still holds (R269, R270, R272). -/
def consumerDoorbell (q : Nat) (v : W32) (s : State) : State :=
  let x := queueOf s q
  let s1 := flushHeld q (setQueue q { x with ci := v, err := false, armed := false, window := none } s)
  let y := queueOf s1 q
  let w : Option Window := if x.ien && y.used != 0 then some { since := now s, count := y.used } else none
  setQueue q { y with armed := x.ien, window := w } s1

/-- A doorbell write (R269). -/
def doorbell (q : Nat) (v : W32) (s : State) : State :=
  let x := queueOf s q
  if !x.v then doorbellRefused q v s
  else if x.hostProduces then
    if x.piOk v then producerDoorbell q v s else doorbellRefused q v s
  else if x.ciOk v then consumerDoorbell q v s
  else doorbellRefused q v s

/-- DOORBELL_WRITE (R269): the host writes the doorbell of queue q. -/
def execDoorbellWrite (q : Nat) (v : W32) (s : State) : Out3 :=
  if 16384 ≤ q then .refused .noSuchUnit else .next (if s.glb.state = .off then s else doorbell q v s)

/-! ### Moderation and MSI-X (R272 to R274) -/

/-- The window of a queue has expired by count or by time (R272). -/
def Queue.expired (t : Nat) (x : Queue) : Bool :=
  match x.window with
  | some w => decide (max 1 x.modCnt ≤ w.count) || decide (w.since + x.modTime * 256 ≤ t)
  | none => false

/-- The device acts on the host's power state (R273, R302). -/
def signalHost (v : Nat) (s : State) : State :=
  if s.cxl.dstate = .d0 ∧ s.cxl.link ≠ .l2 then issueMsix v s else signalWake (pendVector v s)

/-- MODERATION_EXPIRY (R272): the window of queue q expires; the queue disarms. -/
def execModerationExpiry (q : Nat) (s : State) : Out3 :=
  if 16384 ≤ q then .refused .noSuchUnit
  else
    let x := queueOf s q
    if x.expired (now s) then .next (signalHost x.msiv (setQueue q { x with armed := false, window := none } s))
    else .next s

/-- A vector's mask, or with none the function's, is cleared, and pending messages are sent once (R274). -/
def clearMask (v : Option Nat) (s : State) : State :=
  let c := s.cxl
  sendPending (match v with
    | some n => { s with cxl := { c with unmasked := insertNat n c.unmasked } }
    | none => { s with cxl := { c with funcMask := false } })

/-- MSIX_MASK_CLEAR (R274): the mask of a vector, or of the function, clears. -/
def execMsixMaskClear (v : Option Nat) (s : State) : Out3 :=
  match v with
  | some n => if 2048 ≤ n then .refused .noSuchUnit else .next (clearMask v s)
  | none => .next (clearMask none s)

/-- MSIX_ENABLE (R273): the host enables MSI-X. -/
def execMsixEnable (s : State) : Out3 := .next (hostReturns { s with cxl := { s.cxl with msixEn := true } })

/-- What a read of QMG.DROP returns, and the state after it (R387). -/
def takeQmgDrop (t : State) : W32 × State := (BitVec.ofNat 32 t.qmg.drop, { t with qmg := { t.qmg with drop := 0 } })

/-- QMG_DROP_READ (R284): DROP is returned and cleared. -/
def execQmgDropRead (ag : Nat) (s : State) : Out3 :=
  .next (readPage ag 0x2004C takeQmgDrop s)

end Sys2Proof.Machine
end

