-- ==== Sys2Proof/Machine/Link.lean ====
section
/-! DEFINITION. Sys2Proof/Machine/Link.lean: the Causeway links as senders: topology and routes, flits and their CRC, the
replay buffer, credits and precedence, and a link going down (R309 to R316). -/

namespace Sys2Proof.Machine

/-! ### Topology and routes (R309, R316) -/

/-- A link. -/
def linkOf (s : State) (l : Nat) : Link := Tab.get {} s.links l
/-- A link changed. -/
def setLink (l : Nat) (x : Link) (s : State) : State := { s with links := Tab.set s.links l x }
/-- The atlas changed. -/
def setAtl (a : Atlas) (s : State) : State := { s with atl := a }
/-- A link carries flits (R310, R314). -/
def Link.carries (x : Link) : Bool := x.state == .up || x.state == .degraded

/-- The dimensions X, Y and Z of an ATL.CFG value. -/
def atlasDims (cfg : W32) : Nat × Nat × Nat :=
  let x := fld cfg 8 4 + 1
  let y := fld cfg 4 4 + 1
  let z := fld cfg 0 4 + 1
  match fld cfg 14 2 with
  | 1 => (x, y, 1)
  | 2 => (x, y, z)
  | _ => (x, 1, 1)

/-- The number of sheets. -/
def atlasSize (cfg : W32) : Nat := let d := atlasDims cfg; d.1 * d.2.1 * d.2.2

/-- The sheet one step along a dimension of length `n` and stride `m`, forward or back. -/
def stepSheet (s n m : Nat) (fwd : Bool) : Nat :=
  let c := s / m % n
  s - c * m + (if fwd then (c + 1) % n else (c + n - 1) % n) * m

/-- The sheet that the topology puts on link `l` of sheet `s` (R309). -/
def neighbour (cfg : W32) (s l : Nat) : Option Nat :=
  let d := atlasDims cfg
  match fld cfg 14 2 with
  | 3 => if l ≠ s ∧ l < d.1 then some l else none
  | t =>
    match l / 2 with
    | 0 => some (stepSheet s d.1 1 (l % 2 == 0))
    | 1 => if 1 ≤ t then some (stepSheet s d.2.1 d.1 (l % 2 == 0)) else none
    | 2 => if 2 ≤ t then some (stepSheet s d.2.2 (d.1 * d.2.1) (l % 2 == 0)) else none
    | _ => none

/-- The peer's link that link `l` of sheet `s` meets (R309). -/
def peerLinkOf (cfg : W32) (s l : Nat) : Nat :=
  if fld cfg 14 2 = 3 then s else if l % 2 = 0 then l + 1 else l - 1

/-- The dimensions of a torus or ring as link pair, length and stride. -/
def dimList (cfg : W32) : List (Nat × Nat × Nat) :=
  let d := atlasDims cfg
  [(0, d.1, 1), (2, d.2.1, d.1), (4, d.2.2, d.1 * d.2.1)]

/-- The links toward sheet `t` from sheet `s`, the one of dimension order first, then the others of the dimensions that
differ, in the order of R309 (R316; log entry 21). -/
def linksToward (cfg : W32) (s t : Nat) : List Nat :=
  if fld cfg 14 2 = 3 then [t]
  else
    let open' := (dimList cfg).filter fun d => s / d.2.2 % d.2.1 != t / d.2.2 % d.2.1
    let first := open'.head?.map fun d =>
      let ahead := (t / d.2.2 % d.2.1 + d.2.1 - s / d.2.2 % d.2.1) % d.2.1
      if 2 * ahead ≤ d.2.1 then d.1 else d.1 + 1
    let all := open'.flatMap fun d => [d.1, d.1 + 1]
    match first with
    | some f => f :: all.filter (· != f)
    | none => []

/-- The hops of a route (R310, R316). -/
def hopsBetween (cfg : W32) (s t : Nat) : Nat :=
  if fld cfg 14 2 = 3 then (if s = t then 0 else 1)
  else ((dimList cfg).map fun d =>
    let a := (t / d.2.2 % d.2.1 + d.2.1 - s / d.2.2 % d.2.1) % d.2.1
    min a (d.2.1 - a)).foldl (· + ·) 0

/-- The link on which a message for sheet `t` leaves; none where it is unreachable (R316, R324). -/
def routeTo (s : State) (t : Nat) : Option Nat :=
  if !s.atl.en || decide (atlasSize s.atl.cfg ≤ t) then none
  else (linksToward s.atl.cfg s.glb.sheet t).find? fun l => (linkOf s l).carries

/-! ### Flits (R312, R313) -/

/-- TYPE of a header. -/
def Flit.type (f : Flit) : Nat := fld f.header 28 4

/-- `n` bytes of a number, the lowest first. -/
def leBytes : Nat → Nat → List Byte
  | 0, _ => []
  | n + 1, v => BitVec.ofNat 8 v :: leBytes n (v / 256)

/-- The number that bytes spell, the lowest first. -/
def leValue : List Byte → Nat
  | [] => 0
  | b :: bs => b.toNat + 256 * leValue bs

/-- A list of bytes brought to length `n` with zeros. -/
def padBytes (n : Nat) (bs : List Byte) : List Byte := (bs ++ List.replicate (n - bs.length) 0).take n

/-- One step of the CRC-32 of IEEE 802.3 on its reflected register. -/
def crcBit (c : W32) : W32 := if bitOf c 0 then (c >>> (1 : Nat)) ^^^ 0xEDB88320#32 else c >>> (1 : Nat)
/-- One byte of the CRC-32. -/
def crcByte (c : W32) (b : Byte) : W32 := (List.range 8).foldl (fun t _ => crcBit t) (c ^^^ b.setWidth 32)
/-- The CRC-32 of IEEE 802.3 of a string of bytes (R313). -/
def crc32 (bs : List Byte) : W32 := ~~~(bs.foldl crcByte 0xFFFFFFFF#32)

/-- The 64 bytes of a flit under its sequence number (R312, R313). -/
def Flit.bytes (f : Flit) (seq : Nat) : List Byte :=
  let body := leBytes 4 f.header.toNat ++ padBytes 56 f.payload
  body ++ leBytes 4 (crc32 (leBytes 2 seq ++ body)).toNat

/-- The class of a flit in the order of R315: 0 NAK and CTRL, 1 HB, 2 AUDIO, 3 MGMT and LOOP, 4 memory. -/
def Flit.cls (f : Flit) : Nat :=
  match f.type with
  | 0 | 1 => 0
  | 2 => 1
  | 3 => 2
  | 7 | 8 => 3
  | _ => 4

/-- The class of a message. -/
def msgCls (m : List Flit) : Nat := match m with
  | f :: _ => f.cls
  | [] => 0

/-! ### Sending (R313, R315) -/

/-- A message may be sent now: the replay buffer has room and its class has credits. -/
def Link.maySend (x : Link) (m : List Flit) : Bool :=
  match msgCls m with
  | 0 => true
  | 3 => decide (m.length ≤ x.mgmtCredit ∧ x.unacked.length + m.length ≤ 256)
  | 4 => decide (m.length ≤ x.memCredit ∧ x.unacked.length + m.length ≤ 256)
  | _ => decide (x.unacked.length + m.length ≤ 256)

/-- The first message of a class that may be sent. -/
def Link.firstOf (x : Link) (c : Nat) : Option (List Flit) := x.waiting.find? fun m => msgCls m == c && x.maySend m

/-- The message that is sent next (R315). -/
def Link.nextMsg (x : Link) : Option (List Flit) :=
  let low := (x.firstOf 3).orElse fun _ => x.firstOf 4
  (x.firstOf 0).orElse fun _ => (x.firstOf 1).orElse fun _ =>
    if 15 ≤ x.tideRun ∧ low.isSome then low else (x.firstOf 2).orElse fun _ => low

/-- The list with the first occurrence of an element left out. -/
def dropFirst (m : List Flit) : List (List Flit) → List (List Flit)
  | [] => []
  | y :: ys => if y = m then ys else y :: dropFirst m ys

/-- One flit leaves on a link. -/
def emitFlit (l : Nat) (t : Nat) (x : Link) (f : Flit) : Link × Out :=
  let low := x.waiting.any fun m => decide (3 ≤ msgCls m)
  ({ x with
      unacked := x.unacked ++ [{ seq := x.txSeq, flit := f }]
      ackSince := if x.unacked.isEmpty then t else x.ackSince
      txSeq := (x.txSeq + 1) % 1024
      mgmtCredit := if f.cls = 3 then x.mgmtCredit - 1 else x.mgmtCredit
      memCredit := if f.cls = 4 then x.memCredit - 1 else x.memCredit
      tideRun := if f.cls = 2 then (if low then x.tideRun + 1 else 0) else if 3 ≤ f.cls then 0 else x.tideRun },
    .flit l (f.bytes x.txSeq))

/-- The flits of one message leave. -/
def emitMsg (l t : Nat) (acc : Link × List Out) (f : Flit) : Link × List Out :=
  let r := emitFlit l t acc.1 f
  (r.1, acc.2 ++ [r.2])

/-- One message, if any may be sent, leaves. -/
def sendOne (l : Nat) (s : State) : State :=
  let x := linkOf s l
  match x.nextMsg with
  | some m =>
    let r := m.foldl (emitMsg l (now s)) ({ x with waiting := dropFirst m x.waiting }, [])
    { setLink l r.1 s with out := s.out ++ r.2 }
  | none => s

/-- Everything that may be sent leaves, in the order of R315. -/
def pump (l : Nat) (s : State) : State := (List.range (linkOf s l).waiting.length).foldl (fun t _ => sendOne l t) s

/-- A message is given to a link. -/
def sendOn (l : Nat) (m : List Flit) (s : State) : State :=
  let x := linkOf s l
  if x.carries then pump l (setLink l { x with waiting := x.waiting ++ [m] } s) else s

/-- A flit of a TYPE with header bits and payload. -/
def mkFlit (ty rest : Nat) (payload : List Byte) : Flit := { header := BitVec.ofNat 32 (ty * 2 ^ 28 + rest), payload := payload }

/-- A CTRL flit: the acknowledgement and the credits to return (R312, R313, R315). -/
def sendCtrl (l : Nat) (s : State) : State :=
  let x := linkOf s l
  sendOn l [mkFlit 0 ((x.rxSeq + 1023) % 1024) (leBytes 2 x.memBack ++ leBytes 2 x.mgmtBack)]
    (setLink l { x with memBack := 0, mgmtBack := 0, accepted := 0 } s)

/-! ### A link's state (R310, R313, R333) -/

/-- The tick family's ticks in `n` thousandths of a second, rounded down (R13, R396). -/
def msTicks (s : State) : Nat := if bitOf s.mer.cfg 0 then 903168 else 983040

/-- The link layer as training leaves it. -/
def Link.clearLayer (x : Link) : Link :=
  { x with txSeq := 0, rxSeq := 0, nakOut := false, unacked := [], waiting := [], tideRun := 0, accepted := 0
           mgmtCredit := 64, memCredit := 64, mgmtBack := 0, memBack := 0, reserved := [], hbSent := 0, hbTime := 0 }

/-- A payload of a Causeway record: the sheet, the link and a value (R332). -/
def cwlPayload (s : State) (l v : Nat) : W64 := payload s.glb.sheet (l * 2 ^ 32 + v)

/-- The BAR0 page number of a CWL page (R392). -/
def cwlPage (l : Nat) : Nat := 0x1C0 + l

/-- The link takes part in the topology (R309). -/
def linkUsed (s : State) (l : Nat) : Bool := (neighbour s.atl.cfg s.glb.sheet l).isSome

/-- The link trains where it is enabled, the atlas is, the topology names it, and the device's links are up (R9, R309,
R310). -/
def startTraining (l : Nat) (s : State) : State :=
  let x := linkOf s l
  if x.en && s.atl.en && linkUsed s l && s.glb.state != .dormant && s.glb.state != .off then
    setLink l { x.clearLayer with state := .train, since := now s } s
  else s

/-- A link goes down with a reason (R313, R332, R333). -/
def linkDown (l reason : Nat) (s : State) : State :=
  let x := linkOf s l
  if x.carries then
    fbRaise 0x0802 (cwlPayload s l reason)
      (irqSet (cwlPage l) 1 (setLink l { x.clearLayer with state := .down, lanes := 0, since := now s } s))
  else setLink l { x.clearLayer with state := .down, lanes := 0, since := now s } s

/-- A link goes down and trains again. -/
def linkRetrain (l reason : Nat) (s : State) : State := startTraining l (linkDown l reason s)

end Sys2Proof.Machine
end

