-- ==== Sys2Proof/Machine/Bus.lean ====
section
/-! DEFINITION. Sys2Proof/Machine/Bus.lean: the sending side of the audio buses (R317, R318), the output slots that a
reed's store triggers (R231), and reads of other sheets as
they are issued (R324). -/

namespace Sys2Proof.Machine

/-! ### Bus entries (R317) -/

/-- A bus-table entry. -/
def busOf (s : State) (b : Nat) : BusEntry := Tab.get {} s.atl.buses b
/-- TXV. -/
def BusEntry.txv (e : BusEntry) : Bool := bitOf e.w0 31
/-- RXV. -/
def BusEntry.rxv (e : BusEntry) : Bool := bitOf e.w0 30
/-- DOM. -/
def BusEntry.dom (e : BusEntry) : Nat := fld e.w0 27 3
/-- Channels. -/
def BusEntry.ch (e : BusEntry) : Nat := fld e.w0 18 9 + 1
/-- POL. -/
def BusEntry.pol (e : BusEntry) : Nat := fld e.w0 16 2
/-- LINKS, as link numbers. -/
def BusEntry.links (e : BusEntry) : List Nat := setBits 16 (fld e.w0 0 16)
/-- BK. -/
def BusEntry.bk (e : BusEntry) : Nat := fld e.w1 31 1
/-- TKEN. -/
def BusEntry.tken (e : BusEntry) : Bool := bitOf e.w1 30
/-- TKNUM. -/
def BusEntry.tknum (e : BusEntry) : Nat := fld e.w1 26 4
/-- REED. -/
def BusEntry.reed (e : BusEntry) : Nat := fld e.w1 16 9
/-- OFF. -/
def BusEntry.off (e : BusEntry) : Nat := fld e.w1 0 16
/-- The flits of a bus (R318). -/
def BusEntry.flits (e : BusEntry) : Nat := (e.ch + 13) / 14

/-- The canonical word of channel `c` of a bus in its bank, on the reed that carries REED. -/
def BusEntry.word (e : BusEntry) (p c : Nat) : Nat := reedBase p + 0x10000 * e.bk + (e.off + 2 * c) % 0x10000

/-- The double at a canonical word. -/
def doubleAt (m : List Host.Cell) (w : Nat) : W32 := memWord m (w + 1) ++ memWord m w

/-- The AUDIO flits of a bus as its sender reads it (R312, R318). -/
def busFlits (s : State) (b p : Nat) (e : BusEntry) : List Flit :=
  let tag := (domOf s e.dom).tide % 256
  (List.range e.flits).map fun i =>
    mkFlit 3 (b * 2 ^ 16 + tag * 2 ^ 8 + i)
      ((List.range 14).flatMap fun k =>
        if 14 * i + k < e.ch then leBytes 4 (doubleAt s.mem (e.word p (14 * i + k))).toNat else [0, 0, 0, 0])

/-- A bus is sent on every link of its entry (R318); nothing is sent while its domain is not active (R19). -/
def sendBus (b p : Nat) (e : BusEntry) (s : State) : State :=
  if (domOf s e.dom).active then
    let fs := busFlits s b p e
    e.links.foldl (fun t l => fs.foldl (fun u f => sendOn l [f] u) t) s
  else s

/-! ### Output slots of the audio ports (R231) -/

/-- The logical reed of an OSLOTMAP entry. -/
def outReed (e : W32) : Nat := fld e 16 9
/-- The source words of an OSLOTMAP entry, within its reed's banks (R231). -/
def outWords (e : W32) : List Nat :=
  let a := 0x10000 * fld e 30 1 + fld e 0 16
  if bitOf e 26 then [a] else [a, 0x10000 * fld e 30 1 + (fld e 0 16 + 1) % 0x10000]

/-- An output slot whose source lies among the words that physical reed `r` has stored is to be loaded (R231). -/
def slotLoadDue (s : State) (r : Nat) (ws : List StoreWord) (a : Asp) (k : Nat) : Bool :=
  let e := Tab.get 0 a.outsNow k
  bitOf e 31 && physOf s (outReed e) == some r && (outWords e).any fun w => ws.any (fun x => x.addr == w)

/-- The port's slots whose staging entries are to be loaded after a store of physical reed `r`. -/
def Asp.noteStore (s : State) (r : Nat) (ws : List StoreWord) (a : Asp) : Asp :=
  { a with loadDue := (List.range 32).foldl (fun m k => if slotLoadDue s r ws a k then putBit m k true else m) a.loadDue }

/-- Words that physical reed `r` has stored in its own banks trigger the buses whose last word is among them (R318), and
the staging entries whose source they are (R231). -/
def afterLocalStore (r : Nat) (ws : List StoreWord) (s : State) : State :=
  if ws.isEmpty then s else
    let s1 : State := { s with asp := s.asp.map fun (e : Nat × Asp) => (e.1, e.2.noteStore s r ws) }
    s1.atl.buses.foldl (fun t be =>
      let e := be.2
      let last := 0x10000 * e.bk + (e.off + 2 * e.ch - 1) % 0x10000
      if e.txv && physOf t e.reed == some r && ws.any (fun w => w.addr == last) then sendBus be.1 r e t else t) s1

/-! ### Reads of other sheets (R324) -/

/-- A MEMRD for a 64-byte line of sheet `t`, by its ATLAS word address. -/
def memRdFlit (s : State) (tag t addr : Nat) : Flit := mkFlit 4 (tag * 2 ^ 16 + s.glb.sheet * 2 ^ 10 + t) (leBytes 6 addr)

/-- A read of a line of another sheet is issued for an agent; `route` is the link it leaves on. -/
def issueAtlasRead (route agent slot sheet addr : Nat) (s : State) : State :=
  let tag := s.atl.nextTag
  let a := { s.atl with nextTag := (tag + 1) % 4096
                        reads := s.atl.reads ++ [{ tag := tag, agent := agent, slot := slot, addr := addr }] }
  sendOn route [memRdFlit s tag sheet addr] (setAtl a s)

/-- The ATLAS word address of an HBM word offset of a sheet (R49). -/
def atlasAddr (sheet a : Nat) : Nat := 0x80000000000 + sheet * 0x1000000000 + a

/-! ### A far read meets its target (R292, R299, R324) -/

/-- Places whose reads cross the host interface or the Causeway, and cannot be sent now. -/
def farUnsent (s : State) (pl : Place) : Bool :=
  match pl with
  | .host w => !s.cxl.inWindow w || !hostReachable s
  | .atlas t _ => (routeTo s t).isNone
  | _ => false

/-- The 64-byte lines of other sheets that words touch, each once. -/
def atlasLines (pls : List Place) : List (Nat × Nat) :=
  (pls.filterMap fun pl => match pl with
    | .atlas t a => some (t, a - a % 32)
    | _ => none).eraseDups

/-- A read of host memory leaves for an originator, from a HOST word offset (R292 to R294, R301). -/
def sendHostRead (from' : Originator) (w bytes : Nat) (s : State) : State :=
  let uio := s.cxl.inPeer w
  let s1 := { s with cxl := { s.cxl.wakeLink with
    reqs := s.cxl.reqs ++ [{ from' := from', since := now s, uio := uio }] } }
  if s.cxl.looping then s1 else send (.hostRead uio (s.cxl.hpa w) bytes) s1

/-- A reed's far read leaves for host memory or another sheet (R294, R324). -/
def issueFarRead (r : Nat) (pls : List Place) (s : State) : State :=
  let hosts := pls.filterMap fun pl => match pl with
    | .host w => some w
    | _ => none
  let s1 := match hosts with
    | w :: _ => sendHostRead (.reed r) w (2 * hosts.length) s
    | [] => s
  (atlasLines pls).foldl (fun t la =>
    match routeTo t la.1 with
    | some l => issueAtlasRead l r 0 la.1 (atlasAddr la.1 la.2) t
    | none => t) s1

/-- The requests of a reed's far read are settled (R60, R294). -/
def endFarRead (r : Nat) (s : State) : State :=
  { s with cxl := { s.cxl with reqs := s.cxl.reqs.filter fun q => q.late || q.from' != .reed r }
           atl := { s.atl with reads := s.atl.reads.filter fun q => q.late || q.agent != r } }

/-- A reed's timeout wins against its far read: what arrives later is late (R60). -/
def lateFarRead (r : Nat) (s : State) : State :=
  { s with cxl := { s.cxl with reqs := s.cxl.reqs.map fun q => if q.from' = .reed r then { q with late := true } else q }
           atl := { s.atl with reads := s.atl.reads.map fun q => if q.agent = r then { q with late := true } else q } }

/-- A late far read is settled: its data are discarded and counted (R60). -/
def countLate (r : Nat) (s : State) : State :=
  let x := reedOf s r
  if x.lateReads = 0 then s
  else setReed r { x with lateReads := x.lateReads - 1, page := { x.page with late := satInc 0xFFFF x.page.late } } s

end Sys2Proof.Machine
end

