-- ==== Sys2Proof/Machine/Contour.lean ====
section
/-! DEFINITION. Sys2Proof/Machine/Contour.lean: the Contour block (R145 to R147). -/

namespace Sys2Proof.Machine

/-- The weighted sum of the mantissas, the first with weight `k` (R145). -/
def contourSum : Nat → List W16 → Nat
  | _, [] => 0
  | k, m :: ms => k * m.toNat + contourSum (k + 1) ms

/-- The block check C (R145). -/
def contourCheck (e : Nat) (ms : List W16) : Nat := (e + contourSum 1 ms) % 2039

/-- A 17-word block is well formed: e is at most 16 and C matches (R146). -/
def contourOk : List W16 → Bool
  | [] => false
  | h :: ms => decide (fld h 0 5 ≤ 16 ∧ fld h 5 11 = contourCheck (fld h 0 5) ms)

/-- The four samples 4·q to 4·q + 3 of a block (R145, R146). -/
def contourDecode (block : List W16) (q : Nat) : List W32 :=
  match block with
  | [] => []
  | h :: ms => ((ms.drop (4 * q)).take 4).map fun m => wrap 32 (m.toInt * 2 ^ fld h 0 5)

/-- Every sample fits 16 bits at exponent `e` (R147). -/
def contourFits (vs : List W32) (e : Nat) : Bool :=
  vs.all fun v => decide (-32768 ≤ v.toInt / 2 ^ e ∧ v.toInt / 2 ^ e ≤ 32767)

/-- The smallest exponent in 0 to 16 at which every sample fits (R147). -/
def contourExp (vs : List W32) : Nat := ((List.range 16).find? (contourFits vs)).getD 16

/-- The 17 words of a block that encodes 16 samples (R147). -/
def contourEncode (vs : List W32) : List W16 :=
  let e := contourExp vs
  let ms := vs.map fun v => wrap 16 (v.toInt / 2 ^ e)
  BitVec.ofNat 16 (contourCheck e ms * 32 + e) :: ms

end Sys2Proof.Machine
end

