-- ==== Sys2Proof/Machine/Operands.lean ====
section
/-! DEFINITION. Sys2Proof/Machine/Operands.lean: every operand form of a syllable: registers by GR code, index-register
and parcel addresses with their checks, and reads of memory (R52, R69 to R71, R78, R79). -/

namespace Sys2Proof.Machine

/-! ### CTXCFG and FSW of a context -/

/-- CTXCFG.PERS: Survey personality (R43). -/
def Regs.survey (g : Regs) : Bool := bitOf g.cfg 0
/-- CTXCFG.PRIV: Surveyor level (R43). -/
def Regs.priv (g : Regs) : Bool := bitOf g.cfg 1
/-- CTXCFG.BPM (R43). -/
def Regs.bpm (g : Regs) : Bool := bitOf g.cfg 2
/-- CTXCFG.RSO (R43). -/
def Regs.rso (g : Regs) : Bool := bitOf g.cfg 3
/-- CTXCFG.CONSTTIME (R43). -/
def Regs.constTime (g : Regs) : Bool := bitOf g.cfg 4
/-- CTXCFG.NTRAP (R43). -/
def Regs.ntrap (g : Regs) : Bool := bitOf g.cfg 5
/-- Bits of an index register (R39). -/
def Regs.width (g : Regs) : Nat := if g.survey then 32 else 16
/-- Addressing units per word (R52). -/
def Regs.unit (g : Regs) : Nat := if g.survey then 2 else 1

/-! ### Registers -/

/-- S0–S7. -/
def Regs.sOf (g : Regs) (n : Nat) : W32 := Tab.get 0 g.s n
/-- P0–P7; P0 reads 1 (R39). -/
def Regs.pOf (g : Regs) (n : Nat) : Bool := n == 0 || bitOf g.p n
/-- P0 to P7 as a mask; bit 0 reads 1 (R81). -/
def Regs.preds (g : Regs) : BitVec 8 := putBit g.p 0 true
/-- F0–F31. -/
def Regs.fOf (g : Regs) (n : Nat) : W64 := Tab.get 0 g.f n
/-- V0–V15 as 128-bit values (R122). -/
def Regs.vOf (g : Regs) (n : Nat) : Nat := (g.fOf (2 * n)).toNat + 2 ^ 64 * (g.fOf (2 * n + 1)).toNat
/-- PD0–PD15. -/
def Regs.pdOf (g : Regs) (n : Nat) : W128 := Tab.get 0 g.pd n
/-- A0–A3 as other readers see them. -/
def Regs.aOf (g : Regs) (n : Nat) : W72 := Tab.get 0 g.a n
/-- M0–M3. -/
def Regs.mOf (g : Regs) (n : Nat) : W64 := Tab.get 0 g.m n

/-- An index register's value: 16 bits in Service, 32 in Survey (R39). -/
def Regs.index (g : Regs) (t : Tab W32) (n : Nat) : Nat := (Tab.get 0 t n).toNat % 2 ^ g.width

/-- A step register's signed value (R39). -/
def Regs.stepOf (g : Regs) (n : Nat) : Int := signed g.width (g.index g.nr n)

/-- A general register as a 32-bit source: X, Y, L and B are zero-extended and N is sign-extended; a predicate is 0 or 1
(R79). -/
def Regs.grOf (g : Regs) : Gr → W32
  | .s n => g.sOf n
  | .x n => BitVec.ofNat 32 (g.index g.x n)
  | .y n => BitVec.ofNat 32 (g.index g.y n)
  | .nr n => wrap 32 (g.stepOf n)
  | .l n => BitVec.ofNat 32 (g.index g.l n)
  | .b n => BitVec.ofNat 32 (g.index g.b n)
  | .p n => if g.pOf n then 1 else 0
  | .a n => (g.aOf n).setWidth 32

/-- The register named by a GR code; a reserved code does not pass the decode checks. -/
def grAt (c : Nat) : Gr := (Gr.ofCode c).getD (.s 0)

/-- The destination of a general register. -/
def Gr.dest : Gr → Dest
  | .s n => .s n | .x n => .x n | .y n => .y n | .nr n => .nr n | .l n => .l n | .b n => .b n | .p n => .p n | .a n => .a n

/-- The level of execution of a context: its frames in use (R57). -/
def Run.level (q : Run) : Nat := q.frames.length

/-- Bundles executed at a level (R57). -/
def Run.countAt (q : Run) (lv : Nat) : Nat := Tab.get 0 q.counts lv

/-- The latest result of the present level still pending for An (R56). -/
def pendingA (q : Run) (n : Nat) : Option Nat :=
  (q.shadow.filter fun e => e.level == q.level && e.dest == .a n).foldl
    (fun (best : Option (Nat × Nat)) e =>
      match best with
      | some (i, v) => if e.issued ≥ i then some (e.issued, e.value) else some (i, v)
      | none => some (e.issued, e.value)) none |>.map (·.2)

/-- a.in: An with every earlier bundle's write of the same level (R56, R90). -/
def accIn (g : Regs) (q : Run) (n : Nat) : W72 :=
  match pendingA q n with
  | some v => BitVec.ofNat 72 v
  | none => g.aOf n

/-! ### Exceptions -/

/-- An exception of a bundle, with the fields of its record (R161, R162). -/
structure Exc where
  /-- CAUSE -/
  cause : Nat
  /-- SUB -/
  sub : Nat := 0
  /-- POS -/
  pos : Nat := 0
  /-- DETAIL -/
  detail : Int := 0
  /-- PN -/
  pn : Nat := 0
  /-- LOP -/
  lop : Nat := 0
  /-- QD -/
  qd : Nat := 0
  /-- BOUND -/
  bound : Nat := 0
  /-- flags set before the handler's first bundle (R92, R127) -/
  raised : Raised := {}
deriving DecidableEq, Repr

/-- Cause codes (R159): ILL. -/
def causeILL : Nat := 0x1
/-- PARCEL. -/
def causePARCEL : Nat := 0x2
/-- ALIGN. -/
def causeALIGN : Nat := 0x3
/-- BCHK. -/
def causeBCHK : Nat := 0x4
/-- FP. -/
def causeFP : Nat := 0x6
/-- AGV. -/
def causeAGV : Nat := 0x7
/-- RSTK. -/
def causeRSTK : Nat := 0x8
/-- OVERRUN. -/
def causeOVERRUN : Nat := 0x9
/-- LOU. -/
def causeLOU : Nat := 0xA
/-- MEMERR. -/
def causeMEMERR : Nat := 0xB
/-- PRIV. -/
def causePRIV : Nat := 0xC
/-- VECLEN. -/
def causeVECLEN : Nat := 0xD
/-- STEP. -/
def causeSTEP : Nat := 0xE
/-- BREAK. -/
def causeBREAK : Nat := 0xF

/-! ### Parcels -/

/-- BASE of a descriptor (R50). -/
def pdBase (d : W128) : Nat := fld d 0 48
/-- SIZE. -/
def pdSize (d : W128) : Nat := fld d 64 48
/-- TGT: 0 BANK, 1 IM, 2 POOL, 3 HBM, 4 HOST, 5 ATLAS, 6 SYS. -/
def pdTgt (d : W128) : Nat := fld d 112 3
/-- R. -/
def pdR (d : W128) : Bool := bitOf d 116
/-- W. -/
def pdW (d : W128) : Bool := bitOf d 117
/-- X. -/
def pdX (d : W128) : Bool := bitOf d 118
/-- SV. -/
def pdSV (d : W128) : Bool := bitOf d 120
/-- V. -/
def pdV (d : W128) : Bool := bitOf d 127

/-- The ranges of R49 that carry a target space, as first address and length. -/
def spaceRanges : Nat → List (Nat × Nat)
  | 0 => [(0x0, 0x10000), (0x10000, 0x10000)]
  | 1 => [(0x20000, 0x20000)]
  | 2 => [(0x800000, 0x200000)] ++ (List.range 32).map fun b => (0x10000000 + b * 0x200000, 0x200000)
  | 3 => [(0x1000000000, 0x1000000000)]
  | 4 => [(0x20000000000, 0x20000000000)]
  | 5 => (List.range 64).map fun i => (0x80000000000 + i * 0x1000000000, 0x1000000000)
  | 6 => [(0x1000000, 0x8000000), (0x20000000, 0x1000000), (0x40000000, 0x2000000)]
  | _ => []

/-- A descriptor is valid as written (R51); `privNext` is CTXCFG.PRIV as it applies at the next start. -/
def pdValid (privNext : Bool) (d : W128) : Bool :=
  fld d 48 16 == 0 && !bitOf d 115 && fld d 121 6 == 0 && pdTgt d != 7 &&
  ((spaceRanges (pdTgt d)).any fun r =>
    decide (r.1 ≤ pdBase d ∧ pdBase d < r.1 + r.2 ∧ pdBase d + pdSize d ≤ r.1 + r.2)) &&
  (pdTgt d != 6 || privNext)

/-- A descriptor as the reed stores it: an invalid one with V = 0 (R51). -/
def pdStored (privNext : Bool) (d : W128) : W128 := if pdValid privNext d then d else putBit d 127 false

/-- The kinds of access a parcel check knows (R52). -/
inductive AccKind where
  | read | write | fetch
deriving DecidableEq, Repr

/-- An address in units falls in a register page or an IM range of R49. -/
def strictPlace (s : State) (r unit a : Nat) : Bool :=
  match placeOf s r (a / unit) with
  | .page _ => true
  | .im _ => true
  | _ => false

/-- The check of R52, in its order: the address in units, or the exception. -/
def parcelCheck (s : State) (r : Nat) (g : Regs) (pn : Nat) (d : W128) (off : Int) (w : Nat) (kind : AccKind) :
    Except Exc Nat :=
  let unit := g.unit
  let fault : Nat → Nat → Exc := fun cause sub => { cause := cause, sub := sub, detail := off, pn := pn }
  let rights := match kind with
    | .read => pdR d
    | .write => pdW d && !(pdTgt d == 1 && !(g.priv && g.survey))
    | .fetch => pdX d
  if !pdV d then .error (fault causePARCEL 1)
  else if pdSV d && !g.priv then .error (fault causePRIV 0)
  else if !rights then .error (fault causePARCEL 2)
  else if off < 0 ∨ off + w > ((pdSize d * unit : Nat) : Int) then .error (fault causePARCEL 3)
  else if g.survey && decide (off.toNat % w ≠ 0) &&
      (pdTgt d == 1 || strictPlace s r unit (pdBase d * unit + off.toNat)) then .error (fault causeALIGN w)
  else .ok (pdBase d * unit + off.toNat)

/-- The check of an access through an index register: a parcel that is not BANK is a RIGHTS fault (R71). -/
def indexCheck (s : State) (r : Nat) (g : Regs) (pn : Nat) (off w : Nat) (kind : AccKind) : Except Exc Nat :=
  let d := g.pdOf pn
  match parcelCheck s r g pn d (off : Int) w kind with
  | .error e => .error e
  | .ok a =>
    if pdTgt d = 0 then .ok a
    else .error { cause := causePARCEL, sub := 2, detail := (off : Int), pn := pn }

/-! ### Reading memory -/

/-- The word addresses that `len` bytes from a 48-bit byte address touch. -/
def touched (byte len : Nat) : List Nat := (List.range ((byte + len - 1) / 2 - byte / 2 + 1)).map (byte / 2 + ·)

/-- The byte at a 48-bit byte address, as reed r names it. -/
def byteAt (s : State) (r byte : Nat) : Byte :=
  match (placeOf s r (byte / 2)).word with
  | some w => memGet s.mem (2 * w + byte % 2)
  | none => 0

/-- The value of `len` bytes from a byte address, lowest address in the low bits (R44). -/
def bytesAt (s : State) (r : Nat) : Nat → Nat → Nat
  | _, 0 => 0
  | byte, n + 1 => (byteAt s r byte).toNat + 2 ^ 8 * bytesAt s r (byte + 1) n

/-- The first word address of a range that holds an uncorrectable error. -/
def firstBad (s : State) (r : Nat) (ws : List Nat) : Option Nat := ws.find? fun a => placeBad s (placeOf s r a)

/-- The words a value of `len` bytes at a byte address is stored as, with their byte masks (R61). -/
def storeWords (byte len : Nat) (v : Nat) : List StoreWord :=
  (touched byte len).map fun a =>
    let at8 : Nat → Nat := fun i => if i < byte then 0 else field v (8 * (i - byte)) 8
    { addr := a, value := BitVec.ofNat 16 (at8 (2 * a) + 2 ^ 8 * at8 (2 * a + 1)),
      lo := decide (byte ≤ 2 * a), hi := decide (2 * a + 1 < byte + len) }

end Sys2Proof.Machine
end

