-- ==== Sys2Proof/Machine/Execute.lean ====
section
/-! DEFINITION. Sys2Proof/Machine/Execute.lean: what each syllable of a bundle does, read from the state before the bundle
(R41): its results with their latencies (R56), its accesses, its flags, its control transfer and its exception. -/

namespace Sys2Proof.Machine

/-- What a bundle's syllables read: the state before the bundle. -/
structure View where
  /-- the device -/
  s : State
  /-- the physical reed -/
  r : Nat
  /-- the context -/
  c : Nat
  /-- its registers -/
  g : Regs
  /-- its run state -/
  q : Run
  /-- its page registers -/
  page : CtxPage
  /-- the bundle's first address -/
  pc : W16
  /-- the next sequential bundle -/
  nxt : W16
  /-- the data of the bundle's far read, once they have arrived (R60) -/
  farData : Option Nat

/-- A control transfer or loop operation of the C slot. -/
inductive Ctl where
  | none
  | branch (target : W16)
  | indirect (target : W16)
  | call (target : W16)
  | callIndirect (target : W16)
  | ret
  | rfe (epc : W16) (fsw : W32)
  | loop (level1 : Bool) (le : W16) (count : W32) (fromReg : Bool)
  | rep (count : Nat) (isRep : Bool)
  | tend
  | flushi
  | brk (code : Nat)
deriving DecidableEq, Repr

/-- A far access of the S slot (R59 to R61). -/
structure Far where
  /-- it writes -/
  write : Bool
  /-- the parcel -/
  pn : Nat
  /-- its target space -/
  tgt : Nat
  /-- the first 48-bit byte address -/
  byte : Nat
  /-- bytes -/
  len : Nat
  /-- the words a store writes -/
  words : List StoreWord := []
deriving DecidableEq, Repr

/-- One result: register, value and latency. -/
structure Res where
  /-- register -/
  dest : Dest
  /-- value -/
  value : Nat
  /-- latency -/
  lat : Nat
deriving DecidableEq, Repr

/-- What one syllable does. -/
structure Eff where
  /-- results -/
  results : List Res := []
  /-- flags raised, and the latency they become visible with -/
  raised : Raised := {}
  /-- the latency of the flags -/
  rlat : Nat := 1
  /-- own-bank word offsets it reads (R58) -/
  reads : List Nat := []
  /-- own-bank word offsets it writes -/
  writes : List Nat := []
  /-- its multi-word groups in the banks: first word offset and length (R58) -/
  groups : List (Nat × Nat) := []
  /-- words it stores in the reed's own memories, by 48-bit word address -/
  store : List StoreWord := []
  /-- its far access -/
  far : Option Far := none
  /-- a circular update takes the extra beat (R59) -/
  slow : Bool := false
  /-- an access to the own IM (R59) -/
  im : Bool := false
  /-- a long-vector bundle's beats beyond the first (R144) -/
  longBeats : Nat := 0
  /-- words it stores at once in a far region (R143) -/
  longFar : List StoreWord := []
  /-- the words a long vector reads, for the gate words of R176 -/
  gateReads : List Nat := []
  /-- the long operation it issues (R105) -/
  issue : Option Station := none
  /-- the Q register it reads (R110) -/
  readsQ : Option Nat := none
  /-- the operation waits for the LOU to drain (R113, R114) -/
  drains : Bool := false
  /-- the WPD staging register after it (R82) -/
  staging : Option W128 := none
  /-- its control transfer -/
  ctl : Ctl := .none
  /-- its exception -/
  exc : Option Exc := none
deriving DecidableEq, Repr

/-- A syllable that faults. -/
def Eff.fault (e : Exc) : Eff := { exc := some e }

/-- A byte address from an address in units. -/
def Regs.byteOf (g : Regs) (a : Nat) : Nat := if g.survey then a else 2 * a

/-- A pointer's update by MODE and MSET, and whether it takes the extra beat (R59, R70). -/
def postModify (g : Regs) (mode set p w : Nat) : Nat × Bool :=
  let b := g.index g.b set
  let l := g.index g.l set
  match mode with
  | 0 => (p, false)
  | 1 => ((p + w) % 2 ^ g.width, false)
  | 2 => (circUpdate g.width p (g.stepOf set) b l, circSlow p (g.stepOf set) b l)
  | _ => (circUpdate g.width p (-(g.stepOf set)) b l, circSlow p (-(g.stepOf set)) b l)

/-- The words of a local access that count under R58. -/
def bankWords (byte len : Nat) : List Nat := (touched byte len).filter (· < 0x20000)

/-- The multi-word group of a local access (R58). -/
def bankGroup (byte len : Nat) : List (Nat × Nat) :=
  let ws := bankWords byte len
  if 2 ≤ ws.length then [(byte / 2, ws.length)] else []

/-- MEMERR of a word (R162). -/
def memErr (sub a pn : Nat) : Exc := { cause := causeMEMERR, sub := sub, detail := a, pn := pn }

/-- The latency of an index register's update and of a pointer that a syllable post-modifies. -/
def pointerRes (g : Regs) (y : Bool) (idx mode set p w : Nat) : List Res :=
  if mode = 0 then []
  else [{ dest := if y then .y idx else .x idx, value := (postModify g mode set p w).1, lat := 1 }]

/-! ### M slots -/

/-- The FP exception test: an enabled flag of an operation that may trap (R127). -/
def fpTraps (g : Regs) (fl : Nat) : Bool := decide (fl &&& fld g.fsw 21 5 ≠ 0) && !g.ntrap

/-- The sticky bits of floating-point flags (R126). -/
def fpRaised (fl : Nat) : Raised := { sticky := BitVec.ofNat 32 (fl <<< 11) }

/-- An M-MAC syllable (R72, R89, R90). -/
def evalMac (v : View) (o : MacOp) (w : W32) : Eff :=
  let g := v.g
  let n := fld w 22 2
  let bytes := if o.double then 4 else 2
  let width := if g.survey then bytes else bytes / 2
  let xp := g.index g.x n
  let yp := g.index g.y n
  match indexCheck v.s v.r g 0 xp width .read with
  | .error e => .fault e
  | .ok xa =>
    let xb := g.byteOf xa
    match indexCheck v.s v.r g 1 yp width .read with
    | .error e => { Eff.fault e with reads := bankWords xb bytes, groups := bankGroup xb bytes }
    | .ok ya =>
      let yb := g.byteOf ya
      let base : Eff :=
        { reads := bankWords xb bytes ++ bankWords yb bytes, groups := bankGroup xb bytes ++ bankGroup yb bytes
          slow := (postModify g (fld w 16 2) (fld w 14 2) xp width).2 ||
            (postModify g (fld w 12 2) (fld w 10 2) yp width).2 }
      match firstBad v.s v.r (touched xb bytes), firstBad v.s v.r (touched yb bytes) with
      | some a, _ => { base with exc := some (memErr 1 a 0) }
      | none, some a => { base with exc := some (memErr 1 a 1) }
      | none, none =>
        let ain := if o.accumulates then accIn g v.q n else 0
        let res := macResult o ain (bytesAt v.s v.r xb bytes) (bytesAt v.s v.r yb bytes)
        let fl := res.raised n
        if res.overflow.isSome && bitOf g.fsw fswAGE then
          { base with exc := some { cause := causeAGV, sub := n, raised := fl } }
        else
          { base with
            results := { dest := .a n, value := res.value.toNat, lat := 2 } ::
              (pointerRes g false n (fld w 16 2) (fld w 14 2) xp width ++
               pointerRes g true n (fld w 12 2) (fld w 10 2) yp width)
            raised := fl, rlat := 2 }

/-- An M-ACC syllable (R73, R96, R97). -/
def evalAcc (v : View) (o : AccOp) (w : W32) : Eff :=
  let g := v.g
  let n := fld w 22 2
  let sa := g.sOf (fld w 15 3)
  let sb := g.sOf (fld w 12 3)
  match o with
  | .mul | .mulu => { results := [{ dest := .m n, value := (mulResult o sa sb).toNat, lat := 3 }] }
  | _ =>
    let a := match o with
      | .aadd | .asub => accIn g v.q n
      | _ => g.aOf n
    let res := accResult o a (g.mOf n) sa sb (fld w 11 7)
    let fl := res.raised n
    if res.overflow.isSome && bitOf g.fsw fswAGE then { exc := some { cause := causeAGV, sub := n, raised := fl } }
    else { results := [{ dest := .a n, value := res.value.toNat, lat := 2 }], raised := fl, rlat := 2 }

/-! ### V slot -/

/-- The latency of a V-FP result (R56, R74). -/
def fpLatency (o : FpOp) (pr : Bool) : Nat :=
  match o with
  | .fadd | .fsub | .fmul | .fma | .fms | .fmin | .fmax => if pr then 4 else 3
  | _ => 2

/-- Where a V-FP result goes (R74). -/
def fpDest (o : FpOp) (fd : Nat) : Dest :=
  match o with
  | .fceq | .fclt | .fcle | .fcun => .p (fd % 8)
  | .fcvtf2i | .fmovf2s => .s (fd % 8)
  | _ => .f fd

/-- A V-FP syllable (R74, R121 to R137). -/
def evalFp (v : View) (o : FpOp) (w : W32) : Eff :=
  let g := v.g
  let pr := bitOf w 17
  let fd := fld w 12 5
  let fa := fld w 7 5
  let a := match o with
    | .fcvti2f | .fmovs2f => (g.sOf (fa % 8)).toNat
    | .fmovq => (Tab.get 0 v.q.q (fa % 8)).toNat
    | _ => (g.fOf fa).toNat
  let r := fpArith o (prFmt pr) (roundOf g.fsw) (ftzOf g.fsw) (g.fOf fd).toNat a (g.fOf (fld w 2 5)).toNat
  let readsQ := if o = .fmovq then some (fa % 8) else none
  if fpTraps g r.fl then { exc := some { cause := causeFP, sub := r.fl, raised := fpRaised r.fl }, readsQ := readsQ }
  else
    { results := [{ dest := fpDest o fd, value := r.bits, lat := fpLatency o pr }], raised := fpRaised r.fl
      rlat := fpLatency o pr, readsQ := readsQ }

/-- The mask of lanes that raised an enabled flag (R127). -/
def laneMask (g : Regs) (fls : List Nat) : Nat :=
  fls.zipIdx.foldl (fun m p => if p.1 &&& fld g.fsw 21 5 ≠ 0 then m + 2 ^ p.2 else m) 0

/-- The two F results of a V register (R122). -/
def vRes (n val lat : Nat) : List Res :=
  [{ dest := .f (2 * n), value := val % 2 ^ 64, lat := lat },
   { dest := .f (2 * n + 1), value := val / 2 ^ 64, lat := lat }]

/-- A V-VEC syllable (R75, R141). -/
def evalVec (v : View) (o : VecOp) (w : W32) : Eff :=
  let g := v.g
  let vd := fld w 12 4
  let (val, fl, fls) :=
    vecResult o (fld w 16 2) (roundOf g.fsw) (ftzOf g.fsw) (g.vOf vd) (g.vOf (fld w 8 4)) (g.vOf (fld w 4 4)) (fld w 4 4)
  if fpTraps g fl then
    { exc := some { cause := causeFP, sub := fl + laneMask g fls * 256, raised := fpRaised fl } }
  else { results := vRes vd val 3, raised := fpRaised fl, rlat := 3 }

/-- The words of a V-MEM local form (R76). -/
def vmemWords : VmemOp → Nat
  | .fldW | .fstW => 2
  | .fldQ | .fstQ => 4
  | .vld | .vst => 8
  | _ => 17

/-- A V-MEM local form (R76, R146, R147). -/
def evalVmemLocal (v : View) (o : VmemOp) (w : W32) : Eff :=
  let g := v.g
  let fr := fld w 15 5
  let y := bitOf w 14
  let idx := fld w 12 2
  let p := if y then g.index g.y idx else g.index g.x idx
  let n := vmemWords o
  let isStore := match o with
    | .fstW | .fstQ | .vst | .cst => true
    | _ => false
  match indexCheck v.s v.r g y.toNat p n (if isStore then .write else .read) with
  | .error e => .fault e
  | .ok a =>
    let byte := g.byteOf a
    let ptr := pointerRes g y idx (fld w 10 2) (fld w 8 2) p n
    let base : Eff := { groups := bankGroup byte (2 * n), slow := (postModify g (fld w 10 2) (fld w 8 2) p n).2 }
    if isStore then
      let val := match o with
        | .fstW => (g.fOf fr).toNat % 2 ^ 32
        | .fstQ => (g.fOf fr).toNat
        | .vst => g.vOf (fr % 16)
        | _ => wordsValue (contourEncode
            ((List.range 16).map fun i => BitVec.ofNat 32 (lane 32 (g.vOf (fr % 16 + i / 4)) (i % 4))))
      { base with writes := bankWords byte (2 * n), store := storeWords byte (2 * n) val, results := ptr }
    else
      let base := { base with reads := bankWords byte (2 * n) }
      match firstBad v.s v.r (touched byte (2 * n)) with
      | some b => { base with exc := some (memErr 1 b y.toNat) }
      | none =>
        let val := bytesAt v.s v.r byte (2 * n)
        match o with
        | .fldW | .fldQ => { base with results := { dest := .f fr, value := val, lat := 2 } :: ptr }
        | .vld => { base with results := vRes (fr % 16) val 2 ++ ptr }
        | _ =>
          let block := valueWords 17 val
          if contourOk block then
            let ls := contourDecode block (fld w 6 2)
            { base with results := vRes (fr % 16) (fromLanes 32 (ls.map (·.toNat))) 2 ++ ptr }
          else { base with exc := some (memErr 0x20 a y.toNat) }

/-- The read charge of a place for reed r (R59, R179). -/
def chargeOf (r : Nat) : Place → Nat
  | .pool b _ => if b = r / 17 then 8 else 40
  | .hbm _ => 480
  | _ => 40

/-- The tick's frequency in Hz (R13, R396). -/
def tickHz (s : State) : Nat := if bitOf s.mer.cfg 0 then 903168000 else 983040000

/-- The charge of a HOST or ATLAS read for a timeout field (R59). -/
def timeoutCharge (s : State) (t : Nat) : Nat := ((max t 1) * 16 * 1500000000 + tickHz s - 1) / tickHz s

/-- The read charge of a far access by target space (R59). -/
def farCharge (s : State) (r : Nat) (tgt addr : Nat) : Nat :=
  let tmo := (reedOf s r).page.farTmo
  match tgt with
  | 4 => timeoutCharge s (fld tmo 0 16)
  | 5 => timeoutCharge s (fld tmo 16 16)
  | _ => chargeOf r (placeOf s r addr)

/-- One element of 32 bits of a parcel, by word address (R142). -/
def elemAt (s : State) (r a : Nat) : Nat := bytesAt s r (2 * a) 4

/-- A read of an HBM page that is served from the reserve, as a reed read takes it (R190). -/
def reBacked (s : State) (r a : Nat) : Bool :=
  match placeOf s r a with
  | .hbm o =>
    match Tab.get .inHbm s.hbm.back (o / 2 ^ 20) with
    | .backed _ => true
    | _ => false
  | _ => false

/-- The first word of a range that a long vector cannot read: MEMERR 0x01 in the own banks, 0x04 elsewhere (R143, R162,
R190). -/
def longBad (v : View) (tgt pn a n : Nat) : Option Exc :=
  let ws := (List.range (2 * n)).map (a + ·)
  match ws.find? fun x => placeBad v.s (placeOf v.s v.r x) || reBacked v.s v.r x with
  | some x => some (memErr (if tgt = 0 then 1 else 4) x pn)
  | none => none

/-- The bank of a word offset: 0 X, 1 Y. -/
def bankOf (a : Nat) : Nat := a / 0x10000

/-- The beats of a long vector beyond the first (R144); `ss` are its streams, by target space and first address. -/
def longVecBeats (s : State) (r n : Nat) (ss : List (Nat × Nat)) : Nat :=
  let inBank : Nat → Nat := fun b => (ss.filter fun p => p.1 == 0 && bankOf p.2 == b).length
  let w := 2 * max (inBank 0) (inBank 1)
  let rate := min 4 (8 / w)
  let g := (n + rate - 1) / rate
  let mis := ss.any fun p => p.1 == 0 && p.2 % 8 != 0
  let far := ss.foldl (fun c p => if p.1 = 0 then c else max c (farCharge s r p.1 p.2)) 0
  (g - 1) + mis.toNat + far

/-- The lowest element that raised an enabled flag, and the flags of all (R127, R143). -/
def longFlags (g : Regs) (fls : List Nat) : Nat × Nat :=
  (fls.foldl (· ||| ·) 0, (fls.findIdx? fun f => decide (f &&& fld g.fsw 21 5 ≠ 0)).getD 0)

/-- LVCPY and LVADDF (R142 to R144). -/
def evalLong (v : View) (o : VmemOp) (w : W32) : Eff :=
  let g := v.g
  let ps := fld w 16 4
  let pt := fld w 12 4
  let os := (g.sOf (fld w 9 3)).toNat
  let ot := (g.sOf (fld w 6 3)).toNat
  let n := (g.sOf (fld w 3 3)).toNat
  let ds := g.pdOf ps
  let dt := g.pdOf pt
  let add := decide (o = .lvaddf)
  if n = 0 ∨ n > 256 then .fault { cause := causeVECLEN, detail := n }
  else
    match parcelCheck v.s v.r g ps ds os (2 * n) .read with
    | .error e => .fault e
    | .ok sa =>
      match (if add then parcelCheck v.s v.r g pt dt ot (2 * n) .read else .ok 0) with
      | .error e => .fault e
      | .ok _ =>
        match parcelCheck v.s v.r g pt dt ot (2 * n) .write with
        | .error e => .fault e
        | .ok ta =>
          let badT := fun t : Nat => t == 1 || t == 4 || t == 5 || t == 6
          let rightsOf := fun (pn o : Nat) => ({ cause := causePARCEL, sub := 2, detail := (o : Int), pn := pn } : Exc)
          if badT (pdTgt ds) then .fault (rightsOf ps os)
          else if badT (pdTgt dt) || (pdTgt ds != 0 && pdTgt dt != 0) then .fault (rightsOf pt ot)
          else
            let streams := [(pdTgt ds, sa), (pdTgt dt, ta)] ++ (if add then [(pdTgt dt, ta)] else [])
            let range : Nat → List Nat := fun a => (List.range (2 * n)).map (a + ·)
            let base : Eff :=
              { longBeats := longVecBeats v.s v.r n streams
                gateReads := range sa ++ (if add then range ta else []) }
            match longBad v (pdTgt ds) ps sa n, (if add then longBad v (pdTgt dt) pt ta n else none) with
            | some e, _ => { base with exc := some e }
            | none, some e => { base with exc := some e }
            | none, none =>
              let srcs := (List.range n).map fun i => elemAt v.s v.r (sa + 2 * i)
              let sums : List FRes :=
                if add then (srcs.zipIdx).map fun p =>
                  fAdd f32 (roundOf g.fsw) (ftzOf g.fsw) (elemAt v.s v.r (ta + 2 * p.2)) p.1
                else srcs.map fun x => { bits := x }
              let (fl, lowest) := longFlags g (sums.map (·.fl))
              if fpTraps g fl then
                { base with exc := some { cause := causeFP, sub := fl + lowest * 2 ^ 16, raised := fpRaised fl } }
              else
                let words := storeWords (2 * ta) (4 * n) (fromLanes 32 (sums.map (·.bits)))
                if pdTgt dt = 0 then { base with store := words, raised := fpRaised fl }
                else { base with longFar := words, raised := fpRaised fl }

/-! ### Q slot -/

/-- The 64-bit operand of a Q-LOU field (R77). -/
def louOperand (g : Regs) (o : LouOp) (f : Nat) : W64 :=
  match o with
  | .lmul64 | .lmulh64 => g.sOf (2 * (f / 2 % 4) + 1) ++ g.sOf (2 * (f / 2 % 4))
  | .fdiv | .fsqrt | .exp2 | .log2 | .sin2pi | .tanh | .rsqrt => g.fOf f
  | _ => (g.sOf (f % 8)).setWidth 64

/-- A Q-LOU syllable (R77, R105, R113); the issue number and clock are filled in when it issues. -/
def evalLou (v : View) (o : LouOp) (w : W32) : Eff :=
  match o with
  | .lbar => { drains := true }
  | _ =>
    { issue := some
        { ctx := v.c, op := o, pr := bitOf w 4, rm := roundOf v.g.fsw, ftz := ftzOf v.g.fsw
          constTime := v.g.constTime, a := louOperand v.g o (fld w 10 5), b := louOperand v.g o (fld w 5 5)
          qd := fld w 15 3, fpc := v.pc, dze := o.isDivide && bitOf v.g.fsw fswDZE, seq := 0, issued := 0 } }

/-! ### S slot -/

/-- The destination and value of a load into GR (R78). -/
def loadRes (o : SmemOp) (gr : Nat) (val lat : Nat) : List Res :=
  match o with
  | .ldS => [{ dest := (grAt gr).dest, value := (wrap 32 (signed 16 val)).toNat, lat := lat }]
  | .ldQ => [{ dest := .s gr, value := val % 2 ^ 32, lat := lat }, { dest := .s (gr + 1), value := val / 2 ^ 32, lat := lat }]
  | _ => [{ dest := (grAt gr).dest, value := val, lat := lat }]

/-- The bytes of an S-MEM access (R78). -/
def SmemOp.bytes : SmemOp → Nat
  | .ldS | .ldSu | .stS | .staS => 2
  | .ldD | .stD | .staD => 4
  | .ldQ | .stQ => 8

/-- The S-MEM operation stores. -/
def SmemOp.isStore : SmemOp → Bool
  | .stS | .stD | .stQ | .staS | .staD => true
  | _ => false

/-- The bytes of an S-SVY access (R78). -/
def SvyOp.bytes : SvyOp → Nat
  | .ldb | .ldbu | .stb => 1
  | .ldh | .ldhu | .sth => 2
  | .ldw | .stw => 4

/-- The S-SVY operation stores. -/
def SvyOp.isStore : SvyOp → Bool
  | .stb | .sth | .stw => true
  | _ => false

/-- The value an S-SVY load gives S (R78). -/
def svyLoad (o : SvyOp) (val : Nat) : Nat :=
  match o with
  | .ldb => (wrap 32 (signed 8 val)).toNat
  | .ldh => (wrap 32 (signed 16 val)).toNat
  | _ => val

/-- The parcel of an S-slot access (R71, R78). -/
def accessParcel (w : W32) : Nat := if bitOf w 13 then fld w 9 4 else (bitOf w 12).toNat

/-- The pointer that an S-slot access names (R78). -/
def accessPtr (g : Regs) (w : W32) : Nat :=
  let idx := fld w 10 2
  if bitOf w 12 then g.index g.y idx else g.index g.x idx

/-- The width of a data access in addressing units (R52). -/
def Regs.accessWidth (g : Regs) (bytes : Nat) : Nat := if g.survey then bytes else bytes / 2

/-- The address of an S-slot access in units, or its exception: the parcel form, or the index form (R52, R71, R78). -/
def accessCheck (s : State) (r : Nat) (g : Regs) (w : W32) (bytes : Nat) (kind : AccKind) : Except Exc Nat :=
  let pn := accessParcel w
  if bitOf w 13 then
    parcelCheck s r g pn (g.pdOf pn) ((g.sOf (fld w 6 3)).toInt + signed 6 (fld w 0 6)) (g.accessWidth bytes) kind
  else indexCheck s r g pn (accessPtr g w) (g.accessWidth bytes) kind

/-- The pointer update of an S-slot access: none in the parcel form (R70, R78). -/
def accessUpdate (g : Regs) (w : W32) (bytes : Nat) : List Res :=
  if bitOf w 13 then []
  else pointerRes g (bitOf w 12) (fld w 10 2) (fld w 8 2) (fld w 6 2) (accessPtr g w) (g.accessWidth bytes)

/-- An S-slot access, both address forms (R71, R78): `val` the value to store, `dests` the results of a load by value and
latency. -/
def evalAccess (v : View) (w : W32) (bytes : Nat) (isStore : Bool) (val : Nat) (extra : Eff) (dests : Nat → Nat → List Res) :
    Eff :=
  let g := v.g
  let pn := accessParcel w
  match accessCheck v.s v.r g w bytes (if isStore then .write else .read) with
  | .error e => .fault e
  | .ok a =>
    let byte := g.byteOf a
    let ptr := accessUpdate g w bytes
    let base : Eff :=
      { extra with
        slow := !bitOf w 13 && (postModify g (fld w 8 2) (fld w 6 2) (accessPtr g w) (g.accessWidth bytes)).2, results := ptr }
    let tgt := pdTgt (g.pdOf pn)
    if tgt ≤ 1 then
      let base := { base with im := tgt == 1 && v.g.survey, groups := bankGroup byte bytes }
      if isStore then { base with writes := bankWords byte bytes, store := storeWords byte bytes val }
      else
        let base := { base with reads := bankWords byte bytes }
        match firstBad v.s v.r (touched byte bytes) with
        | some b => { base with exc := some (memErr 1 b pn) }
        | none => { base with results := dests (bytesAt v.s v.r byte bytes) 2 ++ ptr }
    else if isStore then
      { base with
        far := some { write := true, pn := pn, tgt := tgt, byte := byte, len := bytes, words := storeWords byte bytes val } }
    else
      let base := { base with far := some { write := false, pn := pn, tgt := tgt, byte := byte, len := bytes } }
      match v.farData with
      | some d => { base with results := dests d 1 ++ ptr }
      | none => base

/-- An S-MEM syllable (R78, R94, R95). -/
def evalSmem (v : View) (o : SmemOp) (w : W32) : Eff :=
  let g := v.g
  let gr := fld w 14 6
  match o with
  | .staS | .staD =>
    let n := if o = .staS then 16 else 32
    let (x, sat) := readOut n g.fsw (gr - 0x28) (g.aOf (gr - 0x28)) (fld w 0 6)
    evalAccess v w o.bytes true (wrap n x).toNat { raised := Raised.bit fswSAT sat, rlat := 1 } (fun _ _ => [])
  | .stQ => evalAccess v w 8 true ((g.sOf gr).toNat + 2 ^ 32 * (g.sOf (gr + 1)).toNat) {} (fun _ _ => [])
  | .stS | .stD => evalAccess v w o.bytes true (g.grOf (grAt gr)).toNat {} (fun _ _ => [])
  | _ => evalAccess v w o.bytes false 0 {} (loadRes o gr)

/-- An S-SVY syllable (R78). -/
def evalSvy (v : View) (o : SvyOp) (w : W32) : Eff :=
  let gr := fld w 14 6
  evalAccess v w o.bytes o.isStore (v.g.sOf gr).toNat {} fun d lat => [{ dest := .s gr, value := svyLoad o d, lat := lat }]

/-- An S-ALU syllable (R79, R98, R99). -/
def evalAlu (v : View) (o : AluOp) (w : W32) : Eff :=
  let g := v.g
  let im := bitOf w 18
  let imm : W32 := if o.immSigned then wrap 32 (signed 6 (fld w 0 6)) else BitVec.ofNat 32 (fld w 0 6)
  let b := if im then imm else g.grOf (grAt (fld w 0 6))
  let a := if im && o == .mov then imm else g.grOf (grAt (fld w 6 6))
  let (res, ov) := aluResult o a b
  { results := [{ dest := (grAt (fld w 12 6)).dest, value := res.toNat, lat := 1 }], raised := Raised.bit fswOV ov }

/-- FEAT0 to FEAT3 of a physical reed (R62). -/
def featOf (s : State) (r i : Nat) : W32 :=
  match i with
  | 0 => BitVec.ofNat 32 (4 * 2 ^ 24 + 4 * 2 ^ 21 + 16 * 2 ^ 16 + 2 * 2 ^ 13 + 16 * 2 ^ 8 + 8 * 2 ^ 4 + 4)
  | 1 => BitVec.ofNat 32 (32 * 2 ^ 24 + 64 * 2 ^ 16 + 64 * 2 ^ 8 + 64)
  | 2 => 0x3FF#32
  | _ =>
    let base := 1 * 2 ^ 20 + r * 2 ^ 10
    match logicalOf s r with
    | some l => BitVec.ofNat 32 (base + l)
    | none => BitVec.ofNat 32 (base + 2 ^ 9)

/-- A special register as RDSR reads it (R81). -/
def readSr (v : View) (n : Nat) : W32 :=
  let l := v.q.loops
  let dom := ((reedOf v.s v.r).ctxOf v.c).sched.dom
  match n with
  | 0x00 => v.g.fsw
  | 0x01 => v.g.cfg
  | 0x02 => featOf v.s v.r 0
  | 0x03 => featOf v.s v.r 1
  | 0x04 => featOf v.s v.r 2
  | 0x05 => featOf v.s v.r 3
  | 0x06 => l.lc0
  | 0x07 => l.ls0.setWidth 32
  | 0x08 => l.le0.setWidth 32
  | 0x09 => l.lc1
  | 0x0A => l.ls1.setWidth 32
  | 0x0B => l.le1.setWidth 32
  | 0x0C => v.pc.setWidth 32
  | 0x0D => v.g.preds.setWidth 32
  | 0x0E => BitVec.ofNat 32 v.q.rsp
  | 0x0F => BitVec.ofNat 32 (v.c + dom * 16)
  | 0x10 => BitVec.ofNat 32 (now v.s)
  | _ => BitVec.ofNat 32 (now v.s / 2 ^ 32)

/-- What a WRSR writes (R81). -/
def writeSr (n : Nat) (x : W32) : List Res :=
  let one := fun d => [({ dest := d, value := x.toNat, lat := 1 } : Res)]
  match n with
  | 0x00 => one .fsw
  | 0x01 => one .cfg
  | 0x06 => one (.lc 0)
  | 0x07 => one (.ls 0)
  | 0x08 => one (.le 0)
  | 0x09 => one (.lc 1)
  | 0x0A => one (.ls 1)
  | 0x0B => one (.le 1)
  | _ => (List.range 7).map fun i => { dest := .p (i + 1), value := (bitOf x (i + 1)).toNat, lat := 1 }

/-- An S-MOV syllable (R80 to R82). -/
def evalMov (v : View) (o : MovOp) (w : W32) : Eff :=
  let g := v.g
  let d := fld w 17 3
  let toS := fun val : Nat => [({ dest := .s d, value := val, lat := 1 } : Res)]
  match o with
  | .movi =>
    let imm := fld w 0 16
    { results := toS (if bitOf w 16 then imm * 2 ^ 16 + fld (g.sOf d) 0 16 else (wrap 32 (signed 16 imm)).toNat) }
  | .movq =>
    let n := fld w 13 3
    { results := toS (fld (Tab.get 0 v.q.q n) (if bitOf w 16 then 32 else 0) 32), readsQ := some n }
  | .mva =>
    let n := fld w 15 2
    let (x, sat) := readOut 32 g.fsw n (g.aOf n) (fld w 9 6)
    { results := toS (wrap 32 x).toNat, raised := Raised.bit fswSAT sat }
  | .mvm => { results := toS (fld (g.mOf (fld w 15 2)) (if bitOf w 14 then 32 else 0) 32) }
  | .rdsr => { results := toS (readSr v (fld w 11 6)).toNat }
  | .wrsr => { results := writeSr (fld w 11 6) (g.sOf d) }
  | .rpd => { results := toS (fld (g.pdOf (fld w 13 4)) (32 * fld w 11 2) 32) }
  | .wpd =>
    let qw := fld w 11 2
    let st := putFld v.q.staging (32 * qw) 32 (g.sOf d).toNat
    let commit : List Res :=
      if qw = 3 then [{ dest := .pd (fld w 13 4), value := (pdStored (bitOf v.page.cfgNext 1) st).toNat, lat := 2 }] else []
    { results := commit, staging := some st }

/-! ### C slot -/

/-- A relative target (R85). -/
def relTarget (pc : W16) (w : W32) : W16 := pc + wrap 16 (signed 17 (fld w 0 17))

/-- The record area of depth d: the X-bank word offset of word 0 (R160). -/
def recordAt (p : CtxPage) (d : Nat) : Nat := (fld p.xrecLive 6 10 * 64 + 16 * d) % 2 ^ 16

/-- The word at an X-bank offset. -/
def xWord (s : State) (r off : Nat) : W16 := memWord s.mem (reedBase r + off)

/-- A C-BR syllable (R85, R153, R163). -/
def evalBr (v : View) (o : BrOp) (w : W32) : Eff :=
  let sa := (v.g.sOf (fld w 17 3)).setWidth 16
  let full := v.q.depth = 16 ∧ v.g.rso
  match o with
  | .br => { ctl := .branch (relTarget v.pc w) }
  | .bri => { ctl := .indirect sa }
  | .call => if full then .fault { cause := causeRSTK, sub := 1 } else { ctl := .call (relTarget v.pc w) }
  | .calli => if full then .fault { cause := causeRSTK, sub := 1 } else { ctl := .callIndirect sa }
  | .ret => if v.q.depth = 0 ∧ v.g.rso then .fault { cause := causeRSTK, sub := 2 } else { ctl := .ret }
  | .rfe =>
    if v.q.level = 0 then .fault { cause := causeRSTK, sub := 3 }
    else
      let a := recordAt v.page (v.q.level - 1)
      match firstBad v.s v.r [a + 3, a + 6, a + 7] with
      | some b => .fault (memErr 1 b 0)
      | none => { ctl := .rfe (xWord v.s v.r (a + 3)) (xWord v.s v.r (a + 7) ++ xWord v.s v.r (a + 6)) }

/-- A C-LOOP syllable (R86). -/
def evalLoop (v : View) (o : LoopOp) (w : W32) : Eff :=
  match o with
  | .loop =>
    let fromReg := bitOf w 18
    let n : W32 := if fromReg then v.g.sOf (fld w 15 3) else BitVec.ofNat 32 (fld w 10 8 + 1)
    { ctl := .loop (bitOf w 19) (v.pc + BitVec.ofNat 16 (fld w 0 10)) n fromReg }
  | .rep => { ctl := .rep (fld w 0 16 + 1) true }
  | .repi => { ctl := .rep (fld w 0 16 + 1) false }

/-- A general register as BCHK reads it: its bits, unsigned (R87). -/
def grBits (g : Regs) (c : Nat) : Nat :=
  match grAt c with
  | .nr n => g.index g.nr n
  | x => (g.grOf x).toNat

/-- A C-CTL syllable (R87). -/
def evalCtl (v : View) (o : CtlOp) (w : W32) : Eff :=
  match o with
  | .nop => {}
  | .tend => { ctl := .tend, drains := true }
  | .flushi => { ctl := .flushi }
  | .break => { ctl := .brk (fld w 0 16) }
  | .bchk =>
    let i := grBits v.g (fld w 14 6)
    let pf := bitOf w 13
    let pn := fld w 9 4
    let bound := if pf then pdSize (v.g.pdOf pn) * v.g.unit else grBits v.g (fld w 7 6)
    if i ≥ bound then
      .fault { cause := causeBCHK, sub := pf.toNat, detail := (i : Int), pn := if pf then pn else 0, bound := bound }
    else {}

/-- What a syllable does, its guard taken as true (R72 to R87). -/
def evalOp (v : View) (o : SylOp) (w : W32) : Eff :=
  match o with
  | .mac o => evalMac v o w
  | .acc o => evalAcc v o w
  | .fp o => evalFp v o w
  | .vec o => evalVec v o w
  | .vmem .lvcpy => evalLong v .lvcpy w
  | .vmem .lvaddf => evalLong v .lvaddf w
  | .vmem o => evalVmemLocal v o w
  | .lou o => evalLou v o w
  | .smem o => evalSmem v o w
  | .svy o => evalSvy v o w
  | .alu o => evalAlu v o w
  | .mov o => evalMov v o w
  | .br o => evalBr v o w
  | .loop o => evalLoop v o w
  | .ctl o => evalCtl v o w

/-- What a syllable does: nothing where its guard reads 0 (R66). -/
def evalSyl (v : View) (w : W32) : Eff :=
  match decodeOp w with
  | some o => if v.g.pOf (pg w) then evalOp v o w else {}
  | none => {}

end Sys2Proof.Machine
end

