-- ==== Sys2Proof/Machine/Asp.lean ====
section
/-! DEFINITION. Sys2Proof/Machine/Asp.lean: the audio serial ports (R224 to R240, R420). -/

namespace Sys2Proof.Machine

/-- A port. -/
def aspOf (s : State) (n : Nat) : Asp := Tab.get {} s.asp n
/-- A port changed. -/
def setAsp (n : Nat) (a : Asp) (s : State) : State := { s with asp := Tab.set s.asp n a }
/-- The BAR0 page of a port (R224). -/
def aspPage (n : Nat) : Nat := 0x100 + n
/-- The BAR0 byte offset of a register of a port. -/
def aspOff (n o : Nat) : Nat := 0x100000 + 0x1000 * n + o

/-! ### The registers (R225, R240) -/

/-- CFG.DOM. -/
def Asp.dom (a : Asp) : Nat := fld a.cfg 22 3
/-- CFG.MASTER. -/
def Asp.master (a : Asp) : Bool := bitOf a.cfg 21
/-- CFG.FMT. -/
def Asp.fmt (a : Asp) : Nat := fld a.cfg 12 3
/-- Ns, the slots of a frame (R225). -/
def Asp.ns (a : Asp) : Nat := match a.fmt with
  | 2 => 8
  | 3 => 16
  | 4 => 32
  | _ => 2
/-- SW, the slot width in bits (R225). -/
def Asp.sw (a : Asp) : Nat := 16 + 8 * fld a.cfg 15 2
/-- D, the data delay in bits (R225). -/
def Asp.delay (a : Asp) : Nat := if a.fmt = 0 then 1 else if a.fmt = 1 then 0 else fld a.cfg 17 1
/-- CFG.LOSSPOL is ZERO. -/
def Asp.lossZero (a : Asp) : Bool := fld a.cfg 10 2 == 1
/-- TIMING.BT. -/
def Asp.bt (a : Asp) : Nat := fld a.timing 0 16
/-- TIMING.FOFF. -/
def Asp.foff (a : Asp) : Nat := fld a.timing 16 16
/-- The nominal length of a frame in ticks. -/
def Asp.frameTicks (a : Asp) : Nat := a.ns * a.sw * a.bt

/-- PSTAT (R240). -/
def Asp.pstat (a : Asp) : W32 :=
  BitVec.ofNat 32 (a.lock.toNat * 2 ^ 31 + a.clkLoss.toNat * 2 ^ 30 + a.enerr * 2 ^ 26 + a.phase % 2 ^ 22)

/-- The tick of the first bit of slot `k` (R225). -/
def Asp.firstBit (a : Asp) (start k : Nat) : Nat := start + (k * a.sw + a.delay) * a.bt
/-- The tick at which the last bit of slot `k` is at the pin (R225). -/
def Asp.lastBit (a : Asp) (start k : Nat) : Nat := start + ((k + 1) * a.sw + a.delay) * a.bt

/-- A master drives BCLK and FS: a frame that began in Service has not ended (R7, R227, R236). -/
def Asp.clocking (s : State) (a : Asp) : Bool :=
  match a.frame with
  | some f => a.master && f.live && decide (now s < f.start + a.frameTicks)
  | none => false

/-- The first enable check of R226 that fails; 0 where all pass. -/
def aspCheck (s : State) (a : Asp) : Nat :=
  let d := domOf s a.dom
  let len := a.frameTicks
  if a.fmt > 4 ∨ fld a.cfg 15 2 = 3 then 1
  else if a.fmt ≤ 1 ∧ fld a.cfg 17 2 ≠ 0 then 2
  else if !d.active then 3
  else if a.bt = 0 ∨ tickHz s > 49152000 * a.bt then 4
  else if a.master ∧ (d.pfrac ≠ 0 ∨ len ≠ d.pint) then 5
  else if a.master ∧ a.foff ≥ d.pint then 6
  else if !a.master ∧ 100 * (max len d.pint - min len d.pint) > d.pint then 7
  else 0

/-- A payload of R239: port, a byte, domain and the tide number. -/
def aspPayload (n byte dom tide : Nat) : W64 :=
  BitVec.ofNat 64 (n * 2 ^ 48 + byte % 256 * 2 ^ 40 + dom * 2 ^ 32 + tide % 2 ^ 32)

/-! ### Enabling and disabling (R226, R236) -/

/-- The port stops at once: no frame, no lock. -/
def Asp.quiet (a : Asp) : Asp := { a with frame := none, prev := none, lock := false, seen := false }

/-- CTRL is written (R226, R236). -/
def aspCtrl (ag n : Nat) (v : W32) (s : State) : State :=
  let a := { aspOf s n with rxen := bitOf v 1, txen := bitOf v 2 }
  if bitOf v 0 then
    if a.en then setAsp n a s
    else
      let e := aspCheck s a
      if e ≠ 0 then refuseReg 5 ag (aspOff n 8) (setAsp n { a with enerr := e } s)
      else setAsp n { a.quiet with en := true, enerr := 0, loadAll := true, since := now s } s
  else setAsp n { a.quiet with en := false } s

/-- ASP_ENABLE (R226): CTRL is written with EN = 1; `v` gives RXEN and TXEN. -/
def execAspEnable (ag n : Nat) (v : W32) (s : State) : Out3 :=
  if 96 ≤ n then .refused .noSuchUnit else .next (atPage ag (aspOff n 8) (aspCtrl ag n (putBit v 0 true)) s)

/-- ASP_DISABLE (R236): CTRL is written with EN = 0. -/
def execAspDisable (ag n : Nat) (v : W32) (s : State) : Out3 :=
  if 96 ≤ n then .refused .noSuchUnit else .next (atPage ag (aspOff n 8) (aspCtrl ag n (putBit v 0 false)) s)

/-! ### Staging entries (R231, R233) -/

/-- A staging entry is loaded from its source's current words: 0 for a VACANT source (R367), and 0 with a report where a
word holds an uncorrectable error (R232). -/
def loadStaging (n k : Nat) (s : State) : State :=
  let a := aspOf s n
  let e := Tab.get 0 a.outsNow k
  let put (v : W32) (t : State) : State :=
    let b := aspOf t n
    setAsp n { b with staging := Tab.set b.staging k v, fresh := putBit b.fresh k true
                      loadDue := putBit b.loadDue k false } t
  match physOf s (outReed e) with
  | none => put 0 s
  | some p =>
    let words := (outWords e).map fun w => reedBase p + w
    match (outWords e).find? fun w => placeBad s (.bank (reedBase p + w)) with
    | some w =>
      fbRaise 0x0B04 (aspPayload n k a.dom (domOf s a.dom).tide)
        (irqSet (aspPage n) 0x10 (pageError (aspPage n) 0x0B04 (reedBase (outReed e) + w) (put 0 s)))
    | none =>
      let v := wordsValue (words.map (memWord s.mem))
      put (if bitOf e 26 then BitVec.ofNat 32 (v * 2 ^ 16) else BitVec.ofNat 32 v) s

/-- ASP_STAGING_LOAD (R231): the load that a reed's store to a source brings. -/
def execAspStagingLoad (n k : Nat) (s : State) : Out3 :=
  if 96 ≤ n ∨ 32 ≤ k then .refused .noSuchUnit
  else if bitOf (aspOf s n).loadDue k then .next (loadStaging n k s)
  else .next s

/-! ### Frames (R225, R227, R228, R234) -/

/-- The device state lets a port have frames (R420). -/
def aspState (st : DevState) : Bool := st == .service || st == .test || st == .recovery

/-- The writes of the slot maps and of LOOP_CTRL take effect, with the staging loads that this brings (R231, R234,
R238). -/
def aspApplyMaps (n : Nat) (s : State) : State :=
  let a := aspOf s n
  let ks := (List.range 32).filter fun k =>
    bitOf (Tab.get 0 a.outs k) 31 && (a.loadAll || Tab.get 0 a.outs k != Tab.get 0 a.outsNow k)
  ks.foldl (fun t k => loadStaging n k t)
    (setAsp n { a with loopNow := a.loop, slotsNow := a.slots, outsNow := a.outs, loadAll := false } s)

/-- A frame starts at `tf` as the frame of tide `t`. -/
def aspFrame (n tf t : Nat) (s : State) : State :=
  let s1 := aspApplyMaps n s
  let a := aspOf s1 n
  setAsp n { a with prev := a.frame
                    frame := some { start := tf, tide := t, live := s.glb.state == .service, loop := a.loopNow
                                    slots := a.slotsNow } } s1

/-- The port's frames are timed as a master's (R238). -/
def Asp.masterTimed (a : Asp) : Bool := a.master || a.loopNow == 3 || (a.loop == 3 && a.frame.isNone && !a.lock)

/-- The latest tide of a domain whose frame start, `foff` ticks into it, has passed. -/
def latestFrame (s : State) (d : Domain) (foff : Nat) : Option Nat :=
  if d.begun ∧ d.first + foff ≤ now s then
    some (min d.tide (((now s - foff - d.first + 1) * 65536 - 1) / d.period))
  else none

/-- A frame timed as a master's starts (R227): a port that leaves the SLOT depth with it, being a slave, waits for FS. -/
def masterFrame (n t : Nat) (s : State) : State :=
  let a := aspOf s n
  let tf := (domOf s a.dom).tideTick t + a.foff
  let s1 := aspFrame n tf t (setAsp n { a with phase := a.foff, lock := a.lock || a.master } s)
  let b := aspOf s1 n
  if b.masterTimed then s1 else setAsp n { b with frame := none, prev := none } s1

/-- ASP_FRAME_START (R227, R238): the port takes the latest frame start that has come, once. -/
def execAspFrameStart (n : Nat) (s : State) : Out3 :=
  if 96 ≤ n then .refused .noSuchUnit
  else
    let a := aspOf s n
    let d := domOf s a.dom
    match latestFrame s d a.foff with
    | some t =>
      let tf := d.tideTick t + a.foff
      let later := match a.frame with
        | some f => decide (f.start < tf)
        | none => true
      if a.en && a.masterTimed && d.active && aspState s.glb.state && later && decide (a.since + 64 ≤ tf) then
        .next (masterFrame n t s)
      else .next s
    | none => .next s

/-- A frame start at a spacing other than Ns × SW bit periods (R228). -/
def aspRealign (n : Nat) (s : State) : State :=
  let a := aspOf s n
  let slot := match a.frame with
    | some f => min f.got (a.ns - 1)
    | none => 0
  fbRaise 0x0B02 (aspPayload n slot a.dom (domOf s a.dom).tide)
    (irqSet (aspPage n) 4 (setAsp n { a with realign := satInc 0xFFFF a.realign, frame := none, prev := none } s))

/-- A slave locks, after a loss with RELOCK (R228, R235). -/
def aspLock (n : Nat) (s : State) : State :=
  let a := aspOf s n
  let d := domOf s a.dom
  let s1 := setAsp n { a with lock := true, clkLoss := false, loadAll := true, inTide := 0
                              slipFrom := if d.begun then d.tide else 0 } s
  if a.clkLoss then fbRaise 0x0B03 (aspPayload n 0 a.dom d.tide) (irqSet (aspPage n) 2 s1) else s1

/-- A slave's frame start: PHASE, and the frame of the present tide once the domain's first tide has begun (R228). -/
def aspSlaveFrame (n : Nat) (s : State) : State :=
  let a := aspOf s n
  let d := domOf s a.dom
  if d.begun then
    let s1 := setAsp n { a with phase := now s - d.tideTick d.tide, inTide := a.inTide + a.lock.toNat } s
    if a.lock then
      let s2 := aspFrame n (now s) d.tide s1
      let b := aspOf s2 n
      if b.loopNow = 3 then setAsp n { b with frame := none, prev := none } s2 else s2
    else s1
  else s

/-- ASP_SLAVE_FRAME_START (R228): FS takes its frame-start level; `periods` is the number of BCLK periods since the frame
start before it, where one was seen. -/
def execAspSlaveFrameStart (n periods : Nat) (s : State) : Out3 :=
  if 96 ≤ n then .refused .noSuchUnit
  else
    let a := aspOf s n
    if a.en && !a.master && a.loopNow != 3 && (domOf s a.dom).active && aspState s.glb.state then
      let ok := a.seen && periods == a.ns * a.sw
      let s1 := setAsp n { a with seen := true } s
      .next (aspSlaveFrame n (if a.lock then (if ok then s1 else aspRealign n s1) else if ok then aspLock n s1 else s1))
    else .next s

/-! ### Input slots (R229, R230, R420) -/

/-- A word and its token reach a logical reed's X-bank from an input slot: the SW-bit value `v` (R229, R230). -/
def ingressWrite (e : W32) (sw v : Nat) (s : State) : State :=
  match physOf s (fld e 16 9) with
  | none => s
  | some p =>
    let a := reedBase p + fld e 0 16
    let ws : List PlacedWord :=
      if bitOf e 25 then [(.bank a, { addr := a, value := BitVec.ofNat 16 (v / 2 ^ (sw - 16)) })]
      else
        let w := v * 2 ^ (32 - sw)
        [(.bank a, { addr := a, value := BitVec.ofNat 16 w }),
         (.bank (a + 1), { addr := a + 1, value := BitVec.ofNat 16 (w / 2 ^ 16) })]
    let s1 := deviceWrite ws s
    if bitOf e 30 then setTokenLogical (fld e 16 9) (fld e 26 4) s1 else s1

/-- Ingress is made for a frame in the present device state (R420). -/
def aspIngressOpen (s : State) (a : Asp) (f : AspFrame) : Bool :=
  a.en && a.rxen &&
    match s.glb.state with
    | .service => true
    | .test | .recovery => !a.master || f.loop ≥ 2
    | _ => false

/-- The value of input slot `k`: what is on DIN, or what output slot `k` emits in the frame (R238). -/
def inputValue (a : Asp) (f : AspFrame) (k v : Nat) : Nat :=
  (match f.loop with
    | 0 => v
    | 1 => Tab.get 0 f.pins k
    | _ => Tab.get 0 f.vals k) % 2 ^ a.sw

/-- The frame whose next input slot is `k` with its last bit at the pin: the earlier of the two open frames first (R230). -/
def ingressFrame (s : State) (a : Asp) (k : Nat) : Option (Bool × AspFrame) :=
  let fits (f : AspFrame) : Bool := f.got == k && (!a.masterTimed || decide (a.lastBit f.start k ≤ now s))
  match a.prev with
  | some p =>
    if p.got < a.ns then (if fits p then some (true, p) else none)
    else match a.frame with
      | some f => if fits f then some (false, f) else none
      | none => none
  | none => match a.frame with
    | some f => if fits f then some (false, f) else none
    | none => none

/-- ASP_SLOT_INGRESS (R229): the last bit of input slot `k` is at the pin; `v` is the slot's value on DIN. -/
def execAspSlotIngress (n k v : Nat) (s : State) : Out3 :=
  if 96 ≤ n ∨ 32 ≤ k then .refused .noSuchUnit
  else
    let a := aspOf s n
    if a.ns ≤ k then .next s
    else match ingressFrame s a k with
      | none => .next s
      | some (old, f) =>
        let g := { f with got := k + 1 }
        let s1 := setAsp n (if old then { a with prev := some g } else { a with frame := some g }) s
        let e := Tab.get 0 f.slots k
        if bitOf e 31 && aspIngressOpen s a f then .next (ingressWrite e a.sw (inputValue a f k v) s1)
        else .next s1

/-! ### Output slots (R232, R233) -/

/-- What output slot `k` sends, SW bits (R232, R233): zero where V = 0 or TXEN = 0. -/
def Asp.outValue (a : Asp) (k : Nat) : Nat :=
  if a.txen && bitOf (Tab.get 0 a.outsNow k) 31 then (Tab.get 0 a.staging k).toNat / 2 ^ (32 - a.sw) else 0

/-- ASP_SLOT_EMIT (R232): the first bit of output slot `k`; the staging entry is moved to the shifter, and counts as stale
where nothing has loaded it since its last emission. -/
def execAspSlotEmit (n k : Nat) (s : State) : Out3 :=
  if 96 ≤ n ∨ 32 ≤ k then .refused .noSuchUnit
  else
    let a := aspOf s n
    match a.frame with
    | none => .next s
    | some f =>
      if k < a.ns ∧ f.sent = k ∧ (!a.masterTimed ∨ a.firstBit f.start k ≤ now s) then
        let e := Tab.get 0 a.outsNow k
        let vacant := physOf s (outReed e) == none
        let v := if vacant then 0 else a.outValue k
        let pin := if f.live && f.loop < 2 then v else 0
        let old := bitOf e 31 && !bitOf a.fresh k && !vacant
        .next (send (.slotOut n k pin)
          (setAsp n { a with frame := some { f with sent := k + 1, vals := Tab.set f.vals k v, pins := Tab.set f.pins k pin }
                             fresh := putBit a.fresh k false
                             stale := if old then satInc 0xFFFF a.stale else a.stale } s))
      else .next s

/-! ### Clock loss (R235) -/

/-- ASP_CLOCK_LOSS (R235): a slave sees no BCLK edge for 4 × BT ticks. -/
def execAspClockLoss (n : Nat) (s : State) : Out3 :=
  if 96 ≤ n then .refused .noSuchUnit
  else
    let a := aspOf s n
    if a.en && !a.master && !a.clkLoss then
      let slot := match a.frame with
        | some f => min f.got (a.ns - 1)
        | none => 0
      .next (fbRaise 0x0B01 (aspPayload n slot a.dom (domOf s a.dom).tide)
        (irqSet (aspPage n) 1
          (setAsp n { a.quiet with clkLoss := true, losses := satInc 0xFFFF a.losses, lostAt := now s } s)))
    else .next s

/-- ASP_LOSS_ZERO_WRITE (R235): under LOSSPOL ZERO, input slot `k` is written as zero at the instant of step 3 of a frame
that starts at the boundary plus the last PHASE. -/
def execAspLossZeroWrite (n k : Nat) (s : State) : Out3 :=
  if 96 ≤ n ∨ 32 ≤ k then .refused .noSuchUnit
  else
    let a := aspOf s n
    let d := domOf s a.dom
    let e := Tab.get 0 a.slotsNow k
    match latestFrame s d (a.lastBit a.phase k) with
    | some t =>
      if a.en && a.rxen && !a.master && a.clkLoss && a.lossZero && bitOf e 31 && decide (k < a.ns) && d.active &&
          aspState s.glb.state && decide (a.lostAt ≤ d.tideTick t + a.lastBit a.phase k) &&
          decide (Tab.get 0 a.zeroed k ≤ t) then
        .next (ingressWrite e a.sw 0 (setAsp n { a with zeroed := Tab.set a.zeroed k (t + 1) } s))
      else .next s
    | none => .next s

/-! ### Tides, domains and device states (R19, R228, R236, R420) -/

/-- A tide of a port's domain ends: a slave in lock that has not seen exactly one frame start slips (R228). -/
def aspEndTide (d n : Nat) (s : State) : State :=
  let a := aspOf s n
  let t := (domOf s d).tide
  if a.en ∧ a.dom = d ∧ !a.masterTimed ∧ a.lock then
    let s1 := setAsp n { a with inTide := 0 } s
    if a.inTide ≠ 1 ∧ a.slipFrom ≤ t then
      fbRaise 0x0B06 (aspPayload n (min a.inTide 255) d t)
        (irqSet (aspPage n) 8 (setAsp n { a with inTide := 0, tslip := satInc 0xFFFF a.tslip } s))
    else s1
  else s

/-- A domain stops being active (R19): a master finishes its frame, a slave stops at once. -/
def Asp.domainStop (d : Nat) (a : Asp) : Asp :=
  if a.dom = d ∧ a.en then (if a.master then { a with lock := false, loadAll := true } else a.quiet) else a

/-- A domain becomes active (R19, R227). -/
def Asp.domainStart (d tick : Nat) (a : Asp) : Asp := if a.dom = d then { a with since := max a.since tick } else a

/-- The device enters Service (R227, R236). -/
def Asp.enterService (tick : Nat) (a : Asp) : Asp :=
  if a.master then { a with frame := none, prev := none, since := max a.since tick } else a

/-- The device enters Start-up, Tussock or Dormant (R236, R420). A master's LOCK is set again by its first frame after the
return, which loads every staging entry (R231, DEDUCED, log entry 34). -/
def Asp.enterDark (a : Asp) : Asp := if a.master then { a with lock := false, loadAll := true } else a.quiet

/-! ### Register writes and counts (R234, R238, R240) -/

/-- A map entry as it is stored: one with V = 1, FMT 0 and OFF 0xFFFF is stored with V = 0 (R229, R231). -/
def mapEntry (fmtBit : Nat) (v : W32) : W32 × Bool :=
  if bitOf v 31 && !bitOf v fmtBit && fld v 0 16 == 0xFFFF then (putBit v 31 false, false) else (v, true)

/-- SLOTMAPk is written (R229, R234). -/
def writeSlotmap (ag n k : Nat) (v : W32) (s : State) : State :=
  let a := aspOf s n
  let e := mapEntry 25 v
  let s1 := setAsp n { a with slots := Tab.set a.slots k e.1 } s
  if e.2 then s1 else refuseReg 5 ag (aspOff n (0x40 + 4 * k)) s1

/-- OSLOTMAPk is written (R231, R234). -/
def writeOslotmap (ag n k : Nat) (v : W32) (s : State) : State :=
  let a := aspOf s n
  let e := mapEntry 26 (v &&& 0xC5FFFFFF#32)
  let s1 := setAsp n { a with outs := Tab.set a.outs k e.1 } s
  if e.2 then s1 else refuseReg 5 ag (aspOff n (0xC0 + 4 * k)) s1

/-- SLOTMAP_WRITE (R234). -/
def execSlotmapWrite (ag n k : Nat) (v : W32) (s : State) : Out3 :=
  if 96 ≤ n ∨ 32 ≤ k then .refused .noSuchUnit
  else .next (atPage ag (aspOff n (0x40 + 4 * k)) (writeSlotmap ag n k v) s)

/-- OSLOTMAP_WRITE (R231). -/
def execOslotmapWrite (ag n k : Nat) (v : W32) (s : State) : Out3 :=
  if 96 ≤ n ∨ 32 ≤ k then .refused .noSuchUnit
  else .next (atPage ag (aspOff n (0xC0 + 4 * k)) (writeOslotmap ag n k v) s)

/-- ASP_LOOP_CTRL_WRITE (R238). -/
def execAspLoopCtrlWrite (ag n depth : Nat) (s : State) : Out3 :=
  if 96 ≤ n then .refused .noSuchUnit
  else .next (atPage ag (aspOff n 0x28) (fun t => setAsp n { aspOf t n with loop := depth % 4 } t) s)

/-- What a read of ASP.CNT_A returns, and the state after it (R387). -/
def takeAspCntA (n : Nat) (t : State) : W32 × State :=
  let a := aspOf t n
  (BitVec.ofNat 32 (a.stale * 2 ^ 16 + a.tslip), setAsp n { a with stale := 0, tslip := 0 } t)

/-- ASP_CNT_A_READ (R240). -/
def execAspCntARead (ag n : Nat) (s : State) : Out3 :=
  if 96 ≤ n then .refused .noSuchUnit
  else .next (readPage ag (aspOff n 0x14C) (takeAspCntA n) s)

/-- What a read of ASP.CNT_B returns, and the state after it (R387). -/
def takeAspCntB (n : Nat) (t : State) : W32 × State :=
  let a := aspOf t n
  (BitVec.ofNat 32 (a.realign * 2 ^ 16 + a.losses), setAsp n { a with realign := 0, losses := 0 } t)

/-- ASP_CNT_B_READ (R240). -/
def execAspCntBRead (ag n : Nat) (s : State) : Out3 :=
  if 96 ≤ n then .refused .noSuchUnit
  else .next (readPage ag (aspOff n 0x150) (takeAspCntB n) s)

end Sys2Proof.Machine
end

