-- ==== Sys2Proof/Machine/Silt.lean ====
section
/-! DEFINITION. Sys2Proof/Machine/Silt.lean: the Silt bitstream: blocks, headers and the Rice decoder (R215 to R219), and
the raw sample layout. -/

namespace Sys2Proof.Machine

/-! ### Fetched data -/

/-- What reading fetched data gives: a 64-byte line that has not arrived, a fault with its cause and address, or the
value. -/
inductive Fetch (α : Type) where
  | need (line : Nat)
  | bad (cause addr : Nat)
  | ok (v : α)
deriving DecidableEq, Repr

/-- Sequencing of reads. -/
def Fetch.bind {α β : Type} (x : Fetch α) (f : α → Fetch β) : Fetch β :=
  match x with
  | .need l => .need l
  | .bad c a => .bad c a
  | .ok v => f v

/-- `n` consecutive words from an offset, through a reader of one word. -/
def readWords (rd : Nat → Fetch W16) : Nat → Nat → Fetch (List W16)
  | _, 0 => .ok []
  | a, n + 1 => (rd a).bind fun w => (readWords rd (a + 1) n).bind fun ws => .ok (w :: ws)

/-! ### Bits (R217) -/

/-- The bits of a word, bit 15 first. -/
def wordBits (w : W16) : List Bool := (List.range 16).map fun i => bitOf w (15 - i)

/-- The unsigned value of a string of bits, the first the most significant. -/
def bitsValue (bs : List Bool) : Nat := bs.foldl (fun v b => 2 * v + b.toNat) 0

/-- An unsigned field of `n` bits, and the rest; none where the string is too short. -/
def readBits (n : Nat) (bs : List Bool) : Option (Nat × List Bool) :=
  if bs.length < n then none else some (bitsValue (bs.take n), bs.drop n)

/-- A two's-complement field of `n` bits. -/
def readSigned (n : Nat) (bs : List Bool) : Option (Int × List Bool) :=
  (readBits n bs).map fun r => (signed n r.1, r.2)

/-- `k` two's-complement fields. -/
def readMany (n : Nat) : Nat → List Bool → Option (List Int × List Bool)
  | 0, bs => some ([], bs)
  | k + 1, bs =>
    match readSigned n bs with
    | none => none
    | some (v, bs1) => (readMany n k bs1).map fun r => (v :: r.1, r.2)

/-- The count of leading ones, at most `max`, and the rest; the 0 that ends a shorter run is taken (R218). -/
def readUnary : Nat → List Bool → Option (Nat × List Bool)
  | 0, bs => some (0, bs)
  | _ + 1, [] => none
  | m + 1, b :: bs => if b then (readUnary m bs).map fun r => (r.1 + 1, r.2) else some (0, bs)

/-! ### The Rice decoder (R218) -/

/-- Bits up to the highest 1 (R218). -/
def bitLength (v : Nat) : Nat := if v = 0 then 0 else Nat.log2 v + 1

/-- The prediction from the decoded samples, the latest first (R218). -/
def predict' (ord : Nat) (prev : List Int) : Int :=
  let x := fun i => prev.getD i 0
  match ord with
  | 0 => 0
  | 1 => x 0
  | 2 => 2 * x 0 - x 1
  | _ => 3 * x 0 - 3 * x 1 + x 2

/-- One coded residual u, and the rest; none where the bits run out or an escape is out of range (R218, R219). -/
def readResidual (w rp : Nat) (bs : List Bool) : Option (Nat × List Bool) :=
  match readUnary 24 bs with
  | none => none
  | some (n, bs1) =>
    if n = 24 then
      match readBits (w + 4) bs1 with
      | none => none
      | some (u, bs2) => if 2 ^ (w + 3) ≤ u then none else some (u, bs2)
    else (readBits rp bs1).map fun r => (n * 2 ^ rp + r.1, r.2)

/-- A value clamped to `w` bits. -/
def clampBits (w : Nat) (v : Int) : Int :=
  if v < -2 ^ (w - 1) then -2 ^ (w - 1) else if 2 ^ (w - 1) - 1 < v then 2 ^ (w - 1) - 1 else v

/-- The residual loop: `n` samples to go, the adaptive sum, decoded samples latest first (R218). -/
def riceLoop (w k ord : Nat) : Nat → Nat → List Int → List Bool → Option (List Int × List Bool)
  | 0, _, prev, bs => some (prev, bs)
  | n + 1, sum, prev, bs =>
    let rp := min 31 (bitLength sum - 5)
    match readResidual w rp bs with
    | none => none
    | some (u, bs1) =>
      let q : Int := if u % 2 = 0 then (u / 2 : Nat) else -(((u + 1) / 2 : Nat) : Int)
      riceLoop w k ord n ((sum + u - sum / 16) % 2 ^ 40) (clampBits w (predict' ord prev + q * 2 ^ k) :: prev) bs1

/-- The samples of a RICE payload, and the bits left. -/
def riceDecode (w k ord rpar : Nat) (bs : List Bool) : Option (List Int × List Bool) :=
  match readMany w ord bs with
  | none => none
  | some (warm, bs1) =>
    (riceLoop w k ord (64 - ord) (16 * 2 ^ rpar) warm.reverse bs1).map fun r => (r.1.reverse, r.2)

/-! ### Blocks (R216, R219) -/

/-- The bits of a source sample by width code (R199). -/
def sourceWidth (sw : Nat) : Nat := match sw with
  | 0 => 16 | 1 => 20 | 2 => 24 | _ => 32

/-- CHK over the decoded samples (R216). -/
def siltCheck (xs : List Int) : Nat :=
  ((List.range xs.length).foldl (fun t i => t + (i + 1) * ((xs.getD i 0) % 2 ^ 16).toNat) 0) % 1021

/-- LEN of a header. -/
def hdrLen (h : Nat) : Nat := field h 0 8

/-- A header whose fields alone make the block invalid (R219), with LEN checked where MODE fixes it (R217). -/
def headerBad (sw k h : Nat) : Bool :=
  let mode := field h 8 2
  let w := sourceWidth sw
  mode == 3 || field h 20 2 != sw ||
  (if mode = 0 then field h 17 3 != k else field h 10 2 != 0 || field h 12 5 != 0 || field h 17 3 != 0) ||
  (mode == 1 && hdrLen h != 4 * w) || (mode == 2 && hdrLen h != (w + 15) / 16) || (mode == 0 && decide (4 * w < hdrLen h))

/-- The samples of a block from its header and payload; none where the block is invalid (R216 to R219). -/
def decodeBlock (sw k h : Nat) (payload : List W16) : Option (List Int) :=
  let w := sourceWidth sw
  let bs := payload.flatMap wordBits
  let got : Option (List Int × List Bool) :=
    match field h 8 2 with
    | 0 => riceDecode w k (field h 10 2) (field h 12 5) bs
    | 1 => readMany w 64 bs
    | _ => (readSigned w bs).map fun (r : Int × List Bool) => (List.replicate 64 r.1, r.2)
  match got with
  | none => none
  | some (xs, rest) =>
    if headerBad sw k h || decide (16 ≤ rest.length) || rest.any id || siltCheck xs != field h 22 10 then none else some xs

/-- The two header words as one value (R216). -/
def readHeader (rd : Nat → Fetch W16) (off : Nat) : Fetch Nat :=
  (rd off).bind fun lo => (rd (off + 1)).bind fun hi => .ok (lo.toNat + 2 ^ 16 * hi.toNat)

/-- The cause of an invalid block (R202). -/
def causeDECODE : Nat := 6

/-- The block at an offset of a source of `limit` words: its samples and the offset after it (R215 to R219). -/
def blockAt (rd : Nat → Fetch W16) (limit sw k off : Nat) : Fetch (List Int × Nat) :=
  (readHeader rd off).bind fun h =>
    let stop := off + 2 + hdrLen h
    if headerBad sw k h || decide (limit < stop) then .bad causeDECODE off
    else (readWords rd (off + 2) (hdrLen h)).bind fun ws =>
      match decodeBlock sw k h ws with
      | some xs => .ok (xs, stop)
      | none => .bad causeDECODE off

/-- The offset `n` blocks on, by their LEN fields (R215); none at or beyond the end of the source. -/
def skipBlocks (rd : Nat → Fetch W16) (limit : Nat) : Nat → Nat → Fetch (Option Nat)
  | 0, off => .ok (if off < limit then some off else none)
  | n + 1, off =>
    if off < limit then (readHeader rd off).bind fun h => skipBlocks rd limit n (off + 2 + hdrLen h) else .ok none

/-- At least `n` samples of consecutive blocks from an offset (R207). -/
def blocksFrom (rd : Nat → Fetch W16) (limit sw k : Nat) : Nat → Nat → Fetch (List Int)
  | 0, _ => .ok []
  | m + 1, off =>
    (blockAt rd limit sw k off).bind fun r => (blocksFrom rd limit sw k m r.2).bind fun xs => .ok (r.1 ++ xs)

/-! ### Raw samples -/

/-- Raw sample `y` of a source at word address `src`: samples lie packed, the least significant bit first (log entry 20). -/
def rawSample (rd : Nat → Fetch W16) (src w y : Nat) : Fetch Int :=
  let bit := y * w
  let first := src + bit / 16
  (readWords rd first ((bit % 16 + w + 15) / 16)).bind fun ws =>
    let v := ws.foldr (fun (x : W16) acc => x.toNat + 2 ^ 16 * acc) 0
    .ok (signed w (field v (bit % 16) w))

/-- `n` raw samples from number `y`. -/
def rawSamples (rd : Nat → Fetch W16) (src w : Nat) : Nat → Nat → Fetch (List Int)
  | _, 0 => .ok []
  | y, n + 1 => (rawSample rd src w y).bind fun x => (rawSamples rd src w (y + 1) n).bind fun xs => .ok (x :: xs)

end Sys2Proof.Machine
end

