-- ==== Sys2Proof/Machine/Reed.lean ====
section
/-! DEFINITION. Sys2Proof/Machine/Reed.lean: the reed as a machine: fetch, the choice of the next bundle, the latency
shadow, the loop buffer, beats, exceptions, escalation and overrun (R25 to R30, R40, R41, R54 to R61, R149 to R168). -/

namespace Sys2Proof.Machine

/-! ### The tide table of a reed (R21, R22) -/

/-- The active bank of a domain. -/
def RedPage.bankOf (p : RedPage) (d : Nat) : Bool := bitOf p.bank d
/-- An entry of a bank. -/
def RedPage.entryOf (p : RedPage) (d : Nat) (b : Bool) (j : Nat) : W64 := Tab.get 0 p.table (16 * d + 8 * b.toNat + j)
/-- V of an entry (R21). -/
def entryV (e : W64) : Bool := bitOf e 63
/-- CTX of an entry. -/
def entryCtx (e : W64) : Nat := fld e 60 3
/-- POL of an entry. -/
def entryPol (e : W64) : Nat := fld e 58 2
/-- TKWAIT of an entry. -/
def entryTkwait (e : W64) : BitVec 16 := BitVec.ofNat 16 (fld e 42 16)
/-- BUDGET of an entry. -/
def entryBudget (e : W64) : Nat := fld e 18 24
/-- DLINE of an entry. -/
def entryDline (e : W64) : Nat := fld e 0 18
/-- The valid entries of a bank with their positions, in table order. -/
def RedPage.valid (p : RedPage) (d : Nat) (b : Bool) : List (Nat × W64) :=
  ((List.range 8).map fun j => (j, p.entryOf d b j)).filter fun e => entryV e.2

/-- Domain d is preemptible on its reed: a domain with a shorter period has valid entries in its active bank there
(R156). -/
def preemptible (s : State) (x : Reed) (d : Nat) : Bool :=
  (List.range 8).any fun h =>
    decide ((domOf s h).period < (domOf s d).period) && !(x.page.valid h (x.page.bankOf h)).isEmpty

/-! ### Fetch (R54, R55, R157) -/

/-- The canonical first word of an IM syllable. -/
def imWord (r : Nat) (a : W16) : Nat := reedBase r + 0x20000 + 2 * a.toNat
/-- An IM syllable. -/
def imSyl (s : State) (r : Nat) (a : W16) : W32 := memWord s.mem (imWord r a + 1) ++ memWord s.mem (imWord r a)

/-- The syllable a fetch sees at position i of the bundle at `pc`, and whether it comes from IM: the bundle prefetched
before an IM store, then the loop buffer, then IM (R55, R157). -/
def fetchAt (s : State) (r : Nat) (x : Reed) (pc : W16) (i : Nat) : W32 × Bool :=
  let a := pc + BitVec.ofNat 16 i
  let fromIm := (imSyl s r a, true)
  let fromBuf := if x.lbuf.full then (match x.lbuf.words.lookup a.toNat with
    | some w => (w, false)
    | none => fromIm) else fromIm
  match x.prefetch with
  | some (p, ws) => if p = pc then (match ws[i]? with
      | some w => (w, false)
      | none => fromIm) else fromBuf
  | none => fromBuf

/-- Syllables up to and including the first with STOP = 1 (R68). -/
def upToStop : List W32 → List W32
  | [] => []
  | w :: ws => if stop w then [w] else w :: upToStop ws

/-- The bundle at an address as a fetch sees it. -/
def bundleAt (s : State) (r : Nat) (x : Reed) (pc : W16) : List W32 :=
  upToStop ((List.range 8).map fun i => (fetchAt s r x pc i).1)

/-- The syllables make a whole bundle. -/
def latchWhole (ws : List W32) : Bool := decide (8 ≤ ws.length) || ws.any stop

/-- The bundle is a TEND whose guard reads 1 (R28, R168). -/
def isTend (g : Regs) (ws : List W32) : Bool := ws.any fun w => decodeOp w == some (.ctl .tend) && g.pOf (pg w)

/-- What the bundle in the latch reads. -/
def viewOf (s : State) (r c : Nat) (x : Reed) (far : Option Nat) : View :=
  let k := x.ctxOf c
  { s := s, r := r, c := c, g := k.regs, q := k.run, page := k.page, pc := k.run.pc
    nxt := k.run.pc + BitVec.ofNat 16 x.latch.length, farData := far }

/-- The parcel check of a fetch (R52, R68): the first syllable that fails. -/
def fetchParcel (v : View) (n : Nat) : Option Exc :=
  let d := v.g.pdOf 2
  (List.range n).findSome? fun i =>
    let a := v.pc + BitVec.ofNat 16 i
    let off : Int := (((0x20000 + 2 * a.toNat : Nat) : Int) - pdBase d) * v.g.unit
    match parcelCheck v.s v.r v.g 2 d off (2 * v.g.unit) .fetch with
    | .error e => some e
    | .ok _ => none

/-- The error check of a fetch (R48, R68). -/
def fetchBad (v : View) (x : Reed) (n : Nat) : Option Exc :=
  (List.range n).findSome? fun i =>
    let a := v.pc + BitVec.ofNat 16 i
    if (fetchAt v.s v.r x v.pc i).2 && placeBad v.s (.im (imWord v.r a)) then
      some (memErr 2 (0x20000 + 2 * a.toNat) 2)
    else none

/-- The device state permits Survey personality (R5). -/
def surveyState : DevState → Bool
  | .startup | .test | .recovery | .tussock => true
  | _ => false

/-- The faults that precede a bundle's data accesses: fetch, then R45, then decoding, then the C syllable of a repeated
bundle (R45, R67, R68, R156). -/
def frontFault (v : View) (x : Reed) : Option Exc :=
  match fetchParcel v x.latch.length with
  | some e => some e
  | none =>
    match fetchBad v x x.latch.length with
    | some e => some e
    | none =>
      if v.q.persCheck && v.g.survey && (!surveyState v.s.glb.state || !v.g.priv) then
        some { cause := causeILL, sub := 6 }
      else
        match decodeCheck v.g.survey v.g.priv none 0 x.latch with
        | some (i, c) => some { cause := causeILL, sub := c, pos := i }
        | none =>
          if v.q.rep.isSome then
            (x.latch.findIdx? fun w => slotOf w == 7).map fun i => { cause := causeILL, sub := 4, pos := i }
          else none

/-! ### The effects of a bundle -/

/-- An operation of a context is in flight to Qn (R110). -/
def inFlight (x : Reed) (c n : Nat) : Bool := x.stations.any fun t => t.ctx == c && t.qd == n

/-- The EMPTY exception of a read of Qn (R110). -/
def withEmpty (x : Reed) (c : Nat) (q : Run) (e : Eff) : Eff :=
  match e.readsQ with
  | some n =>
    if !bitOf q.qValid n && !inFlight x c n && e.exc.isNone then
      { e with exc := some { cause := causeLOU, sub := 0x10, qd := n } }
    else e
  | none => e

/-- What each syllable of the latched bundle does. -/
def effects (v : View) (x : Reed) : List Eff := x.latch.map fun w => withEmpty x v.c v.q (evalSyl v w)

/-- The bundle waits for the LOU: a pending Q register, a station, an entry of the trap queue, or its drain (R106, R110,
R112 to R114). -/
def holdsLou (x : Reed) (c : Nat) (k : Ctx) (effs : List Eff) : Bool :=
  let own := x.stations.filter fun t => t.ctx == c
  effs.any fun e =>
    (match e.readsQ with
      | some n => !bitOf k.run.qValid n && inFlight x c n
      | none => false) ||
    (match e.issue with
      | some t => decide (4 ≤ x.stations.length) ||
          (t.dze && decide (4 ≤ (own.filter (·.dze)).length + k.run.held.length))
      | none => false) ||
    (e.drains && !own.isEmpty)

/-- The words a bundle reads in far regions. -/
def farReads (effs : List Eff) : List Nat :=
  effs.flatMap fun e => (match e.far with
    | some f => if f.write then [] else touched f.byte f.len
    | none => []) ++ e.gateReads

/-- The bundle waits for a token: it reads the gate word of an EMPTY slot (R176). -/
def holdsGate (v : View) (effs : List Eff) : Bool :=
  (farReads effs).any fun a => gateEmpty v.s (placeOf v.s v.r a)

/-- The first exception of a bundle in slot order, with its position; the guard flags of every overflowing lane are set
with an AGV (R52, R92, R128). -/
def firstExc (effs : List Eff) : Option Exc :=
  match effs.findIdx? fun e => e.exc.isSome with
  | none => none
  | some i =>
    match (effs.getD i {}).exc with
    | none => none
    | some e =>
      if e.cause = causeAGV then
        let all := effs.filterMap fun f => f.exc.bind fun y => if y.cause = causeAGV then some y.raised else none
        some { e with pos := i, raised := all.foldl Raised.and {} }
      else some { e with pos := i }

/-- The far access of a bundle, with the position of its syllable. -/
def farOf (effs : List Eff) : Option (Nat × Far) := effs.zipIdx.findSome? fun p => p.1.far.map fun f => (p.2, f)

/-- The control transfer of a bundle. -/
def ctlOf (effs : List Eff) : Ctl := (effs.find? fun e => e.ctl != .none).elim .none (·.ctl)

/-! ### Beats (R58, R59, R144) -/

/-- The extra beats of one bank: C + U (R58). -/
def bankExtra (b : Nat) (effs : List Eff) : Nat :=
  let rs := ((effs.flatMap (·.reads)).filter fun a => bankOf a == b).eraseDups
  let ws := ((effs.flatMap (·.writes)).filter fun a => bankOf a == b).eraseDups
  let most := (List.range 8).foldl (fun m i => max m (((rs ++ ws).filter fun a => a % 8 == i).length)) 0
  let spans := (effs.flatMap (·.groups)).any fun g => bankOf g.1 == b && g.1 / 8 != (g.1 + g.2 - 1) / 8
  (most - 1) + spans.toNat

/-- One beat and the local extras of a bundle. -/
def localBeats (effs : List Eff) : Nat :=
  1 + max (bankExtra 0 effs) (bankExtra 1 effs) + (effs.any (·.slow)).toNat + (effs.any (·.im)).toNat +
    (effs.map (·.longBeats)).sum

/-- The charge of a bundle's far read, or of its wait for a full store buffer (R59, R61). -/
def accessCharge (v : View) (x : Reed) (effs : List Eff) : Nat :=
  match farOf effs with
  | some (_, f) =>
    if !f.write then farCharge v.s v.r f.tgt (f.byte / 2)
    else if 8 ≤ x.stores.length then (x.stores.head?.map (·.charge)).getD 0
    else 0
  | none => 0

/-- Beats pass on a reed for its running context. -/
def addBeats (c n : Nat) (x : Reed) : Reed :=
  let k := x.ctxOf c
  { x.setCtx c { k with sched := { k.sched with beats := k.sched.beats + n } } with clock := x.clock + n }

/-- Fetched bundles discarded without executing (R152). -/
def addDiscard (n : Nat) (x : Reed) : Reed :=
  { x with page := { x.page with discard := x.page.discard + BitVec.ofNat 32 n } }

/-! ### The latency shadow (R41, R42, R56, R57) -/

/-- A result written to its register. -/
def applyDest (d : Dest) (v : Nat) (k : Ctx) : Ctx :=
  let g := k.regs
  let q := k.run
  let l := q.loops
  let idx := BitVec.ofNat 32 (v % 2 ^ g.width)
  match d with
  | .a n => { k with regs := { g with a := Tab.set g.a n (BitVec.ofNat 72 v) } }
  | .m n => { k with regs := { g with m := Tab.set g.m n (BitVec.ofNat 64 v) } }
  | .s n => { k with regs := { g with s := Tab.set g.s n (BitVec.ofNat 32 v) } }
  | .x n => { k with regs := { g with x := Tab.set g.x n idx } }
  | .y n => { k with regs := { g with y := Tab.set g.y n idx } }
  | .nr n => { k with regs := { g with nr := Tab.set g.nr n idx } }
  | .l n => { k with regs := { g with l := Tab.set g.l n idx } }
  | .b n => { k with regs := { g with b := Tab.set g.b n idx } }
  | .p n => if n = 0 then k else { k with regs := { g with p := putBit g.p n (v % 2 == 1) } }
  | .f n => { k with regs := { g with f := Tab.set g.f n (BitVec.ofNat 64 v) } }
  | .fsw => { k with regs := { g with fsw := fswWrite g.fsw (BitVec.ofNat 32 v) } }
  | .lc n =>
    let w := BitVec.ofNat 32 v
    let r1 := if w = 0 then l.recent1 else n == 1
    { k with run := { q with loops :=
        if n = 0 then { l with lc0 := w, recent1 := r1 } else { l with lc1 := w, recent1 := r1 } } }
  | .ls n =>
    let w := BitVec.ofNat 16 v
    { k with run := { q with loops := if n = 0 then { l with ls0 := w } else { l with ls1 := w } } }
  | .le n =>
    let w := BitVec.ofNat 16 v
    { k with run := { q with loops := if n = 0 then { l with le0 := w } else { l with le1 := w } } }
  | .pd n => { k with regs := { g with pd := Tab.set g.pd n (BitVec.ofNat 128 v) } }
  | .cfg => { k with page := { k.page with cfgNext := BitVec.ofNat 32 (v % 64) } }
  | .flags => k

/-- The order in which results are written: due bundle, then slot, then issue (R41, R57). -/
def Pending.before (a b : Pending) : Bool :=
  decide (a.due < b.due) || (a.due == b.due && (decide (a.slot < b.slot) || (a.slot == b.slot && decide (a.issued ≤ b.issued))))

/-- An entry put in its place in the shadow. -/
def insertPending (e : Pending) : List Pending → List Pending
  | [] => [e]
  | f :: fs => if e.before f then e :: f :: fs else f :: insertPending e fs

/-- The shadow in order. -/
def sortPending : List Pending → List Pending
  | [] => []
  | e :: es => insertPending e (sortPending es)

/-- What a written result does to an entry still pending: a result due later never overwrites what a later bundle wrote
in the meantime (R41). Its flags are still delivered. -/
def overtake (e f : Pending) : Pending :=
  if f.dest = e.dest ∧ f.issued < e.issued ∧ e.due < f.due then { f with dest := .flags } else f

/-- The first `n` entries of an ordered list written, and the entries left. -/
def writeEntries : Nat → List Pending → Ctx → Ctx × List Pending
  | n + 1, e :: es, k => writeEntries n (es.map (overtake e)) (applyDest e.dest e.value k)
  | _, es, k => (k, es)

/-- Flags set in a context's FSW (R42). -/
def Ctx.setFlags (k : Ctx) (f : Raised) : Ctx := { k with regs := { k.regs with fsw := deliver k.regs.fsw f } }

/-- The results of level `lv` that are due by bundle `upto` are written, all of them where none is given; writes come
before flags (R42, R56, R57). -/
def settle (lv : Nat) (upto : Option Nat) (k : Ctx) : Ctx :=
  let own := sortPending (k.run.shadow.filter fun e => e.level == lv)
  let others := k.run.shadow.filter fun e => e.level != lv
  let due := own.filter fun e => match upto with
    | some n => decide (e.due ≤ n)
    | none => true
  let w := writeEntries due.length own k
  let k1 := due.foldl (fun (t : Ctx) e => t.setFlags e.raised) w.1
  { k1 with run := { k1.run with shadow := others ++ w.2 } }

/-- The shadow emptied at TEND: from the innermost level down to level 0 (R57, R168). -/
def settleAll : Nat → Ctx → Ctx
  | 0, k => settle 0 none k
  | n + 1, k => settleAll n (settle (n + 1) none k)

/-- The shadow entries a bundle issues. -/
def entriesOf (lv count : Nat) (ws : List W32) (effs : List Eff) : List Pending :=
  (ws.zip effs).flatMap fun p =>
    (p.2.results.map fun (x : Res) =>
      { level := lv, due := count + x.lat, issued := count, slot := slotOf p.1, dest := x.dest, value := x.value }) ++
    (if p.2.raised = {} then [] else
      [{ level := lv, due := count + p.2.rlat, issued := count, slot := slotOf p.1, dest := .flags, value := 0
         raised := p.2.raised }])

/-! ### Loops and the return stack (R153 to R155) -/

/-- LC of a level; true names level 1. -/
def Loops.lc (l : Loops) (n : Bool) : W32 := if n then l.lc1 else l.lc0
/-- LS of a level. -/
def Loops.ls (l : Loops) (n : Bool) : W16 := if n then l.ls1 else l.ls0
/-- LE of a level. -/
def Loops.le (l : Loops) (n : Bool) : W16 := if n then l.le1 else l.le0
/-- LC of a level changed. -/
def Loops.setLc (l : Loops) (n : Bool) (v : W32) : Loops := if n then { l with lc1 := v } else { l with lc0 := v }
/-- The levels in the order they are tested: the one entered most recently first (R155). -/
def Loops.order (l : Loops) : List Bool := [l.recent1, !l.recent1]

/-- The loop-close test of R154 at the end of the bundle at `pc`: the loops after it, the level that continues, and the
levels that exit. -/
def closeLoops (l : Loops) (pc : W16) : List Bool → Loops × Option Bool × List Bool
  | [] => (l, none, [])
  | n :: ns =>
    if l.le n = pc ∧ l.lc n ≠ 0 then
      let m := l.lc n - 1
      if m ≠ 0 then (l.setLc n m, some n, [])
      else
        let r := closeLoops (l.setLc n 0) pc ns
        (r.1, r.2.1, n :: r.2.2)
    else closeLoops l pc ns

/-- A LOOP's effect on its level (R86, R154). -/
def Loops.enter (l : Loops) (n : Bool) (start stop : W16) (count : W32) : Loops :=
  let r1 := if count = 0 then l.recent1 else n
  if n then { l with lc1 := count, ls1 := start, le1 := stop, recent1 := r1 }
  else { l with lc0 := count, ls0 := start, le0 := stop, recent1 := r1 }

/-- The entry on top of the return stack. -/
def Run.top (q : Run) : W16 := Tab.get 0 q.slots ((q.rsp + 15) % 16)

/-- push (R153). -/
def Run.push (q : Run) (a : W16) : Run :=
  { q with slots := Tab.set q.slots q.rsp a, rsp := (q.rsp + 1) % 16, depth := min (q.depth + 1) 16, topValid := true }

/-- pop (R153). -/
def Run.pop (q : Run) : Run := { q with rsp := (q.rsp + 15) % 16, depth := q.depth - 1, topValid := true }

/-! ### Prediction (R150 to R152) -/

/-- The level whose loop is predicted to continue at the bundle (R150). -/
def predictLoop (l : Loops) (pc : W16) : Option Bool := l.order.find? fun n => l.le n == pc && decide (2 ≤ (l.lc n).toNat)

/-- The predicted next bundle, by the first row of R150 that fits. -/
def predict (v : View) (ws : List W32) : W16 :=
  let byLoop := match predictLoop v.q.loops v.pc with
    | some n => v.q.loops.ls n
    | none => v.nxt
  match ws.getLast? with
  | none => byLoop
  | some w =>
    match decodeOp w with
    | some (.br .br) | some (.br .call) =>
      if pg w = 0 ∨ (v.g.bpm ∧ signed 17 (fld w 0 17) ≤ 0) then relTarget v.pc w else v.nxt
    | some (.br .bri) | some (.br .calli) | some (.br .rfe) => v.nxt
    | some (.br .ret) => if v.q.topValid ∧ v.q.depth ≠ 0 then v.q.top else v.nxt
    | _ => byLoop

/-- The transfer of a taken branch, call, RET or RFE. -/
def Ctl.target (q : Run) : Ctl → Option W16
  | .branch t | .indirect t | .call t | .callIndirect t => some t
  | .ret => some q.top
  | .rfe epc _ => some epc
  | _ => Option.none

/-- The control-transfer extra of a completed bundle: the rows of R152 that rest on a wrong prediction cost one beat where
it was wrong (R151, R152; DEDUCED, log entry 32). -/
def ctlExtra (ctl : Ctl) (selected predicted : W16) : Nat :=
  match ctl with
  | .flushi => 1
  | .loop _ _ n true => if n = 0 then 2 else (if selected = predicted then 0 else 1)
  | _ => if selected = predicted then 0 else 1

/-! ### The loop buffer (R55) -/

/-- An address lies in the body held. -/
def inBody (l : Loops) (n : Bool) (a : W16) : Bool := decide (a - l.ls n ≤ l.le n - l.ls n)

/-- The bundle just executed is captured as it was fetched; a body of more than 32 bundles is not held. -/
def LoopBuf.capture (b : LoopBuf) (pc : W16) (ws : List W32) : LoopBuf :=
  if !b.active || (b.words.lookup pc.toNat).isSome then b
  else if 32 ≤ b.bundles then {}
  else
    { b with bundles := b.bundles + 1
             words := ws.zipIdx.foldl (fun t p => Tab.set t (pc + BitVec.ofNat 16 p.2).toNat p.1) b.words }

/-- The loop buffer after the loop-close test. -/
def LoopBuf.close (b : LoopBuf) (l : Loops) (cont : Option Bool) (exits : List Bool) : LoopBuf :=
  let b1 := if b.active && exits.contains b.level1 then {} else b
  match cont with
  | some n =>
    if b1.active then (if b1.level1 = n then { b1 with full := true } else b1)
    else if l.recent1 = n ∨ l.lc (!n) = 0 then { active := true, level1 := n }
    else b1
  | none => b1

/-! ### Exceptions and escalation (R160 to R166) -/

/-- The reed leaves its context: the prefetched bundle and the loop buffer are dropped (R167). -/
def Reed.drop (x : Reed) : Reed := { x with latch := [], wait := none, prefetch := none, lbuf := {}, running := none }

/-- The reason of R164 for which an exception escalates, 0 for none. -/
def escReason (k : Ctx) (cause : Nat) : Nat :=
  if cause ≠ 0 ∧ cause ≠ 5 ∧ cause ≠ 9 ∧ bitOf k.page.xvecLive (16 + cause) then 1
  else if !bitOf k.page.xrecLive 31 then 2
  else if 4 ≤ k.run.frames.length then 3
  else 0

/-- CTXn_ESC0 to ESC3 after an escalation (R164, R169). -/
def CtxPage.escalated (p : CtxPage) (e : Exc) (reason depth : Nat) (fpc npc : W16) : CtxPage :=
  if bitOf p.esc0 31 then { p with esc0 := putBit p.esc0 30 true, halted := true }
  else
    { p with
      halted := true
      esc0 := BitVec.ofNat 32 (2 ^ 31 + field p.esc0.toNat 30 1 * 2 ^ 30 + reason * 2 ^ 16 + depth * 2 ^ 8 + e.pos * 2 ^ 4 +
        e.cause)
      esc1 := BitVec.ofNat 32 e.sub
      esc2 := npc ++ fpc
      esc3 := wrap 32 e.detail }

/-- The entry of a context's run counts as ended (R24). -/
def endEntry (d pos : Nat) (x : Reed) : Reed :=
  let p := Tab.get {} x.progress d
  { x with progress := Tab.set x.progress d { p with ended := putBit p.ended pos true } }

/-- CTXn_WMARK.MAX after a tide of so many beats (R36). -/
def CtxPage.mark (p : CtxPage) (beats : Nat) : CtxPage := { p with wmark := max p.wmark (min beats 0xFFFFFF) }

/-- A context's run ends: its entry counts as ended, unless the domain's next tide has already begun (R24, R29). -/
def endRun (s : State) (h : Sched) (x : Reed) : Reed :=
  if h.tide = (domOf s h.dom).tide then endEntry h.dom h.pos x else x

/-- The payload of 0x0A01 to 0x0A04 and 0x0901 (R28). -/
def overrunPayload (r c d tide : Nat) : W64 := payload r (c * 2 ^ 40 + d * 2 ^ 32 + tide % 2 ^ 32)

/-- The context stops and a Surveyor is told (R164, R30). -/
def escalate (r c : Nat) (e : Exc) (reason : Nat) (fpc npc : W16) (s : State) : State :=
  let x := reedOf s r
  let k := x.ctxOf c
  let k1 : Ctx :=
    { k with page := (k.page.escalated e reason k.run.frames.length fpc npc).mark k.sched.beats
             sched := { k.sched with phase := .idle, due := none } }
  let x1 := endRun s k.sched (x.setCtx c k1)
  let x2 := if x.running = some c then x1.drop else { x1 with preempted := x1.preempted.filter (· != c) }
  let s1 := fireSource (0x100 + r) (setReed r x2 s)
  if e.cause = causeOVERRUN then fbRaise 0x0901 (overrunPayload r c k.sched.dom k.sched.tide) s1
  else fbRaise 0x0902 (payload r (c * 2 ^ 40 + e.cause * 2 ^ 32 + reason * 2 ^ 28 + fpc.toNat)) s1

/-- The 16 words of an exception record (R161, R162). -/
def recordWords (e : Exc) (d : Nat) (epc fpc npc : W16) (fsw : W32) : List W16 :=
  let det := (wrap 48 e.detail).toNat
  [BitVec.ofNat 16 (e.cause + e.pos * 2 ^ 4 + d * 2 ^ 7), BitVec.ofNat 16 e.sub, BitVec.ofNat 16 (e.sub / 2 ^ 16),
   epc, fpc, npc, fsw.setWidth 16, (fsw >>> 16).setWidth 16] ++ valueWords 3 det ++
  [BitVec.ofNat 16 (e.pn % 16 + e.lop * 2 ^ 4 + e.qd * 2 ^ 10)] ++ valueWords 3 e.bound ++ [0]

/-- Exception entry (R160): the flags of R92 and R127, the frame, the record and the handler's first bundle. -/
def enterHandler (r c : Nat) (e : Exc) (epc fpc npc : W16) (s : State) : State :=
  let x := reedOf s r
  let k0 := x.ctxOf c
  let k := k0.setFlags e.raised
  let q := k.run
  let d := q.frames.length
  let f : Frame :=
    { pc := epc, fsw := k.regs.fsw, preds := k.regs.preds, loops := q.loops, rep := q.rep, rsp := q.rsp, depth := q.depth }
  let q1 : Run :=
    { q with frames := f :: q.frames, rep := none
             pc := BitVec.ofNat 16 (fld k.page.xvecLive 0 16 + 128 * d + 8 * e.cause) }
  let x1 := addDiscard 1 (addBeats c 4 (x.setCtx c { k with run := q1 }))
  let x2 := { x1 with latch := [], wait := none, prefetch := none, lbuf := {} }
  let base := reedBase r + recordAt k.page d
  let words := (recordWords e d epc fpc npc k.regs.fsw).zipIdx.map fun p =>
    ((Place.bank (base + p.2), { addr := 0, value := p.1 }) : PlacedWord)
  writePlaced words (setReed r x2 s)

/-- An exception is taken: by escalation, or by its handler (R159, R160, R164). -/
def takeExc (r c : Nat) (e : Exc) (epc fpc npc : W16) (s : State) : State :=
  let x := reedOf s r
  let k := x.ctxOf c
  let reason := escReason k e.cause
  if reason ≠ 0 then
    let k1 : Ctx := { k with run := { k.run with pc := epc } }
    escalate r c e reason fpc npc (setReed r (x.setCtx c k1) s)
  else enterHandler r c e epc fpc npc s

/-! ### Overrun (R28 to R30, R114) -/

/-- The run state of a context is discarded (R40, R153, R114): its long operations are cancelled with it. -/
def discardRun (c : Nat) (x : Reed) : Reed :=
  let k := x.ctxOf c
  let k1 : Ctx :=
    { k with run := { slots := k.run.slots }
             sched := { k.sched with phase := .idle, due := none, resumed := false, stop := false }
             page := { k.page with skipping := false } }
  { x.setCtx c k1 with stations := x.stations.filter fun t => t.ctx != c }

/-- CTXn_OVR.CAUSE of a cause (R36). -/
def OvrCause.code : OvrCause → Nat
  | .budget => 1 | .deadline => 2 | .start => 3

/-- Token flags cleared on a reed. -/
def clearTokens (mask : BitVec 16) (x : Reed) : Reed := { x with page := { x.page with tk := x.page.tk &&& ~~~mask } }

/-- The deadline tick of an entry in the domain's present tide (R21). -/
def deadlineOf (m : Domain) (e : W64) : Nat :=
  let dl := 16 * entryDline e
  if dl = 0 ∨ m.period ≤ dl * 65536 then m.tideTick (m.tide + 1) else m.tideTick m.tide + dl

/-- A context named by a valid entry at a boundary of its domain: one restarted after ESCALATE may start again, one
suspended under SKIP_NEXT resumes in this tide, and one suspended in another domain loses its state (R30). -/
def armEntry (s : State) (d : Nat) (x : Reed) (p : Nat × W64) : Reed :=
  let c := entryCtx p.2
  let k := x.ctxOf c
  if k.page.halted && k.sched.restart then
    x.setCtx c { k with page := { k.page with halted := false }, sched := { k.sched with restart := false } }
  else if k.sched.phase == .suspended then
    if k.sched.dom = d then
      let h : Sched :=
        { k.sched with pos := p.1, entry := p.2, deadline := deadlineOf (domOf s d) p.2, tide := (domOf s d).tide, beats := 0
                       resumed := true, due := none }
      clearTokens (entryTkwait p.2) (x.setCtx c { k with sched := h })
    else discardRun c x
  else x

/-- A context suspended after the next tide of its domain has begun resumes in that tide (R29, R30). -/
def armLate (s : State) (h : Sched) (c : Nat) (x : Reed) : Reed :=
  if h.tide = (domOf s h.dom).tide then x
  else ((x.page.valid h.dom (x.page.bankOf h.dom)).filter fun p => entryCtx p.2 == c).foldl (armEntry s h.dom) x

/-- An overrun of a started or suspended context is taken, under its entry's policy (R28, R30). -/
def takeOverrun (r c : Nat) (cause : OvrCause) (s : State) : State :=
  let x := reedOf s r
  let k := x.ctxOf c
  let h := k.sched
  let pol := entryPol h.entry
  let pay := overrunPayload r c h.dom h.tide
  let page := { (k.page.mark h.beats) with
    slack := 0, ovrCause := cause.code, ovrCount := satInc 0xFFFF k.page.ovrCount }
  let x1 := endRun s h (x.setCtx c { k with page := page, sched := { h with due := none } })
  let x2 := if x.running = some c then x1.drop else { x1 with preempted := x1.preempted.filter (· != c) }
  let x3 := if cause = .start then clearTokens (entryTkwait h.entry) x2 else x2
  let s1 := fbRaise (0x0A00 + cause.code) pay (setReed r x3 s)
  if h.resumed then fbRaise 0x0A04 pay (setReed r (discardRun c x3) s1)
  else if pol = 2 then
    escalate r c { cause := causeOVERRUN, sub := cause.code } 4 k.run.pc k.run.pc s1
  else if cause = .start then s1
  else if pol = 1 then
    let k3 := x3.ctxOf c
    setReed r (armLate s h c (x3.setCtx c { k3 with page := { k3.page with skipping := true }
                                                    sched := { k3.sched with phase := .suspended } })) s1
  else setReed r (discardRun c x3) s1

/-- The budget of the running context is used up and its next bundle is not its TEND (R28). -/
def budgetSpent (k : Ctx) (next : List W32) : Bool :=
  let b := entryBudget k.sched.entry
  decide (b ≠ 0 ∧ b ≤ k.sched.beats) && !isTend k.regs next

/-- A REP holds off preemption and overrun (R156). -/
def holdsOff (k : Ctx) : Bool := match k.run.rep with
  | some p => p.holdsOff
  | none => false

/-- A bundle boundary is reached: a stop that awaits it is taken, or an overrun whose condition has arisen is taken, cause BUDGET first (R28, R29, R165). -/
def boundary (r c : Nat) (s : State) : State :=
  let x := reedOf s r
  if x.running ≠ some c then s else
    let k := x.ctxOf c
    if k.sched.stop then setReed r (discardRun c x.drop) s
    else match k.sched.due with
    | none => s
    | some cause =>
      if holdsOff k then s
      else if budgetSpent k (bundleAt s r x k.run.pc) then takeOverrun r c .budget s
      else takeOverrun r c cause s

/-! ### Retirement of long operations (R105 to R112) -/

/-- The number of a unit: 0 MUL, 1 DIV, 2 FDS, 3 TRN, 4 BCD (R105). -/
def LouUnit.code : LouUnit → Nat
  | .mul => 0 | .div => 1 | .fds => 2 | .trn => 3 | .bcd => 4

/-- The operation a unit works on: the oldest one issued to it (R105). -/
def unitOp (x : Reed) (u : Nat) : Option Station := x.stations.find? fun t => t.op.unit.code == u

/-- The beat by whose end an operation of unit `u` has retired (R107, R108). -/
def retireBeat (x : Reed) (u : Nat) (t : Station) : Nat :=
  max t.issued (Tab.get 0 x.unitFree u) + louLatency t.op t.constTime t.pr t.a t.b - 1

/-- The retirement of an operation in its context: flags, then Q where no younger operation targets it, then a held trap
(R110 to R112). -/
def retireCtx (t : Station) (k : Ctx) : Ctx :=
  let res := louResult t.op t.pr t.rm t.ftz t.a t.b
  let k1 := k.setFlags { sticky := res.sticky }
  let q := k1.run
  let q1 := if Tab.get 0 q.qIssue t.qd = t.seq then
      { q with q := Tab.set q.q t.qd res.q, qValid := putBit q.qValid t.qd true }
    else q
  let q2 := if res.divZero && t.dze then { q1 with held := q1.held ++ [{ fpc := t.fpc, lop := t.op.code, qd := t.qd }] } else q1
  { k1 with run := q2 }

/-- An operation leaves its unit: it retires in its context, and its station and its unit are free (R107). -/
def retireStation (u : Nat) (t : Station) (x : Reed) : Reed :=
  { x.setCtx t.ctx (retireCtx t (x.ctxOf t.ctx)) with
    stations := x.stations.filter fun y => y.seq != t.seq, unitFree := Tab.set x.unitFree u (retireBeat x u t + 1) }

/-- The operation that retires first among those the units work on. -/
def firstToRetire (x : Reed) : Option (Nat × Station) :=
  (List.range 5).foldl (fun (best : Option (Nat × Station)) u =>
    match unitOp x u, best with
    | some t, some b => if retireBeat x u t < retireBeat x b.1 b.2 then some (u, t) else best
    | some t, none => some (u, t)
    | none, _ => best) none

/-- The operations whose beat a running reed has reached retire, at most `n` of them (R107). -/
def retireDue : Nat → Reed → Reed
  | 0, x => x
  | n + 1, x => match firstToRetire x with
    | some (u, t) => if retireBeat x u t ≤ x.clock then retireDue n (retireStation u t x) else x
    | none => x

/-- The running context waits for the LOU at its boundary (R106, R107, R113). -/
def waitsLou (s : State) (r : Nat) (x : Reed) : Option Nat :=
  match x.running, x.wait with
  | some c, some .held =>
    if holdsLou x c (x.ctxOf c) (effects (viewOf s r c x none) x) then some c else none
  | _, _ => none

/-- The BUDGET of the running context, its beats, and whether they count against it: its next bundle is not its TEND, and no
REP holds the overrun off (R28). -/
def budgetCounts (k : Ctx) (next : List W32) : Bool :=
  entryBudget k.sched.entry != 0 && !isTend k.regs next && !holdsOff k

/-- BUDGET runs out in a wait for the LOU, before any operation retires (R26, R28, R106, R112). -/
def budgetEndsWait (s : State) (r : Nat) (x : Reed) : Option Nat :=
  match waitsLou s r x with
  | some c =>
    let k := x.ctxOf c
    let last := match firstToRetire x with
      | some (u, t) => decide (entryBudget k.sched.entry ≤ k.sched.beats + (retireBeat x u t - x.clock))
      | none => true
    if budgetCounts k x.latch && last then some c else none
  | none => none

/-- BUDGET runs out in a wait for the LOU before beat `beat` (R26, R28, R106). -/
def budgetFirst (s : State) (r : Nat) (x : Reed) (beat : Nat) : Bool :=
  match waitsLou s r x with
  | some c =>
    let k := x.ctxOf c
    budgetCounts k x.latch && decide (entryBudget k.sched.entry < k.sched.beats + (beat - x.clock))
  | none => false

/-! ### Completing, suppressing and issuing a bundle -/

/-- A held LOU trap is deliverable: no frame is in use (R112). -/
def trapReady (k : Ctx) : Bool := !k.run.held.isEmpty && k.run.frames.isEmpty

/-- The reed is at a bundle boundary: it does not wait inside an atomic bundle, nor for an overrun (R159, R165). -/
def atBoundary (x : Reed) : Bool :=
  match x.wait with
  | none | some .held => true
  | _ => false

/-- The uncorrectable error a MEMERR reports is noted (R48, R171, R183). -/
def noteExc (r : Nat) (e : Exc) (s : State) : State :=
  if e.cause = causeMEMERR ∧ (e.sub = 1 ∨ e.sub = 2 ∨ e.sub = 4) then
    let pl := placeOf s r e.detail.toNat
    if placeBad s pl then noteUe pl s else s
  else s

/-- A bundle that raises a precise exception is suppressed, and the exception is taken (R152, R159). -/
def suppress (r c : Nat) (e : Exc) (beats : Nat) (s : State) : State :=
  let x := reedOf s r
  let k := x.ctxOf c
  let pc := k.run.pc
  let npc := pc + BitVec.ofNat 16 x.latch.length
  let k1 : Ctx := if e.cause = causeILL ∧ e.sub = 6 then { k with run := { k.run with persCheck := false } } else k
  let x1 := { retireDue 4 (addBeats c beats (x.setCtx c k1)) with latch := [], wait := none }
  boundary r c (takeExc r c e pc pc npc (noteExc r e (setReed r x1 s)))

/-- The long operations a bundle issues take their stations (R105, R110). -/
def issueStations (c : Nat) (effs : List Eff) (x : Reed) : Reed :=
  effs.foldl (fun (y : Reed) e =>
    match e.issue with
    | some t =>
      let k := y.ctxOf c
      let q := { k.run with qValid := putBit k.run.qValid t.qd false, qIssue := Tab.set k.run.qIssue t.qd y.louSeq }
      { y.setCtx c { k with run := q } with
        stations := y.stations ++ [{ t with seq := y.louSeq, issued := y.clock }], louSeq := y.louSeq + 1 }
    | none => y) x

/-- The items an RFE restores (R163); FSW comes from the record. -/
def restoreFrame (fsw : W32) (k : Ctx) : Ctx :=
  match k.run.frames with
  | [] => k
  | f :: fs =>
    { k with
      regs := { k.regs with fsw := fsw &&& 0x03FFFFFF#32, p := f.preds }
      run := { k.run with frames := fs, loops := f.loops, rep := f.rep, rsp := f.rsp, depth := f.depth, topValid := false } }

/-- What a bundle decides about the next one (R149, R152, R154, R156). -/
structure Choice where
  /-- the loops after the loop-close test -/
  loops : Loops
  /-- the level that continues -/
  cont : Option Bool
  /-- the levels that exit -/
  exits : List Bool
  /-- the next bundle -/
  next : W16
  /-- the REP state after the bundle -/
  rep : Option RepState
  /-- a repetition of the same bundle follows -/
  again : Bool

/-- The choice of the next bundle (R149, R156). -/
def choose (v : View) (x : Reed) (ctl : Ctl) : Choice :=
  let left := match v.q.rep with
    | some p => p.left - 1
    | none => 0
  if left ≠ 0 then
    { loops := v.q.loops, cont := none, exits := [], next := v.pc
      rep := v.q.rep.map fun p => { p with left := left }, again := true }
  else
    let rep : Option RepState := match ctl with
      | .rep n isRep =>
        let d := (x.ctxOf v.c).sched.dom
        some { left := n, holdsOff := isRep && !(decide (257 ≤ n) && preemptible v.s x d) }
      | _ => none
    match ctl.target v.q with
    | some t => { loops := v.q.loops, cont := none, exits := [], next := t, rep := rep, again := false }
    | none =>
      let cl := closeLoops v.q.loops v.pc v.q.loops.order
      let next := match cl.2.1 with
        | some n => cl.1.ls n
        | none =>
          match ctl with
          | .loop _ le n true =>
            if n = 0 then le + BitVec.ofNat 16 (bundleAt v.s v.r { x with prefetch := none, lbuf := {} } le).length else v.nxt
          | _ => v.nxt
      { loops := cl.1, cont := cl.2.1, exits := cl.2.2, next := next, rep := rep, again := false }

/-- The trap taken after a completed bundle: BREAK, else STEP (R166). -/
def trapAfter (v : View) (x : Reed) (ctl : Ctl) : Option Exc :=
  match ctl with
  | .tend => none
  | .brk code => some { cause := causeBREAK, sub := code, pos := x.latch.length - 1 }
  | _ => if v.page.step && v.q.frames.isEmpty then some { cause := causeSTEP } else none

/-- The context's side of a completed bundle: loops, results, return stack, REP and frames. -/
def finishCtx (v : View) (x : Reed) (effs : List Eff) (ctl : Ctl) (ch : Choice) (k : Ctx) : Ctx :=
  let lv := v.q.level
  let cnt := v.q.countAt lv
  let q := k.run
  let staging := (effs.filterMap (·.staging)).getLast?.getD q.staging
  let k1 : Ctx := { k with run := { q with
    loops := ch.loops, shadow := q.shadow ++ entriesOf lv cnt x.latch effs, counts := Tab.set q.counts lv (cnt + 1)
    staging := staging, persCheck := false, rep := ch.rep } }
  let k2 := settle lv (some (cnt + 1)) k1
  let k3 : Ctx := match ctl with
    | .loop n le count _ => { k2 with run := { k2.run with loops := k2.run.loops.enter n v.nxt le count } }
    | .call _ | .callIndirect _ => { k2 with run := k2.run.push v.nxt }
    | .ret => { k2 with run := k2.run.pop }
    | .rfe _ fsw => restoreFrame fsw (settle lv none k2)
    | .tend =>
      let t := settleAll lv k2
      { t with run := { t.run with frames := [], rep := none } }
    | _ => k2
  { k3 with run := { k3.run with pc := ch.next } }

/-- The loop buffer after a completed bundle (R55, R158). -/
def finishBuf (v : View) (x : Reed) (ctl : Ctl) (ch : Choice) (after : Loops) : LoopBuf :=
  let b := (x.lbuf.capture v.pc x.latch).close ch.loops ch.cont ch.exits
  let b1 : LoopBuf := if b.active && after.recent1 != v.q.loops.recent1 && after.recent1 != b.level1 then {} else b
  let b2 : LoopBuf := match ctl with
    | .loop n _ count _ => if count ≠ 0 then { active := true, level1 := n } else if b1.level1 = n then {} else b1
    | .flushi => {}
    | _ => b1
  if b2.active && !inBody after b2.level1 ch.next then {} else b2

/-- TEND's last effects: the run ends in this tide (R24, R36, R168). -/
def finishTend (r c : Nat) (s : State) : State :=
  let x := reedOf s r
  let k := x.ctxOf c
  let h := k.sched
  let k1 : Ctx :=
    { k with page := { (k.page.mark h.beats) with
               beatsLast := min h.beats 0xFFFFFF, slack := min k.page.slack (h.deadline - now s), skipping := false }
             sched := { h with phase := .idle, due := none, resumed := false } }
  setReed r (endRun s h (x.setCtx c k1)).drop s

/-- A far store has failed after it left the reed (R61, R421). -/
def storeFailed (r addr : Nat) (s : State) : State :=
  let x := reedOf s r
  fbRaise 0x0603 (payload r addr)
    (pageError (0x1000 + r) 0x0603 addr (setReed r { x with page := { x.page with werr := true } } s))

/-- A bundle's far store leaves the reed: through its store buffer, or, where the target cannot be reached at all, it fails
at issue (R61, R292, R324). -/
def postStore (r : Nat) (f : Far) (s : State) : State :=
  match f.words.find? fun w => farUnsent s (placeOf s r w.addr) with
  | some _ => storeFailed r (f.byte / 2) s
  | none =>
    let x := reedOf s r
    let e : FarStore :=
      { words := f.words, tgt := f.tgt, charge := farCharge s r f.tgt (f.byte / 2), tags := tideTags s, since := now s }
    setReed r { x with stores := x.stores ++ [e] } s

/-- A bundle completes: every effect of it at once (R41, R159). `charge` is its far charge. -/
def completeBundle (r c : Nat) (far : Option Nat) (charge : Nat) (s : State) : State :=
  let x := reedOf s r
  let v := viewOf s r c x far
  let k := x.ctxOf c
  let effs := effects v x
  let ctl := ctlOf effs
  let ch := choose v x ctl
  let trap := trapAfter v x ctl
  let framesAfter := match ctl with
    | .rfe _ _ => v.q.frames.length - 1
    | _ => v.q.frames.length
  let k1 := finishCtx v x effs ctl ch k
  let x0 := retireDue 4 (addBeats c (localBeats effs + charge) (x.setCtx c k1))
  let trapNext := !(x0.ctxOf c).run.held.isEmpty && decide (framesAfter = 0)
  let predicted := if ch.again then v.pc else predict v x.latch
  let extra := if trap.isSome || ctl == .tend || trapNext then 0
    else if ch.again then 0 else ctlExtra ctl ch.next predicted
  let stores := effs.flatMap (·.store)
  let imStored := stores.any fun w => decide (0x20000 ≤ w.addr)
  let prefetch := if imStored && decide (extra = 0) then
      some (ch.next, (List.range 8).map fun i => (fetchAt s r { x with prefetch := none } ch.next i).1)
    else none
  let x1 := addDiscard extra (addBeats c extra x0)
  let x2 := issueStations c effs x1
  let x3 := { x2 with
    latch := [], wait := none, prefetch := prefetch, lbuf := finishBuf v x ctl ch k1.run.loops }
  let s0 := match farOf effs with
    | some (_, f) => if f.write then postStore r f (setReed r x3 s) else setReed r x3 s
    | none => setReed r x3 s
  let s1 := deviceWrite (placed s r stores) s0
  let s2 := afterLocalStore r stores s1
  let s3 := effs.foldl (fun t e => if e.longFar.isEmpty then t else reedStore r (tideTags t) e.longFar t) s2
  match ctl, trap with
  | .tend, _ => finishTend r c s3
  | _, some e => boundary r c (takeExc r c e ch.next v.pc v.nxt s3)
  | _, none => boundary r c s3

/-- The bundle in the latch comes to its boundary: it is held, suppressed, made to wait inside its atomic bundle, or it
completes (R56, R60, R61, R68, R159, R165). -/
def tryIssue (r : Nat) (s : State) : State :=
  let x := reedOf s r
  match x.running with
  | none => s
  | some c =>
    let k := x.ctxOf c
    let v := viewOf s r c x none
    if !holdsOff k && budgetSpent k x.latch then setReed r { x with wait := some .budget } s
    else if trapReady k then setReed r { x with wait := some .held } s
    else
      match frontFault v x with
      | some e => suppress r c e 1 s
      | none =>
        let effs := effects v x
        if holdsLou x c k effs || holdsGate v effs then setReed r { x with wait := some .held } s
        else
          match firstExc effs with
          | some e => suppress r c e (localBeats effs + accessCharge v x effs) s
          | none =>
            match farOf effs with
            | some (i, f) =>
              if !f.write then
                let pls := (touched f.byte f.len).map (placeOf s r)
                if pls.any (farUnsent s) then
                  suppress r c { memErr 4 (f.byte / 2) f.pn with pos := i } (localBeats effs + accessCharge v x effs) s
                else issueFarRead r pls (setReed r { x with wait := some (.farRead (now s)) } s)
              else if 8 ≤ x.stores.length then setReed r { x with wait := some (.storeFull (accessCharge v x effs)) } s
              else completeBundle r c none 0 s
            | none => completeBundle r c none 0 s

/-- The byte that the last buffered store to a word will write there, where one will (R61, R173). -/
def bufferedByte (s : State) (r : Nat) (a : Nat) : Option Byte :=
  let ws := ((reedOf s r).stores.flatMap (·.words)).filter fun (w : StoreWord) =>
    placeOf s r w.addr == placeOf s r (a / 2) && (if a % 2 = 0 then w.lo else w.hi)
  ws.getLast?.map fun (w : StoreWord) => if a % 2 = 0 then w.value.setWidth 8 else (w.value >>> (8 : Nat)).setWidth 8

/-- The data of a far read, with what the reed's own buffered stores will write in place of what has arrived (R61). -/
def forwardStores (s : State) (r : Nat) (f : Far) (d : Nat) : Nat :=
  leValue ((List.range f.len).map fun i => (bufferedByte s r (f.byte + i)).getD (BitVec.ofNat 8 (d / 2 ^ (8 * i))))

/-- A bundle that waited inside its atomic bundle goes on: with the data of its far read, or with a place in the store
buffer (R60, R61). -/
def resumeBundle (r : Nat) (far : Option Nat) (charge : Nat) (s : State) : State :=
  let x := reedOf s r
  match x.running with
  | none => s
  | some c =>
    let data := far.map fun d => match farOf (effects (viewOf s r c x none) x) with
      | some (_, f) => forwardStores s r f d
      | none => d
    let effs := effects (viewOf s r c x data) x
    match firstExc effs with
    | some e => suppress r c e (localBeats effs + charge) s
    | none => completeBundle r c data charge s

/-- The far read of the waiting bundle fails with a MEMERR (R60, R162). -/
def failFarRead (r sub addr : Nat) (s : State) : State :=
  let x := reedOf s r
  match x.running with
  | none => s
  | some c =>
    let v := viewOf s r c x none
    let effs := effects v x
    match farOf effs with
    | some (i, f) =>
      suppress r c { memErr sub addr f.pn with pos := i } (localBeats effs + accessCharge v x effs) s
    | none => s

/-- A syllable word is fetched: it joins the bundle in the latch, and the last one brings the bundle to its boundary. A
word that the reed does not fetch next has no effect. -/
def fetchSyl (r : Nat) (w : W32) (s : State) : State :=
  let x := reedOf s r
  match x.running with
  | none => s
  | some c =>
    let k := x.ctxOf c
    if x.wait.isSome || latchWhole x.latch then s
    else if (fetchAt s r x k.run.pc x.latch.length).1 ≠ w then s
    else
      let s1 := setReed r { x with latch := x.latch ++ [w] } s
      if latchWhole (x.latch ++ [w]) then tryIssue r s1 else s1

/-- The meaning every syllable row shares: the word must spell the row's operation, on a reed that exists. -/
def sylStep (op : Option SylOp) (r : Nat) (w : W32) (s : State) : Out3 :=
  if decodeOp w ≠ op then .refused .illFormed
  else if 544 ≤ r then .refused .noSuchUnit
  else .next (fetchSyl r w s)

end Sys2Proof.Machine
end

