-- ==== Sys2Proof/Machine/Tide.lean ====
section
/-! DEFINITION. Sys2Proof/Machine/Tide.lean: a reed's tide table at work: starting, resuming and preempting contexts,
overruns, bank swaps and the table's registers (R20 to R30, R36). -/

namespace Sys2Proof.Machine

/-! ### Which entry comes next (R20, R24) -/

/-- The entry at position j of the active bank. -/
def Reed.entryAt (x : Reed) (d j : Nat) : W64 := x.page.entryOf d (x.page.bankOf d) j

/-- The entry at position j has ended, or was passed over, in this tide (R24). -/
def Reed.entryEnded (x : Reed) (d j : Nat) : Bool := bitOf (Tab.get {} x.progress d).ended j

/-- The valid entries of the present tide that have not ended and whose context is not halted, in table order (R24,
R30). -/
def Reed.openEntries (x : Reed) (d : Nat) : List (Nat × W64) :=
  (x.page.valid d (x.page.bankOf d)).filter fun e =>
    !x.entryEnded d e.1 && !(x.ctxOf (entryCtx e.2)).page.halted

/-- The domain's tide has begun and the domain is active (R18, R24). -/
def tideOn (s : State) (d : Nat) : Bool := (domOf s d).active && (domOf s d).begun

/-- The device state lets contexts of a level start on the reeds (R5, R10). -/
def startState (st : DevState) (priv : Bool) : Bool :=
  match st with
  | .service | .test => true
  | .recovery => priv
  | _ => false

/-- The entry that domain d would start now, with its position (R24, R30). -/
def readyEntry (s : State) (x : Reed) (d : Nat) : Option (Nat × W64) :=
  match (x.openEntries d).head? with
  | none => none
  | some (j, e) =>
    let k := x.ctxOf (entryCtx e)
    let tokens := k.sched.phase == .suspended && k.sched.resumed ||
      (x.page.tk &&& entryTkwait e) == entryTkwait e
    if x.page.runOn && tideOn s d && k.sched.phase != .started && tokens &&
        startState s.glb.state (bitOf k.page.cfgNext 1) && decide (now s < deadlineOf (domOf s d) e) then some (j, e)
    else none

/-- A domain of a shorter period than `p` has a context ready (R20). -/
def higherReady (s : State) (x : Reed) (p : Nat) : Bool :=
  (List.range 8).any fun h => decide ((domOf s h).period < p) && (readyEntry s x h).isSome

/-- The period of the domain a context runs in. -/
def ctxPeriod (s : State) (x : Reed) (c : Nat) : Nat := (domOf s (x.ctxOf c).sched.dom).period

/-- The running context may be preempted: it is at a bundle boundary, no REP holds preemption off, and no overrun is due
first (R25, R29, R165). -/
def mayPreempt (s : State) (r : Nat) (x : Reed) (c : Nat) : Bool :=
  let k := x.ctxOf c
  atBoundary x && !holdsOff k && k.sched.due.isNone && !budgetSpent k (bundleAt s r x k.run.pc)

/-- Domain d may take the reed now: nothing of its own or of a higher priority has it or waits for it (R20, R24, R25,
R27). -/
def mayTake (s : State) (r : Nat) (x : Reed) (d : Nat) : Bool :=
  let p := (domOf s d).period
  !higherReady s x p && (x.preempted.all fun c => decide (p < ctxPeriod s x c)) &&
  (match x.running with
    | none => true
    | some c => decide (p < ctxPeriod s x c) && mayPreempt s r x c)

/-! ### Context start, preemption and resumption -/

/-- A context switch (R25, R167): 6 beats that no context is charged for. The running context, if any, is preempted. -/
def switchTo (c : Nat) (x : Reed) : Reed :=
  let pre := match x.running with
    | some o => o :: x.preempted
    | none => x.preempted
  let x1 := match x.running with
    | some o =>
      let k := x.ctxOf o
      x.setCtx o { k with run := { k.run with topValid := false } }
    | none => x
  addDiscard 1 { x1.drop with preempted := pre.filter (· != c), running := some c, clock := x.clock + 6 }

/-- The registers of a context at its start (R40, R43, R45, R53, R82, R153, R169). -/
def startRegs (k : Ctx) : Ctx :=
  let pd := k.page.pdNext.foldl (fun (t : Tab W128) p => match p.2 with
    | some d => Tab.set t p.1 d
    | none => t) k.regs.pd
  { k with
    regs := { k.regs with cfg := k.page.cfgNext, pd := pd }
    run := { slots := k.run.slots, pc := k.page.entry, persCheck := true }
    page := { k.page with pdNext := [], xvecLive := k.page.xvec, xrecLive := k.page.xrec, halted := false, skipping := false } }

/-- A context starts, or resumes under SKIP_NEXT, as the entry at position j of domain d (R24, R25, R30, R40). -/
def startContext (s : State) (d j : Nat) (e : W64) (x : Reed) : Reed :=
  let c := entryCtx e
  let k := x.ctxOf c
  if k.sched.phase == .suspended && k.sched.resumed then
    let k1 : Ctx := { k with page := { k.page with skipping := false }
                             sched := { k.sched with phase := .started }
                             run := { k.run with topValid := false } }
    switchTo c (x.setCtx c k1)
  else
    let k1 := startRegs k
    let h : Sched :=
      { phase := .started, dom := d, pos := j, entry := e, deadline := deadlineOf (domOf s d) e, tide := (domOf s d).tide }
    let x1 := clearTokens (entryTkwait e) (x.setCtx c { k1 with sched := h })
    switchTo c { x1 with stations := x1.stations.filter fun t => t.ctx != c }

/-- CONTEXT_START (R24): a tide-table entry whose conditions all hold starts its context. -/
def execContextStart (r d : Nat) (s : State) : Out3 :=
  if 544 ≤ r ∨ 8 ≤ d then .refused .noSuchUnit
  else
    let x := reedOf s r
    match readyEntry s x d with
    | some (j, e) => if mayTake s r x d then .next (setReed r (startContext s d j e x) s) else .next s
    | none => .next s

/-- The preempted context that resumes (R25): the last preempted, once no higher-priority domain has a context ready. -/
def resumable (s : State) (x : Reed) : Option Nat :=
  match x.running, x.preempted with
  | none, c :: _ => if higherReady s x (ctxPeriod s x c) then none else some c
  | _, _ => none

/-- CONTEXT_RESUME (R25): a preempted context resumes. -/
def execContextResume (r : Nat) (s : State) : Out3 :=
  if 544 ≤ r then .refused .noSuchUnit
  else
    let x := reedOf s r
    match resumable s x with
    | some c =>
      let k := x.ctxOf c
      .next (setReed r (switchTo c (x.setCtx c { k with run := { k.run with topValid := false } })) s)
    | none => .next s

/-! ### Overruns -/

/-- The running context waits inside an atomic bundle (R28, R60, R61). -/
def inAtomic (x : Reed) : Bool :=
  match x.wait with
  | some (.farRead _) | some (.storeFull _) => true
  | _ => false

/-- The beats of a wait count up to the BUDGET that runs out in it (R26, R106). -/
def waitOut (c : Nat) (x : Reed) : Reed :=
  let h := (x.ctxOf c).sched
  addBeats c (entryBudget h.entry - h.beats) x

/-- OVERRUN_BUDGET (R28): the running context has used its BUDGET and its next bundle is not its TEND; BUDGET may run out in a
wait for the LOU. -/
def execOverrunBudget (r : Nat) (s : State) : Out3 :=
  if 544 ≤ r then .refused .noSuchUnit
  else
    let x := reedOf s r
    match x.running with
    | some c =>
      let k := x.ctxOf c
      if !inAtomic x && !holdsOff k && budgetSpent k (bundleAt s r x k.run.pc) then .next (takeOverrun r c .budget s)
      else match budgetEndsWait s r x with
      | some c => .next (takeOverrun r c .budget (setReed r (waitOut c x) s))
      | none => .next s
    | none => .next s

/-- A DEADLINE overrun of a started context (R28, R29): taken at its bundle boundary, or made due for the boundary where
a REP or an atomic bundle holds it off. A TEND that has issued is not overtaken. -/
def deadlineHit (r c : Nat) (s : State) : State :=
  let x := reedOf s r
  let k := x.ctxOf c
  if x.running = some c ∧ (inAtomic x ∨ holdsOff k) then
    if inAtomic x && isTend k.regs x.latch then s
    else setReed r (x.setCtx c { k with sched := { k.sched with due := some .deadline } }) s
  else if budgetSpent k (bundleAt s r x k.run.pc) then takeOverrun r c .budget s
  else takeOverrun r c .deadline s

/-- OVERRUN_DEADLINE (R28): a started context's deadline tick is reached before its TEND has issued. -/
def execOverrunDeadline (r c : Nat) (s : State) : Out3 :=
  if 544 ≤ r ∨ 8 ≤ c then .refused .noSuchUnit
  else
    let k := (reedOf s r).ctxOf c
    if k.sched.phase == .started && decide (k.sched.deadline ≤ now s) then .next (deadlineHit r c s) else .next s

/-- The entry at position j waits to start and its deadline tick is reached (R24, R28). -/
def entryLate (s : State) (x : Reed) (d j : Nat) : Bool :=
  let e := x.entryAt d j
  let k := x.ctxOf (entryCtx e)
  entryV e && !x.entryEnded d j && !k.page.halted && k.sched.phase != .started && tideOn s d &&
    decide (deadlineOf (domOf s d) e ≤ now s)

/-- A START overrun (R28, R30). -/
def startOverrun (r d j : Nat) (s : State) : State :=
  let x := reedOf s r
  let e := x.entryAt d j
  let c := entryCtx e
  let k := x.ctxOf c
  let h : Sched :=
    { k.sched with dom := d, pos := j, entry := e, deadline := deadlineOf (domOf s d) e, tide := (domOf s d).tide, beats := 0
                   resumed := k.sched.phase == .suspended && k.sched.resumed }
  takeOverrun r c .start (setReed r (x.setCtx c { k with sched := h }) s)

/-- OVERRUN_START (R28): an entry's deadline tick is reached before its context has started, with RUN = 1. -/
def execOverrunStart (r d j : Nat) (s : State) : Out3 :=
  if 544 ≤ r ∨ 8 ≤ d ∨ 8 ≤ j then .refused .noSuchUnit
  else
    let x := reedOf s r
    if x.page.runOn && entryLate s x d j then .next (startOverrun r d j s) else .next s

/-- ENTRY_PASSED_OVER (R24): with RUN = 0 an entry that has not started is passed over at its deadline tick. -/
def execEntryPassedOver (r d j : Nat) (s : State) : Out3 :=
  if 544 ≤ r ∨ 8 ≤ d ∨ 8 ≤ j then .refused .noSuchUnit
  else
    let x := reedOf s r
    if !x.page.runOn && entryLate s x d j then
      .next (setReed r (endEntry d j (clearTokens (entryTkwait (x.entryAt d j)) x)) s)
    else .next s

/-! ### The reed's side of a tide boundary (R22, R24, R29, R30) -/

/-- The first check of R22 that the incoming bank fails, 0 for none. -/
def swapError (s : State) (x : Reed) (d : Nat) : Nat :=
  let inc := (x.page.valid d (!x.page.bankOf d)).map (·.2)
  let others := ((List.range 8).filter (· != d)).map fun h => (h, (x.page.valid h (x.page.bankOf h)).map (·.2))
  let ctxs := inc.map entryCtx
  if inc.any fun e => entryPol e == 3 then 1
  else if ctxs.eraseDups.length ≠ ctxs.length then 2
  else if ctxs.any fun c => others.any fun o => o.2.any fun e => entryCtx e == c then 3
  else if !inc.isEmpty && others.any fun o => !o.2.isEmpty && (domOf s o.1).period == (domOf s d).period then 4
  else if ctxs.any fun c => !(x.ctxOf c).image then 5
  else 0

/-- A requested bank swap at a boundary of domain d (R22). -/
def swapBank (r d : Nat) (s : State) : State :=
  let x := reedOf s r
  if !bitOf x.page.swap d then s else
    let p := { x.page with swap := putBit x.page.swap d false }
    let err := swapError s x d
    if err = 0 then setReed r { x with page := { p with bank := putBit p.bank d (!x.page.bankOf d) } } s
    else
      fbRaise 0x0A10 (payload r (err * 2 ^ 44 + d * 2 ^ 32 + (domOf s d).tide % 2 ^ 32))
        (setReed r { x with page := { p with swapErr := true, errDom := d, errCode := err } } s)

/-- Overruns of the ending tide that no earlier command took: every entry of the domain not yet ended is at or past its
deadline at the boundary (R29). -/
def endTide (r d : Nat) (s : State) : State :=
  let x := reedOf s r
  let started := (List.range 8).filter fun c =>
    let h := (x.ctxOf c).sched
    h.phase == .started && h.dom == d && decide (h.deadline ≤ now s)
  let s1 := started.foldl (fun t c => deadlineHit r c t) s
  (List.range 8).foldl (fun t j =>
    let y := reedOf t r
    if entryLate t y d j then
      if y.page.runOn then startOverrun r d j t
      else setReed r (endEntry d j (clearTokens (entryTkwait (y.entryAt d j)) y)) t
    else t) s1

/-- A new tide of domain d reaches a reed (R22, R24, R30). -/
def newTide (r d : Nat) (s : State) : State :=
  let s1 := swapBank r d s
  let x := reedOf s1 r
  let x1 := { x with progress := Tab.set x.progress d {} }
  setReed r ((x1.page.valid d (x1.page.bankOf d)).foldl (armEntry s1 d) x1) s1

/-! ### The tide registers (R22, R36) -/

/-- The BAR0 byte offset of a register of a RED page (R392). -/
def redOff (r o : Nat) : Nat := 0x1000000 + 0x1000 * r + o

/-- A write on a RED page: that of a reed that has been retired or has failed its test ignores it and logs GLB.ERR (R289,
R366, R373). -/
def atRed (ag r o : Nat) (f : State → State) (s : State) : State :=
  atPage ag (redOff r o) (fun t => if t.spr.failed.contains r then refuseReg 7 ag (redOff r o) t else f t) s

/-- A write of RED.TT_DATA_HI commits both halves of the addressed entry to the inactive bank (R22). -/
def commitEntry (v : W32) (x : Reed) : Reed :=
  let d := fld x.page.ttAddr 3 3
  let j := fld x.page.ttAddr 0 3
  let at' := 16 * d + 8 * (!x.page.bankOf d).toNat + j
  { x with page := { x.page with table := Tab.set x.page.table at' (v ++ x.page.ttLo) } }

/-- TT_DATA_HI_WRITE (R22): both halves of a tide-table entry are committed. -/
def execTtDataHiWrite (ag r : Nat) (v : W32) (s : State) : Out3 :=
  if 544 ≤ r then .refused .noSuchUnit
  else .next (atRed ag r 0x410 (fun t => setReed r (commitEntry v (reedOf t r)) t) s)

/-- A bank swap of domain d is requested (R22). -/
def requestSwap (r d : Nat) (s : State) : State :=
  let x := reedOf s r
  setReed r { x with page := { x.page with swap := putBit x.page.swap d true } } s

/-- SWAP_REQUEST (R22): SWAP bit d is written with 1. -/
def execSwapRequest (ag r d : Nat) (s : State) : Out3 :=
  if 544 ≤ r ∨ 8 ≤ d then .refused .noSuchUnit
  else .next (atRed ag r 0x400 (requestSwap r d) s)

/-- RED.TT_CTRL.RUN is written (R24). -/
def setRun (r : Nat) (b : Bool) (s : State) : State :=
  let x := reedOf s r
  setReed r { x with page := { x.page with runOn := b } } s

/-- RUN_SET (R24): RED.TT_CTRL.RUN is written with 1 and takes effect at once. -/
def execRunSet (ag r : Nat) (s : State) : Out3 :=
  if 544 ≤ r then .refused .noSuchUnit else .next (atRed ag r 0x400 (setRun r true) s)

/-- RUN_CLEAR (R24): RED.TT_CTRL.RUN is written with 0. -/
def execRunClear (ag r : Nat) (s : State) : Out3 :=
  if 544 ≤ r then .refused .noSuchUnit else .next (atRed ag r 0x400 (setRun r false) s)

/-- WMCLR resets the watermarks, the slacks and PACE.MIN (R36). -/
def clearMarks (x : Reed) : Reed :=
  let x1 := (List.range 8).foldl (fun (y : Reed) c =>
    let k := y.ctxOf c
    y.setCtx c { k with page := { k.page with wmark := 0, slack := 0x3FFFFF } }) x
  { x1 with page := { x1.page with paceMin := 0xFFFF } }

/-- WMCLR (R36). -/
def execWmclr (ag r : Nat) (s : State) : Out3 :=
  if 544 ≤ r then .refused .noSuchUnit
  else .next (atRed ag r 0x400 (fun t => setReed r (clearMarks (reedOf t r)) t) s)

/-- A bit of RED.CTX_RESTART written with 1: no effect on a context that is not halted (R30, R36). -/
def restartCtx (n : Nat) (x : Reed) : Reed :=
  let k := x.ctxOf n
  if k.page.halted then x.setCtx n { k with sched := { k.sched with restart := true } } else x

/-- CTX_RESTART (R30): a halted context restarts at the next tide of its domain. -/
def execCtxRestart (ag r n : Nat) (s : State) : Out3 :=
  if 544 ≤ r ∨ 8 ≤ n then .refused .noSuchUnit
  else .next (atRed ag r 0x414 (fun t => setReed r (restartCtx n (reedOf t r)) t) s)

/-- The pace monitor's window ends (R36). -/
def notePace (pace : Nat) (x : Reed) : Reed :=
  let p := min pace 0xFFFF
  { x with pace := p, page := { x.page with paceNow := p, paceMin := min x.page.paceMin p } }

/-- PACE_WINDOW (R36): a window of 1,048,576 ticks ends with an average pace. -/
def execPaceWindow (r pace : Nat) (s : State) : Out3 :=
  if 544 ≤ r then .refused .noSuchUnit else .next (setReed r (notePace pace (reedOf s r)) s)

end Sys2Proof.Machine
end

