-- ==== Sys2Proof/Machine/Sluice.lean ====
section
/-! DEFINITION. Sys2Proof/Machine/Sluice.lean: the Sluice engines: descriptors, commands, rings, gather lists, copies,
requests and completions (R195 to R223). -/

namespace Sys2Proof.Machine

/-! ### Descriptors (R199) -/

/-- An engine's page. -/
def engineOf (s : State) (b : Nat) : Engine := Tab.get {} s.slc b
/-- An engine's page changed. -/
def setEngine (b : Nat) (e : Engine) (s : State) : State := { s with slc := Tab.set s.slc b e }
/-- A stream. -/
def streamOf (s : State) (b i : Nat) : Stream := Tab.get {} (engineOf s b).streams i
/-- A stream changed. -/
def setStream (b i : Nat) (x : Stream) (s : State) : State :=
  setEngine b { engineOf s b with streams := Tab.set (engineOf s b).streams i x } s

/-- Word k of the descriptor. -/
def Stream.d (x : Stream) (k : Nat) : W32 := Tab.get 0 x.desc k
/-- V. -/
def Stream.v (x : Stream) : Bool := bitOf (x.d 0) 31
/-- KIND: 0 RING, 1 GATHER, 2 COPY. -/
def Stream.kind (x : Stream) : Nat := fld (x.d 0) 29 2
/-- POL: FILL. -/
def Stream.fill (x : Stream) : Bool := bitOf (x.d 0) 28
/-- DOM. -/
def Stream.dom (x : Stream) : Nat := fld (x.d 0) 25 3
/-- CODEC: SILT. -/
def Stream.silt (x : Stream) : Bool := fld (x.d 0) 23 2 == 1
/-- K. -/
def Stream.k (x : Stream) : Nat := fld (x.d 0) 20 3
/-- SW. -/
def Stream.sw (x : Stream) : Nat := fld (x.d 0) 18 2
/-- OUT: singles. -/
def Stream.single (x : Stream) : Bool := fld (x.d 0) 16 2 == 1
/-- ENC. -/
def Stream.enc (x : Stream) : Bool := bitOf (x.d 0) 15
/-- KEY. -/
def Stream.key (x : Stream) : Nat := fld (x.d 0) 9 6
/-- TKEN. -/
def Stream.tken (x : Stream) : Bool := bitOf (x.d 0) 8
/-- TKNUM. -/
def Stream.tknum (x : Stream) : Nat := fld (x.d 0) 4 4
/-- CUR. -/
def Stream.cur (x : Stream) : Bool := bitOf (x.d 0) 3
/-- DREED. -/
def Stream.dreed (x : Stream) : Nat := fld (x.d 1) 28 4
/-- DCTX. -/
def Stream.dctx (x : Stream) : Nat := fld (x.d 1) 25 3
/-- DPAR. -/
def Stream.dpar (x : Stream) : Nat := fld (x.d 1) 21 4
/-- TAG. -/
def Stream.tag (x : Stream) : Nat := fld (x.d 1) 0 16
/-- SRC. -/
def Stream.src (x : Stream) : Nat := (x.d 2).toNat + fld (x.d 3) 0 16 * 2 ^ 32
/-- SLEN. -/
def Stream.slen (x : Stream) : Nat := (x.d 4).toNat
/-- DOFF. -/
def Stream.doff (x : Stream) : Nat := (x.d 5).toNat
/-- RLEN. -/
def Stream.rlen (x : Stream) : Nat := (x.d 6).toNat
/-- RMAX. -/
def Stream.rmax (x : Stream) : Nat := (x.d 7).toNat
/-- RMAX in whole samples, rounded up. -/
def Stream.rmaxUp (x : Stream) : Nat := (x.rmax + 65535) / 65536
/-- LEAD. -/
def Stream.lead (x : Stream) : Nat := fld (x.d 8) 0 16
/-- START. -/
def Stream.startTide (x : Stream) : Nat := (x.d 9).toNat + fld (x.d 10) 0 16 * 2 ^ 32
/-- LIMIT; 0 means 1,024. -/
def Stream.limit (x : Stream) : Nat := if fld (x.d 11) 0 11 = 0 then 1024 else fld (x.d 11) 0 11
/-- LOOPS. -/
def Stream.loopS (x : Stream) : Nat := (x.d 12).toNat
/-- LOOPE. -/
def Stream.loopE (x : Stream) : Nat := (x.d 13).toNat
/-- IDX. -/
def Stream.idx (x : Stream) : Nat := (x.d 14).toNat + fld (x.d 15) 0 16 * 2 ^ 32
/-- W, the source width in bits. -/
def Stream.w (x : Stream) : Nat := sourceWidth x.sw
/-- Words of an output sample. -/
def Stream.wps (x : Stream) : Nat := if x.single then 1 else 2

/-! ### Causes and statuses (R202) -/

/-- SRCRANGE. -/
def causeSRCRANGE : Nat := 1
/-- DEST. -/
def causeDEST : Nat := 2
/-- UE. -/
def causeUE : Nat := 3
/-- TIMEOUT. -/
def causeTIMEOUT : Nat := 4
/-- AUTH. -/
def causeAUTH : Nat := 5
/-- BADELEM. -/
def causeBADELEM : Nat := 7

/-- A completion record (R202). -/
structure Cpl where
  /-- STATUS -/
  status : Nat
  /-- the opcode, 0 for stream events -/
  op : Nat := 0
  /-- the tag -/
  tag : Nat
  /-- RQ -/
  rq : Nat := 0
  /-- CAUSE -/
  cause : Nat := 0
  /-- INDEX -/
  index : Nat := 0
  /-- NFAULT -/
  nfault : Nat := 0
  /-- the domain tide number -/
  tide : Nat := 0
  /-- the failing word address -/
  addr : Nat := 0
deriving DecidableEq, Repr

/-- The 32 bytes of a record of stream `i` of bed `b`. -/
def Cpl.words (c : Cpl) (b i : Nat) : List W32 :=
  [BitVec.ofNat 32 (c.status + c.op * 2 ^ 8 + c.tag * 2 ^ 16),
   BitVec.ofNat 32 (b * 2048 + i + c.rq * 2 ^ 16),
   BitVec.ofNat 32 (c.cause + c.index % 2 ^ 16 * 2 ^ 8 + min c.nfault 255 * 2 ^ 24),
   BitVec.ofNat 32 c.tide, BitVec.ofNat 32 (c.tide / 2 ^ 32 % 2 ^ 16),
   BitVec.ofNat 32 c.addr, BitVec.ofNat 32 (c.addr / 2 ^ 32 % 2 ^ 16), 0]

/-- CPLQ. -/
def Engine.cplq (e : Engine) : Nat := fld e.queues 16 14
/-- CMDQ. -/
def Engine.cmdq (e : Engine) : Nat := fld e.queues 0 14

/-- A record goes to the completion queue (R202, R270). -/
def post (b i : Nat) (c : Cpl) (s : State) : State := postRecord (engineOf s b).cplq (c.words b i) s

/-- The tide number of a stream's domain. -/
def streamTide (s : State) (x : Stream) : Nat := (domOf s x.dom).tide

/-- A record of a stream event or of a command on a stream, which SD_STAT.LAST keeps (R202, R223). -/
def postStream (b i : Nat) (c : Cpl) (s : State) : State :=
  let x := streamOf s b i
  post b i { c with tide := if c.tide = 0 then streamTide s x else c.tide } (setStream b i { x with last := c.status } s)

/-- The payload of a Sluice record (R222). -/
def slcPayload (b i v : Nat) : W64 := BitVec.ofNat 64 (b * 2 ^ 48 + i * 2 ^ 32 + v % 2 ^ 32)

/-- A job of the command queue has completed (R201). -/
def endJob (b n : Nat) (s : State) : State := let e := engineOf s b; setEngine b { e with jobs := e.jobs.filter (· != n) } s

/-- The engine's stream work is stopped by 64 held records (R270). -/
def cplFull (s : State) (b : Nat) : Bool := decide (64 ≤ (queueOf s (engineOf s b).cplq).held.length)

/-! ### Destinations (R196) -/

/-- STR of a descriptor (R50). -/
def pdSTR (d : W128) : Bool := bitOf d 119

/-- The check of R196 for `n` words at an offset of a parcel, on the reed that carries the stream's logical reed. -/
def destOk (s : State) (b p : Nat) (d : W128) (off n : Nat) : Bool :=
  pdV d && pdSTR d && decide (off + n ≤ pdSize d) &&
  (match pdTgt d with
    | 0 => true
    | 1 => true
    | 2 => (match placeOf s p (pdBase d + off) with
      | .pool c _ => c == b
      | _ => false)
    | _ => false)

/-- The physical reed of a stream's destination. -/
def destReed (s : State) (b : Nat) (x : Stream) : Option Nat := physOf s (16 * b + x.dreed)

/-- The destination parcel as it stands. -/
def liveParcel (s : State) (p : Nat) (x : Stream) : W128 := ((reedOf s p).ctxOf x.dctx).regs.pdOf x.dpar

/-- The destination parcel as RED.PD_DATA reads it: the one that will apply at the next start (R62). -/
def pagedParcel (s : State) (p : Nat) (x : Stream) : W128 :=
  let k := (reedOf s p).ctxOf x.dctx
  match Tab.get none k.page.pdNext x.dpar with
  | some d => d
  | none => k.regs.pdOf x.dpar

/-- A sample as output words (R199). -/
def sampleWords (x : Stream) (v : Int) : List W16 :=
  if x.single then [wrap 16 (v / 2 ^ (x.w - 16))]
  else
    let d : W32 := wrap 32 (v * 2 ^ (32 - x.w))
    [d.setWidth 16, (d >>> (16 : Nat)).setWidth 16]

/-- Samples are written from an offset of the destination parcel; none where a word fails the check of R196. -/
def writeLinear (b : Nat) (x : Stream) (off : Nat) (vs : List Int) (s : State) : Option State :=
  match destReed s b x with
  | none => none
  | some p =>
    let d := liveParcel s p x
    if destOk s b p d off (vs.length * x.wps) then
      some (deviceWrite (placed s p (wordsAt (pdBase d + off) (vs.flatMap (sampleWords x)))) s)
    else none

/-- The word address of an offset of the destination parcel. -/
def destAddr (s : State) (b : Nat) (x : Stream) (off : Nat) : Nat :=
  match destReed s b x with
  | some p => pdBase (liveParcel s p x) + off
  | none => 0

/-- Ring samples from number j on are written, in two pieces where the ring wraps (R199). -/
def writeRing (b : Nat) (x : Stream) (j : Nat) (vs : List Int) (s : State) : Option State :=
  let at' := j % x.rlen
  let n := min vs.length (x.rlen - at')
  match writeLinear b x (x.doff + at' * x.wps) (vs.take n) s with
  | none => none
  | some s1 => if n = vs.length then some s1 else writeLinear b x x.doff (vs.drop n) s1

/-! ### Sources (R196, R209, R213, R215) -/

/-- A word of a stream's fetched data. -/
def Stream.word (x : Stream) (a : Nat) : Fetch W16 :=
  match x.lines.lookup (a / 32) with
  | none => .need (a / 32)
  | some (.failed c) => .bad c a
  | some (.words ws) => .ok (ws.getD (a % 32) 0)

/-- Samples of one unit from a source sample on: empty at the end of the source. -/
structure SrcUnit where
  /-- the samples -/
  samples : List Int
  /-- the position reached -/
  pos : Nat × Nat
deriving DecidableEq, Repr

/-- Whole raw samples in the source. -/
def Stream.rawTotal (x : Stream) : Nat := x.slen * 16 / x.w

/-- Raw samples from number y that start in the 64-byte line in which it starts (R209). -/
def Stream.rawSpan (x : Stream) (y : Nat) : Nat :=
  let bit := x.src * 16 + y * x.w
  min ((bit / 512 * 512 + 512 - bit + x.w - 1) / x.w) (x.rawTotal - y)

/-- An entry of the frame index (R215). -/
def Stream.indexEntry (x : Stream) (g : Nat) : Fetch Nat :=
  (x.word (x.idx + 2 * g)).bind fun lo => (x.word (x.idx + 2 * g + 1)).bind fun hi => .ok (lo.toNat + 2 ^ 16 * hi.toNat)

/-- A block number and offset from which block n is reached (R215). -/
def Stream.anchor (x : Stream) (n : Nat) : Fetch (Nat × Nat) :=
  if x.pos.1 ≤ n ∧ (x.idx = 0 ∨ n ≤ x.pos.1 + 1 ∨ x.pos.1 / 16 = n / 16) then .ok x.pos
  else if x.idx = 0 then .ok (0, 0)
  else (x.indexEntry (n / 16)).bind fun off => .ok (16 * (n / 16), off)

/-- A Silt unit: the block that holds source sample y. -/
def Stream.siltUnit (x : Stream) (y : Nat) : Fetch SrcUnit :=
  let rd := fun a => x.word (x.src + a)
  (x.anchor (y / 64)).bind fun p =>
    (skipBlocks rd x.slen (y / 64 - p.1) p.2).bind fun o =>
      match o with
      | none => .ok { samples := [], pos := x.pos }
      | some off => (blockAt rd x.slen x.sw x.k off).bind fun r =>
          .ok { samples := r.1.drop (y % 64), pos := (y / 64, off) }

/-- The samples of the blocks of an opened frame. -/
def frameSamples (sw k : Nat) (ws : List W16) : Nat → Nat → Fetch (List Int)
  | 0, _ => .ok []
  | n + 1, off =>
    if ws.length ≤ off then .ok []
    else (blockAt (fun a => .ok (ws.getD a 0)) ws.length sw k off).bind fun r =>
      (frameSamples sw k ws n r.2).bind fun xs => .ok (r.1 ++ xs)

/-- The words of a string of bytes. -/
def bytesWords : List Byte → List W16
  | lo :: hi :: bs => (hi ++ lo) :: bytesWords bs
  | _ => []

/-- The bytes of words. -/
def wordsBytes (ws : List W16) : List Byte := ws.flatMap fun (w : W16) => [w.setWidth 8, (w >>> (8 : Nat)).setWidth 8]

/-- A protected unit: the frame that holds source sample y, opened once its tag is verified (R213; log entry 22). -/
def Stream.sealedUnit (x : Stream) (keys : Tab (Option (BitVec 256 × W64))) (y : Nat) : Fetch SrcUnit :=
  let g := y / 1024
  if x.pos.1 = g ∧ g ≠ 0 ∧ x.slen ≤ x.pos.2 then .ok { samples := [], pos := x.pos }
  else (x.indexEntry g).bind fun off => (x.indexEntry (g + 1)).bind fun nxt =>
    let stop := if off < nxt ∧ nxt < x.slen then nxt else x.slen
    if x.slen ≤ off then .ok { samples := [], pos := x.pos }
    else (readWords (fun a => x.word (x.src + a)) off (stop - off)).bind fun ws =>
      let plain := match Tab.get none keys x.key with
        | some k => if x.silt then Config.gcmDecrypt k.1 k.2 g (wordsBytes ws) else none
        | none => none
      match plain with
      | none => .bad causeAUTH (x.src + off)
      | some bs => (frameSamples x.sw x.k (bytesWords bs) 16 0).bind fun vs =>
          .ok { samples := vs.drop (y % 1024), pos := (g + 1, stop) }

/-- A raw unit: the samples of the line in which source sample y starts. -/
def Stream.rawUnit (x : Stream) (y : Nat) : Fetch SrcUnit :=
  if x.rawTotal ≤ y then .ok { samples := [], pos := x.pos }
  else (rawSamples x.word x.src x.w y (x.rawSpan y)).bind fun vs => .ok { samples := vs, pos := x.pos }

/-- The unit that holds source sample y, from y on (R209). Inside a loop, a source that ends is out of range (R202). -/
def Stream.unit (x : Stream) (keys : Tab (Option (BitVec 256 × W64))) (y : Nat) : Fetch SrcUnit :=
  let u := if x.enc then x.sealedUnit keys y else if x.silt then x.siltUnit y else x.rawUnit y
  u.bind fun r =>
    if r.samples.isEmpty && x.loopE != 0 && x.kind == 0 then .bad causeSRCRANGE (x.src + min (y * x.w / 16) x.slen) else .ok r

/-- The samples that a fault at source sample y covers, from y on (R209). -/
def Stream.faultSpan (x : Stream) (y : Nat) : Nat :=
  if x.enc then 1024 - y % 1024 else if x.silt then 64 - y % 64 else max 1 (x.rawSpan y)

/-- The source sample of a ring sample (R203). -/
def Stream.sourceOf (x : Stream) (j : Nat) : Nat :=
  if x.kind ≠ 0 ∨ x.loopE = 0 ∨ j < x.loopE then j else x.loopS + (j - x.loopS) % (x.loopE - x.loopS)

/-- Source samples from y on before the loop wraps. -/
def Stream.beforeWrap (x : Stream) (y n : Nat) : Nat :=
  if x.kind ≠ 0 ∨ x.loopE = 0 then n else min n (x.loopE - y)

/-- The lines of data that a stream still needs after a unit: those from the last one used on, unless the loop wraps. -/
def Stream.dropLines (x : Stream) (y n : Nat) : Tab LineData :=
  if x.kind = 0 ∧ x.loopE ≠ 0 ∧ x.loopE ≤ y + n then []
  else if x.silt ∨ x.enc then x.lines.filter fun l => decide ((x.src + x.pos.2) / 32 ≤ l.1 ∨ l.1 < x.src / 32)
  else x.lines.filter fun l => decide ((x.src * 16 + (y + n) * x.w) / 512 ≤ l.1)

/-! ### Faults of streams (R208, R209, R214, R219) -/

/-- The counters and records that a cause brings with it (R214, R219). -/
def noteCause (b i cause y : Nat) (s : State) : State :=
  let e := engineOf s b
  if cause = causeAUTH then
    fbRaise 0x0230 (slcPayload b i (y / 1024)) (setEngine b { e with auth := satInc 0xFFFF e.auth } s)
  else if cause = causeDECODE then
    fbRaise 0x0632 (slcPayload b i (y / 64)) (setEngine b { e with decode := satInc 0xFFFF e.decode } s)
  else s

/-- Field Book 0x0630 (R209, R222). -/
def faultRecord (b i cause index : Nat) (s : State) : State :=
  fbRaise 0x0630 (slcPayload b i (cause * 2 ^ 24 + index % 256 * 2 ^ 16 + streamTide s (streamOf s b i) % 2 ^ 16)) s

/-- A RING or COPY stream meets a fault at source sample y that covers n samples (R209). Words that may not be written are
not filled (R208). -/
def streamFault (b i cause addr y n : Nat) (s : State) : State :=
  let s1 := faultRecord b i cause 0 (noteCause b i cause y s)
  let x := streamOf s1 b i
  let s2 := if x.fill then
      (if cause = causeDEST then setStream b i { x with next := x.next + n } s1
        else setStream b i { x with zeros := n } s1)
    else setStream b i { x with st := .paused } s1
  postStream b i { status := 3, tag := x.tag, cause := cause, addr := addr } s2

/-- A stream's token flag is set (R23, R202, R204). -/
def streamToken (b : Nat) (x : Stream) (s : State) : State :=
  if x.tken then setTokenLogical (16 * b + x.dreed) x.tknum s else s

/-! ### Work on RING and COPY streams (R203, R204, R209) -/

/-- Samples that may be written now. -/
def Stream.roomLeft (x : Stream) : Nat := (if x.kind = 0 then x.c else 0) + x.rlen - x.next

/-- Samples are written at the stream's position. -/
def putSamples (b i : Nat) (x : Stream) (y : Nat) (vs : List Int) (s : State) : State :=
  match writeRing b x x.next vs s with
  | some s1 => setStream b i { streamOf s1 b i with next := x.next + vs.length, zeros := x.zeros - vs.length } s1
  | none =>
    let s0 := setStream b i { streamOf s b i with zeros := x.zeros - vs.length } s
    streamFault b i causeDEST (destAddr s b x (x.doff + x.next % x.rlen * x.wps)) y vs.length s0

/-- A COPY completes (R202). -/
def endCopy (b i : Nat) (x : Stream) (s : State) : State :=
  let s1 := streamToken b x (setStream b i { x with st := .idle, copy := none, lines := [] } s)
  postStream b i { status := 0, tag := x.tag } (endJob b (x.copy.getD 0) s1)

/-- The end of the source is reached: a COPY completes; a RING posts END and writes zeros (R203). -/
def sourceEnd (b i : Nat) (x : Stream) (s : State) : Option State :=
  if x.kind = 2 then some (endCopy b i x s)
  else if !x.ended then some (postStream b i { status := 1, tag := x.tag } (setStream b i { x with ended := true } s))
  else if x.roomLeft = 0 then none
  else some (putSamples b i x 0 (List.replicate x.roomLeft 0) s)

/-- One unit of work of a RING or COPY stream; none where it waits for data, room or a record's place. -/
def linearStep (b i : Nat) (s : State) : Option State :=
  let x := streamOf s b i
  let y := x.sourceOf x.next
  if cplFull s b || !(x.st == .running || x.st == .armed) then none
  else if x.kind = 2 ∧ x.rlen ≤ x.next then some (endCopy b i x s)
  else if 0 < x.zeros then
    (if x.roomLeft = 0 then none else some (putSamples b i x y (List.replicate (min x.zeros x.roomLeft) 0) s))
  else
    match x.unit (engineOf s b).keys y with
    | .need _ => none
    | .bad c a => some (streamFault b i c a y (x.beforeWrap y (x.faultSpan y)) s)
    | .ok u =>
      if u.samples.isEmpty then sourceEnd b i x s
      else
        let n := min (x.beforeWrap y u.samples.length) x.roomLeft
        if n = 0 then none
        else
          let x1 := { x with pos := u.pos }
          let whole := decide (n = u.samples.length) || decide (x.loopE = y + n)
          let x2 := if whole then { x1 with lines := x1.dropLines y n } else x1
          some (putSamples b i x2 y (u.samples.take n) (setStream b i x2 s))

/-! ### Gather lists (R207, R208) -/

/-- An element of a gather list: its eight words. -/
structure Element where
  /-- ESRC -/
  esrc : Nat
  /-- COUNT -/
  count : Nat
  /-- EDOFF -/
  edoff : Nat
  /-- the reserved field -/
  reserved : Nat
deriving DecidableEq, Repr

/-- An element from its words. -/
def Element.ofWords (ws : List W16) : Element :=
  let v := wordsValue ws
  { esrc := field v 0 48, count := field v 48 16, edoff := field v 64 32, reserved := field v 96 32 }

/-- The samples of an element (R207). A protected element releases nothing (log entry 22). -/
def Stream.elementData (x : Stream) (e : Element) : Fetch (List Int) :=
  if x.enc then .bad causeAUTH e.esrc
  else if x.silt then
    (blocksFrom x.word (2 ^ 48) x.sw x.k ((e.count + 63) / 64) e.esrc).bind fun vs => .ok (vs.take e.count)
  else rawSamples x.word e.esrc x.w 0 e.count

/-- The run of a gather list ends (R202, R207). -/
def endGather (b i : Nat) (x : Stream) (s : State) : State :=
  match x.gathers with
  | [] => s
  | (tag, seq) :: rest =>
    let st : StreamSt := if rest.isEmpty then .idle else .running
    let x1 := { x with gathers := rest, elem := 0, fault := none, nfault := 0, lines := [], st := st }
    let s1 := streamToken b x (setStream b i x1 s)
    let c : Cpl := match x.fault with
      | some f => { status := 2, op := 6, tag := tag, cause := f.2.1, index := f.1, nfault := x.nfault, addr := f.2.2 }
      | none => { status := 0, op := 6, tag := tag }
    postStream b i c (endJob b seq s1)

/-- Element f faults (R208): under STOP the stream pauses, under FILL the element takes `zeros` zero samples. -/
def elementFault (b i cause addr zeros edoff : Nat) (s : State) : State :=
  let x := streamOf s b i
  let s1 := faultRecord b i cause x.elem (noteCause b i cause 0 s)
  if x.fill then
    let s2 := (writeLinear b x edoff (List.replicate zeros 0) s1).getD s1
    let y := streamOf s2 b i
    setStream b i { y with elem := y.elem + 1, nfault := y.nfault + 1
                           fault := y.fault.orElse fun _ => some (y.elem, cause, addr) } s2
  else
    let tag := (x.gathers.head?.getD (0, 0)).1
    postStream b i { status := 2, op := 6, tag := tag, cause := cause, index := x.elem, nfault := x.nfault, addr := addr }
      (setStream b i { x with st := .paused } s1)

/-- One element of work of a GATHER stream. -/
def gatherStep (b i : Nat) (s : State) : Option State :=
  let x := streamOf s b i
  if cplFull s b || x.st != .running || x.gathers.isEmpty then none
  else if x.slen ≤ x.elem then some (endGather b i x s)
  else
    match readWords x.word (x.src + 8 * x.elem) 8 with
    | .need _ => none
    | .bad c a => some (elementFault b i c a 0 0 s)
    | .ok ws =>
      let e := Element.ofWords ws
      if e.count = 0 ∨ e.reserved ≠ 0 then some (elementFault b i causeBADELEM (x.src + 8 * x.elem) e.count e.edoff s)
      else if (writeLinear b x e.edoff (List.replicate e.count 0) s).isNone then
        some (elementFault b i causeDEST (destAddr s b x e.edoff) 0 0 s)
      else
        match x.elementData e with
        | .need _ => none
        | .bad c a => some (elementFault b i c a e.count e.edoff s)
        | .ok vs =>
          match writeLinear b x e.edoff vs s with
          | some s1 => some (setStream b i { streamOf s1 b i with elem := x.elem + 1 } s1)
          | none => none

/-- Steps of work until none is left, at most as many as the fuel. -/
def workOn (f : State → Option State) : Nat → State → State
  | 0, s => s
  | n + 1, s => match f s with
    | some t => workOn f n t
    | none => s

/-- A stream does all the work that its data and its room allow. -/
def advance (b i : Nat) (s : State) : State :=
  workOn (fun t => if (streamOf t b i).kind = 1 then gatherStep b i t else linearStep b i t) 65536 s

/-! ### Tide boundaries (R203, R204, R206) -/

/-- Requests of a stopped stream: what they bring is discarded (R201). -/
def killRequests (i : Nat) (e : Engine) : Engine :=
  { e with slots := e.slots.map fun q => (q.1, q.2.map fun r => if r.stream = i then { r with dead := true } else r) }

/-- A stream becomes IDLE and posts STOPPED (R201). -/
def stopStream (b i tag seq op : Nat) (s : State) : State :=
  let e := killRequests i (engineOf s b)
  let x := streamOf s b i
  let x1 := { x with st := .idle, stop := none, resume := none, lines := [], gathers := [], copy := none, nextRates := []
                     elem := 0, fault := none, nfault := 0, zeros := 0, awaiting := false }
  let gone := seq :: x.copy.toList ++ x.gathers.map (·.2) ++ (x.resume.map (·.2)).toList
  let s1 := setStream b i x1 (setEngine b { e with jobs := e.jobs.filter fun j => !gone.contains j } s)
  postStream b i { status := 0xA, op := op, tag := tag } s1

/-- A PAUSED stream runs again: it fetches from the later of the failed unit and c (R201, R208, R209). -/
def resumeStream (b i tag seq : Nat) (s : State) : State :=
  let x := streamOf s b i
  let x1 := { x with st := .running, resume := none, lines := [], zeros := 0, fault := none, nfault := 0
                     next := if x.kind = 0 then max x.next x.c else x.next }
  postStream b i { status := 0, op := 3, tag := tag } (endJob b seq (setStream b i x1 s))

/-- The cursor that the consumer keeps, where it can be read (R203). -/
def cursorAt (s : State) (b : Nat) (x : Stream) : Option Nat :=
  match destReed s b x with
  | none => none
  | some p =>
    let d := liveParcel s p x
    if pdV d && decide (2 ≤ x.doff ∧ x.doff ≤ pdSize d) then some (bytesAt s p (2 * (pdBase d + x.doff - 2)) 4) else none

/-- A RING's consumption position at the boundary to tide n, and whether the cursor ran past its limit (R203). -/
def Stream.consume (x : Stream) (cursor : Option Nat) (n : Nat) : Stream × Bool :=
  let apply := x.nextRates.filter fun q => decide (q.1 ≤ n)
  let keep := x.nextRates.filter fun q => decide (n < q.1)
  let rate := (apply.getLast?.map (·.2)).getD x.rate
  if x.cur then
    let lim := x.c + x.rmaxUp
    let v := cursor.getD x.c
    ({ x with c := min (max v x.c) lim, rate := rate, nextRates := keep }, decide (lim < v))
  else
    let acc := x.acc + x.rate
    ({ x with acc := acc, c := acc / 65536, rate := rate, nextRates := keep }, false)

/-- The window of LEAD samples is resident (R204). -/
def Stream.resident (x : Stream) : Bool := decide (x.c + x.lead ≤ x.next)

/-- The residency check of a RUNNING ring (R204). -/
def residency (b i : Nat) (late : Bool) (s : State) : State :=
  let x := streamOf s b i
  let s1 := if x.resident then streamToken b x s else setStream b i { x with awaiting := x.tken } s
  if late || !x.resident then
    let e := engineOf s1 b
    let s2 := setEngine b { e with underrun := satInc 0xFFFF e.underrun } s1
    fbRaise 0x0A30 (slcPayload b i (streamTide s x)) (postStream b i { status := 4, tag := x.tag } s2)
  else s1

/-- A ring at the boundary to the tide that now runs (R201, R203, R204). -/
def ringBoundary (b i : Nat) (s : State) : State :=
  let x := { streamOf s b i with awaiting := false }
  let n := streamTide s x
  match x.st with
  | .armed =>
    if x.startTide ≤ n then
      residency b i false (setStream b i { x with st := .running, acc := 0, c := 0 } s)
    else setStream b i x s
  | .running =>
    let r := x.consume (cursorAt s b x) n
    residency b i r.2 (setStream b i r.1 s)
  | .paused => setStream b i (x.consume (cursorAt s b x) n).1 s
  | .idle => s

/-- A stream at a boundary of its domain: STOP, then RESUME, then the ring (R206, R221). -/
def streamBoundary (b i : Nat) (s : State) : State :=
  let x := streamOf s b i
  match x.stop with
  | some (tag, seq) => stopStream b i tag seq 2 s
  | none =>
    let s1 := match x.resume with
      | some (tag, seq) => if x.st = .paused then resumeStream b i tag seq s else s
      | none => s
    advance b i (if x.kind = 0 then ringBoundary b i s1 else s1)

/-- The streams of a domain that take its boundary. -/
def domainStreams (s : State) (d : Nat) : List (Nat × Nat) :=
  s.slc.flatMap fun e => (e.2.streams.filter fun x => x.2.dom == d && (x.2.st != .idle || x.2.stop.isSome)).map fun x => (e.1, x.1)

/-- Every stream of a domain takes its boundary. -/
def sluiceBoundary (d : Nat) (s : State) : State := (domainStreams s d).foldl (fun t p => streamBoundary p.1 p.2 t) s

/-- A domain stops: its RING streams that are not IDLE become IDLE and post STOPPED (R19). -/
def sluiceDomainStop (d : Nat) (s : State) : State :=
  (domainStreams s d).foldl (fun t p =>
    let x := streamOf t p.1 p.2
    if x.kind = 0 ∧ x.st ≠ .idle then stopStream p.1 p.2 x.tag ((x.stop.map (·.2)).getD 0) 0 t else t) s

/-- RING_WINDOW_RESIDENT (R204): after an UNDERRUN the window became resident within the tide, and the flag is set. -/
def execRingWindowResident (b i : Nat) (s : State) : Out3 :=
  if 32 ≤ b ∨ 2048 ≤ i then .refused .noSuchUnit
  else
    let x := streamOf s b i
    if x.awaiting && x.st == .running && x.resident then
      .next (streamToken b x (setStream b i { x with awaiting := false } s))
    else .next s

/-! ### SD_COMMIT (R200) -/

/-- The BAR0 byte offset of a register of an SLC page (R392). -/
def slcOff (b o : Nat) : Nat := 0x300000 + 0x1000 * b + o

/-- CMTERR 0x1: a reserved bit of the descriptor is 1 (R199). -/
def Stream.reservedBit (x : Stream) : Bool :=
  fld (x.d 0) 0 3 != 0 || fld (x.d 1) 16 5 != 0 || fld (x.d 3) 16 16 != 0 || fld (x.d 8) 16 16 != 0 ||
  fld (x.d 10) 16 16 != 0 || fld (x.d 11) 11 21 != 0 || fld (x.d 15) 16 16 != 0 || (x.kind == 1 && x.d 6 != 0)

/-- CMTERR 0x3: the destination parcel, as RED.PD_DATA reads it, fails R196. -/
def parcelUnfit (s : State) (b : Nat) (x : Stream) : Bool :=
  match destReed s b x with
  | none => true
  | some p =>
    let d := pagedParcel s p x
    match x.kind with
    | 0 => !destOk s b p d x.doff (x.rlen * x.wps)
    | 2 => !destOk s b p d x.doff 1
    | _ => !destOk s b p d 0 0

/-- The first check of R200 that a commit fails, 0 for none. -/
def sdError (s : State) (b : Nat) (old x : Stream) : Nat :=
  if x.reservedBit then 1
  else if x.kind = 3 ∨ 2 ≤ fld (x.d 0) 23 2 ∨ x.k = 7 ∨ 2 ≤ fld (x.d 0) 16 2 ∨ (x.k ≠ 0 ∧ !x.silt) then 2
  else if parcelUnfit s b x then 3
  else if x.kind = 0 ∧ (x.rlen < x.lead + x.rmaxUp ∨ x.rmax = 0) then 4
  else if old.st ≠ .idle then 5
  else if x.idx = 0 ∧ x.silt ∧ (x.loopE ≠ 0 ∨ x.enc) then 6
  else if x.loopE ≠ 0 ∧ x.loopE ≤ x.loopS then 7
  else 0

/-- SD_DATA15 is written: all 16 words are committed, or the commit is refused (R200). -/
def sdCommit (ag b : Nat) (v : W32) (s : State) : State :=
  let e := engineOf s b
  let old := streamOf s b e.sel
  let x : Stream := { desc := Tab.set ((List.range 15).map fun k => (k, Tab.get 0 e.data k)) 15 v, last := old.last }
  let err := sdError s b old x
  if err = 0 then setStream b e.sel x s
  else refuseReg 5 ag (slcOff b 0xBC) (setEngine b { e with cmtErr := err } s)

/-- SD_COMMIT (R200). -/
def execSdCommit (ag b : Nat) (v : W32) (s : State) : Out3 :=
  if 32 ≤ b then .refused .noSuchUnit else .next (atPage ag (slcOff b 0xBC) (sdCommit ag b v) s)

/-! ### Commands (R201, R202) -/

/-- Device states in which engines work. -/
def engineState (st : DevState) : Bool := st == .service || st == .test || st == .recovery

/-- The entries the engine's queue publishes: the queue is a command ring with something in it. -/
def cmdPublished (q : Queue) : Bool := q.v && q.typ == 0 && q.used != 0

/-- The queues of an engine that break the rule of R267. -/
def queuesUnfit (s : State) (e : Engine) : Bool :=
  let cq := queueOf s e.cmdq
  let pq := queueOf s e.cplq
  (cq.v && cq.entryBytes != 64) || (pq.v && pq.entryBytes != 32)

/-- The ring holds the entry: in HBM it is what memory holds; in host memory the host answers (R268). -/
def entryThere (s : State) (q : Queue) (entry : List W32) : Bool :=
  let a := q.entryAt q.ci.toNat
  match hostOffset a with
  | some w => hostReachable s && s.cxl.inWindow (w + 31)
  | none => (List.range 32).all fun k => (placeOf s 0 (a + k)).word.map (memWord s.mem) == (halves entry)[k]?

/-- The engine takes the command at the head of its queue (R201, R267 to R270). -/
def takeCommand (b : Nat) (entry : List W32) (f : Nat → State → State) (s : State) : State :=
  let e := engineOf s b
  let q := queueOf s e.cmdq
  if !e.serving || !engineState s.glb.state || !cmdPublished q || entry.length != 16 then s
  else if queuesUnfit s e then glbErr 7 .device (slcOff b 0x44 / 4) s
  else if !(queueOf s e.cplq).held.isEmpty || !entryThere s q entry then s
  else
    let s1 := writeShadow e.cmdq (setQueue e.cmdq { q with ci := q.ci + 1 } s)
    f (e.seq + 1) (setEngine b { engineOf s1 b with seq := e.seq + 1 } s1)

/-- Word k of an entry. -/
def cmdWord (entry : List W32) (k : Nat) : W32 := entry.getD k 0
/-- The opcode. -/
def cmdOp (entry : List W32) : Nat := fld (cmdWord entry 0) 0 8
/-- The command tag. -/
def cmdTag (entry : List W32) : Nat := fld (cmdWord entry 0) 16 16
/-- The stream index. -/
def cmdStream (entry : List W32) : Nat := fld (cmdWord entry 1) 0 11

/-- Every word from k on is 0. -/
def zeroFrom (entry : List W32) (k : Nat) : Bool := (entry.drop k).all (· == 0)

/-- The opcode is defined and every unlisted field is 0 (R201). -/
def cmdFits (entry : List W32) : Bool :=
  let w1 := cmdWord entry 1
  fld (cmdWord entry 0) 8 8 == 0 &&
  (match cmdOp entry with
    | 1 => fld w1 11 21 == 0 && zeroFrom entry 3
    | 2 => fld w1 11 21 == 0 && zeroFrom entry 2
    | 3 => fld w1 11 21 == 0 && zeroFrom entry 2
    | 4 => fld w1 11 21 == 0 && fld (cmdWord entry 4) 16 16 == 0 && zeroFrom entry 5
    | 5 => fld w1 6 26 == 0 && zeroFrom entry 14
    | 6 => fld w1 11 21 == 0 && zeroFrom entry 2
    | 7 => zeroFrom entry 1
    | _ => false)

/-- The completion of a command on a stream. -/
def cmdDone (b : Nat) (entry : List W32) (status : Nat) (s : State) : State :=
  postStream b (cmdStream entry) { status := status, op := cmdOp entry, tag := cmdTag entry } s

/-- The completion of a command that names no stream (log entry 23). -/
def cmdDoneBare (b : Nat) (entry : List W32) (status : Nat) (s : State) : State :=
  post b 0 { status := status, op := cmdOp entry, tag := cmdTag entry } s

/-- A command is one of its row's: its opcode fits and no unlisted field is set. -/
def isCmd (op : Nat) (entry : List W32) : Bool := cmdOp entry == op && cmdFits entry

/-- A command of opcode `op` is taken. -/
def takeAs (op b : Nat) (entry : List W32) (f : Nat → State → State) (s : State) : Out3 :=
  if 32 ≤ b then .refused .noSuchUnit
  else if !isCmd op entry then .refused .illFormed
  else .next (takeCommand b entry f s)

/-- A job enters the list of those that have not completed. -/
def addJob (b n : Nat) (s : State) : State := let e := engineOf s b; setEngine b { e with jobs := e.jobs ++ [n] } s

/-- START takes effect (R201). -/
def startStream (b : Nat) (entry : List W32) (seq : Nat) (s : State) : State :=
  let i := cmdStream entry
  let x := streamOf s b i
  let rate := (cmdWord entry 2).toNat
  if !x.v || x.st != .idle || x.stop.isSome || x.kind == 1 then cmdDone b entry 8 s
  else if x.kind = 0 then
    if x.rmax < rate then cmdDone b entry 7 s
    else
      let y : Stream := { desc := x.desc, last := x.last, st := .armed, rate := rate }
      advance b i (cmdDone b entry 0 (setStream b i y s))
  else
    let y : Stream := { desc := x.desc, last := x.last, st := .running, copy := some seq }
    advance b i (cmdDone b entry 0 (addJob b seq (setStream b i y s)))

/-- START (R201). -/
def execStart (b : Nat) (entry : List W32) (s : State) : Out3 := takeAs 1 b entry (startStream b entry) s

/-- STOP takes effect: at once where PAUSED, else at the next boundary (R201). -/
def stopCommand (b : Nat) (entry : List W32) (seq : Nat) (s : State) : State :=
  let i := cmdStream entry
  let x := streamOf s b i
  if x.st = .paused then stopStream b i (cmdTag entry) seq 2 s
  else addJob b seq (setStream b i { x with stop := some (cmdTag entry, seq) } s)

/-- STOP (R201). -/
def execStop (b : Nat) (entry : List W32) (s : State) : Out3 := takeAs 2 b entry (stopCommand b entry) s

/-- RESUME takes effect at the next boundary; on a stream that is not PAUSED it changes nothing (R201). -/
def resumeCommand (b : Nat) (entry : List W32) (seq : Nat) (s : State) : State :=
  let i := cmdStream entry
  let x := streamOf s b i
  if x.st = .paused then addJob b seq (setStream b i { x with resume := some (cmdTag entry, seq) } s) else cmdDone b entry 0 s

/-- RESUME (R201). -/
def execResume (b : Nat) (entry : List W32) (s : State) : Out3 := takeAs 3 b entry (resumeCommand b entry) s

/-- SETRATE takes effect from tide m, or from the next boundary where m has passed (R201, R206). -/
def setRate (b : Nat) (entry : List W32) (_seq : Nat) (s : State) : State :=
  let i := cmdStream entry
  let x := streamOf s b i
  let rate := (cmdWord entry 2).toNat
  let m := (cmdWord entry 3).toNat + fld (cmdWord entry 4) 0 16 * 2 ^ 32
  let t := streamTide s x
  if x.rmax < rate then cmdDone b entry 7 s
  else
    let from' := max m (t + 1)
    let y := if x.kind = 0 ∧ !x.cur ∧ x.st ≠ .idle then { x with nextRates := x.nextRates ++ [(from', rate)] } else x
    postStream b i { status := 0, op := 4, tag := cmdTag entry, tide := if m ≤ t then t + 1 else t } (setStream b i y s)

/-- SETRATE (R206). -/
def execSetrate (b : Nat) (entry : List W32) (s : State) : Out3 := takeAs 4 b entry (setRate b entry) s

/-- A stream that is not IDLE names the key slot (R213). -/
def keyInUse (e : Engine) (k : Nat) : Bool := e.streams.any fun x => x.2.enc && x.2.key == k && x.2.st != .idle

/-- KEYLOAD takes effect (R213, R350). -/
def keyLoad (b : Nat) (entry : List W32) (_seq : Nat) (s : State) : State :=
  let e := engineOf s b
  let k := fld (cmdWord entry 1) 0 6
  if keyInUse e k then cmdDoneBare b entry 7 s
  else
    match s.sec.lkek.bind fun key => Config.aesUnwrap key ((entry.drop 2).take 12) with
    | some r => cmdDoneBare b entry 0 (setEngine b { e with keys := Tab.set e.keys k (some r) } s)
    | none => fbRaise 0x0231 (slcPayload b 0 k) (cmdDoneBare b entry 9 s)

/-- KEYLOAD (R213). -/
def execKeyload (b : Nat) (entry : List W32) (s : State) : Out3 := takeAs 5 b entry (keyLoad b entry) s

/-- GATHER takes effect: the list joins the stream's runs (R201, R207). -/
def gatherCommand (b : Nat) (entry : List W32) (seq : Nat) (s : State) : State :=
  let i := cmdStream entry
  let x := streamOf s b i
  if !x.v || x.kind != 1 then cmdDone b entry 8 s
  else
    let y := { x with gathers := x.gathers ++ [(cmdTag entry, seq)], st := if x.st = .idle then .running else x.st }
    advance b i (addJob b seq (setStream b i y s))

/-- GATHER (R207). -/
def execGather (b : Nat) (entry : List W32) (s : State) : Out3 := takeAs 6 b entry (gatherCommand b entry) s

/-- FENCE is queued behind every earlier command (R201). -/
def fenceCommand (b : Nat) (entry : List W32) (seq : Nat) (s : State) : State :=
  let e := engineOf s b
  setEngine b { e with fences := e.fences ++ [(cmdTag entry, seq)], jobs := e.jobs ++ [seq] } s

/-- FENCE (R201). -/
def execFence (b : Nat) (entry : List W32) (s : State) : Out3 := takeAs 7 b entry (fenceCommand b entry) s

/-- The oldest FENCE completes once every earlier command, gather and copy has (R201). -/
def completeFence (b : Nat) (s : State) : State :=
  let e := engineOf s b
  match e.fences with
  | (tag, seq) :: rest =>
    if e.jobs.all fun j => decide (seq ≤ j) then
      post b 0 { status := 0, op := 7, tag := tag } (endJob b seq (setEngine b { e with fences := rest } s))
    else s
  | [] => s

/-- FENCE_COMPLETE (R201). -/
def execFenceComplete (b : Nat) (s : State) : Out3 := if 32 ≤ b then .refused .noSuchUnit else .next (completeFence b s)

/-- BADCMD (R201): a command with an undefined opcode or a non-zero unlisted field. -/
def execBadcmd (b : Nat) (entry : List W32) (s : State) : Out3 :=
  if 32 ≤ b then .refused .noSuchUnit
  else if cmdFits entry then .refused .illFormed
  else .next (takeCommand b entry (fun _ => cmdDoneBare b entry 7) s)

/-! ### Requests (R210 to R212) -/

/-- The slots an engine holds. -/
def Engine.held (e : Engine) : List (Nat × SluiceReq) := e.slots.filterMap fun q => q.2.map fun r => (q.1, r)
/-- The slots a stream holds. -/
def Engine.heldBy (e : Engine) (i : Nat) : Nat := (e.held.filter fun q => q.2.stream == i).length
/-- The slots RING streams hold. -/
def Engine.ringHeld (e : Engine) : Nat := (e.held.filter fun q => (Tab.get {} e.streams q.2.stream).kind == 0).length
/-- RINGMIN. -/
def Engine.ringMin (e : Engine) : Nat := min 1024 (fld e.slotCfg 0 11)

/-- A stream may hold a further slot (R210). -/
def mayIssue (e : Engine) (i : Nat) : Bool :=
  let x := Tab.get ({} : Stream) e.streams i
  decide (e.heldBy i < x.limit) &&
  (x.kind == 0 || decide (e.held.length - e.ringHeld < 1024 - e.ringMin))

/-- Who answers a line, or the fault that its address meets (R196, R202, R211, R292, R299, R324). -/
def lineSource (s : State) (line : Nat) : Except Nat SourceKind :=
  if line * 32 < 0x10000000 then .error causeSRCRANGE
  else
    match placeOf s 0 (line * 32) with
    | .pool _ _ => .ok .device
    | .hbm a =>
      match backOf s (a / 2 ^ 20) with
      | .backed _ => if hostReachable s then .ok .host else .error causeUE
      | _ => .ok .device
    | .host w => if !s.cxl.inWindow (w + 31) then .error causeSRCRANGE else if hostReachable s then .ok .host else .error causeUE
    | .atlas t _ => if (routeTo s t).isSome then .ok .atlas else .error causeUE
    | _ => .error causeSRCRANGE

/-- A line of data, or its fault, reaches a stream, which goes on with its work. -/
def deliverLine (b i line : Nat) (d : LineData) (s : State) : State :=
  let x := streamOf s b i
  if x.st == .running || x.st == .armed then advance b i (setStream b i { x with lines := Tab.set x.lines line d } s) else s

/-- A request leaves the engine: a coherent read of HBM snoops the host first (R187), the others cross the host interface or
the Causeway. -/
def sendRequest (b rq line : Nat) (kind : SourceKind) (s : State) : State :=
  match placeOf s 0 (line * 32), kind with
  | .hbm a, .device =>
    match snoopLine s (.hbm a) with
    | some l => let s1 := sendBisnp l s; { s1 with hbm := { s1.hbm with snoops := s1.hbm.snoops ++ [{ line := l, bytes := [] }] } }
    | none => s
  | .host w, _ => sendHostRead (.engine b rq) w 64 s
  | .hbm a, .host =>
    match backOf s (a / 2 ^ 20) with
    | .backed rp => sendHostRead (.engine b rq) (s.hbm.rbBase - 0x20000000000 + rp * 2 ^ 20 + a % 2 ^ 20) 64 s
    | _ => s
  | .atlas t a, _ =>
    match routeTo s t with
    | some l => issueAtlasRead l (0x8000 + b) rq t (atlasAddr t a) s
    | none => s
  | _, _ => s

/-- A request is issued for stream i into a free slot; a line that cannot be read faults at once (R210). -/
def issueRequest (b i rq line : Nat) (s : State) : State :=
  let e := engineOf s b
  let x := streamOf s b i
  let asked := e.held.any fun q => q.2.stream == i && q.2.line == line && !q.2.dead
  if !e.serving || !engineState s.glb.state || !(x.st == .running || x.st == .armed) || (Tab.get none e.slots rq).isSome ||
      (x.lines.lookup line).isSome || asked || cplFull s b then s
  else
    match lineSource s line with
    | .error c => deliverLine b i line (.failed c) s
    | .ok k =>
      if mayIssue e i then
        let q : SluiceReq := { stream := i, line := line, kind := k, since := now s }
        sendRequest b rq line k (setEngine b { e with slots := Tab.set e.slots rq (some q) } s)
      else s

/-- SLUICE_REQUEST_ISSUE (R210): engine b reads a 64-byte line for stream i into slot rq. -/
def execSluiceRequestIssue (b i rq line : Nat) (s : State) : Out3 :=
  if 32 ≤ b ∨ 2048 ≤ i ∨ 1024 ≤ rq then .refused .noSuchUnit else .next (issueRequest b i rq line s)

/-- A slot is freed, with the request's entries at the host interface and in the atlas. -/
def freeSlot (b rq : Nat) (s : State) : State :=
  let e := engineOf s b
  { setEngine b { e with slots := Tab.set e.slots rq none } s with
    cxl := { s.cxl with reqs := s.cxl.reqs.filter fun q => q.late || q.from' != .engine b rq }
    atl := { s.atl with reads := s.atl.reads.filter fun q => q.late || q.agent != 0x8000 + b || q.slot != rq } }

/-- The words of a line of the device's own memory, or an uncorrectable error noted (R171, R183). -/
def deviceLine (line : Nat) (s : State) : LineData × State :=
  let pls := (List.range 32).map fun k => placeOf s 0 (line * 32 + k)
  match pls.find? (placeBad s) with
  | some pl => (.failed causeUE, noteUe pl s)
  | none => (.words (pls.map fun pl => (pl.word.map (memWord s.mem)).getD 0), s)

/-- The words of 64 bytes. -/
def lineWords (bs : List Byte) : List W16 := bytesWords (padBytes 64 bs)

/-- A line waits for the host's answer to its snoop (R187). -/
def lineSnooped (s : State) (line : Nat) : Bool :=
  match placeOf s 0 (line * 32) with
  | .hbm a => s.hbm.snoops.any fun w => w.line == lineOf a
  | _ => false

/-- A request's data arrive (R210, R211). -/
def requestData (b rq : Nat) (data : List Byte) (ok : Bool) (s : State) : State :=
  match Tab.get none (engineOf s b).slots rq with
  | none => s
  | some q =>
    if q.kind == .device && lineSnooped s q.line then s
    else
      let s1 := freeSlot b rq s
      if q.dead then s1
      else
        match q.kind with
        | .device => let r := deviceLine q.line s1; deliverLine b q.stream q.line r.1 r.2
        | _ => deliverLine b q.stream q.line (if ok then .words (lineWords data) else .failed causeUE) s1

/-- SLUICE_REQUEST_DATA (R211): the data of slot rq arrive; those of HBM and bed pools are what memory holds, the others are
given with the command, `ok` false where they are poisoned or their target failed. -/
def execSluiceRequestData (b rq : Nat) (data : List Byte) (ok : Bool) (s : State) : Out3 :=
  if 32 ≤ b ∨ 1024 ≤ rq then .refused .noSuchUnit else .next (requestData b rq data ok s)

/-- The timeout of a kind of request in ticks (R212). -/
def Engine.timeout (e : Engine) (k : SourceKind) : Nat :=
  16 * max 1 (if k == .atlas then fld e.tmo 16 16 else fld e.tmo 0 16)

/-- The timeout of a request wins (R212). -/
def requestTimeout (b rq : Nat) (s : State) : State :=
  let e := engineOf s b
  match Tab.get none e.slots rq with
  | none => s
  | some q =>
    if q.kind == .device || decide (now s < q.since + e.timeout q.kind) then s
    else
      let x := streamOf s b q.stream
      let s1 : State :=
        { setEngine b { e with slots := Tab.set e.slots rq none
                               late := e.late ++ [{ rq := rq, stream := q.stream, tag := x.tag, kind := q.kind }] } s with
          cxl := { s.cxl with reqs := s.cxl.reqs.map fun h => if h.from' = .engine b rq then { h with late := true } else h }
          atl := { s.atl with reads := s.atl.reads.map fun h =>
            if h.agent = 0x8000 + b ∧ h.slot = rq then { h with late := true } else h } }
      if q.dead then s1
      else deliverLine b q.stream q.line (.failed causeTIMEOUT)
        (postStream b q.stream { status := 5, tag := x.tag, rq := rq, cause := causeTIMEOUT, addr := q.line * 32 } s1)

/-- SLUICE_REQUEST_TIMEOUT (R212). -/
def execSluiceRequestTimeout (b rq : Nat) (s : State) : Out3 :=
  if 32 ≤ b ∨ 1024 ≤ rq then .refused .noSuchUnit else .next (requestTimeout b rq s)

/-- The list without its element k. -/
def eraseAt {α : Type} : Nat → List α → List α
  | _, [] => []
  | 0, _ :: xs => xs
  | k + 1, x :: xs => x :: eraseAt k xs

/-- The late request k of an engine is settled: LATE is posted and counted (R212). -/
def lateArrival (b k cause : Nat) (s : State) : State :=
  let e := engineOf s b
  match e.late[k]? with
  | none => s
  | some q =>
    let s1 : State :=
      { setEngine b { e with late := eraseAt k e.late, lateCnt := satInc 0xFFFF e.lateCnt } s with
        cxl := { s.cxl with reqs := s.cxl.reqs.filter fun h => !(h.late && h.from' == .engine b q.rq) }
        atl := { s.atl with reads := s.atl.reads.filter fun h => !(h.late && h.agent == 0x8000 + b && h.slot == q.rq) } }
    fbRaise 0x0631 (slcPayload b q.stream q.rq) (postStream b q.stream { status := 6, tag := q.tag, rq := q.rq, cause := cause } s1)

/-- SLUICE_LATE_ARRIVAL (R212): the data of the k-th late request arrive and are discarded. -/
def execSluiceLateArrival (b k : Nat) (s : State) : Out3 :=
  if 32 ≤ b then .refused .noSuchUnit else .next (lateArrival b k 0 s)

/-- The host interface ends a request of an engine (R294): its stream takes a fault with cause UE, or LATE is posted. -/
def endEngineRequest (b rq : Nat) (late : Bool) (s : State) : State :=
  if late then
    match (engineOf s b).late.findIdx? fun q => q.rq == rq && q.kind == .host with
    | some k => lateArrival b k causeUE s
    | none => s
  else
    match Tab.get none (engineOf s b).slots rq with
    | none => s
    | some q =>
      let s1 := freeSlot b rq s
      if q.dead then s1 else deliverLine b q.stream q.line (.failed causeUE) s1

/-! ### The page's counters (R223) -/

/-- SLC_LOAD_WINDOW (R223): a window of 1,048,576 ticks ends with a load in M samples/s. -/
def execSlcLoadWindow (b load : Nat) (s : State) : Out3 :=
  if 33 ≤ b then .refused .noSuchUnit
  else
    let e := engineOf s b
    let n := min load 0xFFFF
    .next (setEngine b { e with now := n, peak := max e.peak n } s)

/-- What a read of SLC.CNT_A returns, and the state after it (R387). -/
def takeSlcCntA (b : Nat) (t : State) : W32 × State :=
  let e := engineOf t b
  (BitVec.ofNat 32 (e.underrun * 2 ^ 16 + e.lateCnt), setEngine b { e with underrun := 0, lateCnt := 0 } t)

/-- SLC_CNT_A_READ (R223). -/
def execSlcCntARead (ag b : Nat) (s : State) : Out3 :=
  if 33 ≤ b then .refused .noSuchUnit
  else .next (readPage ag (slcOff b 0x5C) (takeSlcCntA b) s)

/-- What a read of SLC.CNT_B returns, and the state after it (R387). -/
def takeSlcCntB (b : Nat) (t : State) : W32 × State :=
  let e := engineOf t b
  (BitVec.ofNat 32 (e.auth * 2 ^ 16 + e.decode), setEngine b { e with auth := 0, decode := 0 } t)

/-- SLC_CNT_B_READ (R223). -/
def execSlcCntBRead (ag b : Nat) (s : State) : Out3 :=
  if 33 ≤ b then .refused .noSuchUnit
  else .next (readPage ag (slcOff b 0x60) (takeSlcCntB b) s)

/-- What a read of SLC.LOAD returns, and the state after it (R387). -/
def takeSlcLoad (b : Nat) (t : State) : W32 × State :=
  let e := engineOf t b
  (BitVec.ofNat 32 (e.peak * 2 ^ 16 + e.now), setEngine b { e with peak := 0 } t)

/-- SLC_LOAD_READ (R223): PEAK is returned and cleared. -/
def execSlcLoadRead (ag b : Nat) (s : State) : Out3 :=
  if 33 ≤ b then .refused .noSuchUnit
  else .next (readPage ag (slcOff b 0x64) (takeSlcLoad b) s)

end Sys2Proof.Machine
end

