-- ==== Sys2Proof/Machine/Atlas.lean ====
section
/-! DEFINITION. Sys2Proof/Machine/Atlas.lean: joining an atlas, links training and failing, flits received, heartbeats,
partition, promotion and rejoin, buses received, and the Causeway loop-backs (R308 to R334). -/

namespace Sys2Proof.Machine

/-- The BAR0 byte offset of a register of a CWL page (R392). -/
def cwlOff (l o : Nat) : Nat := 0x1C0000 + 0x1000 * l + o
/-- The BAR0 byte offset of a register of the ATL page. -/
def atlOff (o : Nat) : Nat := 0x1D0000 + o
/-- The ATL page. -/
def atlPage : Nat := 0x1D0

/-! ### Joining and leaving (R308, R310) -/

/-- The atlas is joined: the configured tidemaster leads, and enabled links train (R308, R310). -/
def joinAtlas (s : State) : State :=
  if s.atl.en then s
  else
    let tm := s.atl.tm
    let a := { s.atl with en := true, tmaster := decide (tm = s.glb.sheet), curTm := some tm, ageAt := [], lost := []
                          hops := hopsBetween s.atl.cfg s.glb.sheet tm, hbAt := now s }
    (List.range 16).foldl (fun t l => startTraining l t) (setAtl a s)

/-- EN is cleared: every link goes down and the sheet is its own tidemaster (R308). -/
def leaveAtlas (s : State) : State :=
  if !s.atl.en then s
  else
    let s1 := (List.range 16).foldl (fun t l => if (linkOf t l).state = .down then t else linkDown l 4 t) s
    setAtl { s1.atl with en := false, tmaster := false, curTm := none, locked := false, holdover := false
                         partition := false, slewing := false, hops := 0, ageAt := [], lost := []
                         rx := s1.atl.rx.map fun r => (r.1, { r.2 with cut := false, subst := 0, ending := false }) } s1

/-- ATLAS_JOIN (R308). -/
def execAtlasJoin (ag : Nat) (s : State) : Out3 := .next (atPage ag (atlOff 8) joinAtlas s)
/-- ATLAS_LEAVE (R308). -/
def execAtlasLeave (ag : Nat) (s : State) : Out3 := .next (atPage ag (atlOff 8) leaveAtlas s)

/-- A link is enabled and trains (R310). -/
def enableLink (l : Nat) (s : State) : State :=
  let x := linkOf s l
  if x.en then s else startTraining l (setLink l { x with en := true } s)

/-- A link is disabled and goes down (R310, R332). -/
def disableLink (l : Nat) (s : State) : State :=
  let x := linkOf s l
  if x.en then linkDown l 4 (setLink l { x with en := false } s) else s

/-- RETRAIN: the link goes down and trains again; the spec names no reason code for it (R332, R333). -/
def retrainLink (l : Nat) (s : State) : State :=
  let x := linkOf s l
  if x.state = .down then startTraining l s
  else
    let f := takeFree s
    linkRetrain l (f.1.toNat % 256) f.2

/-- CWL_ENABLE (R310). -/
def execCwlEnable (ag l : Nat) (s : State) : Out3 :=
  if 16 ≤ l then .refused .noSuchUnit else .next (atPage ag (cwlOff l 8) (enableLink l) s)
/-- CWL_DISABLE (R310). -/
def execCwlDisable (ag l : Nat) (s : State) : Out3 :=
  if 16 ≤ l then .refused .noSuchUnit else .next (atPage ag (cwlOff l 8) (disableLink l) s)
/-- CWL_RETRAIN (R333). -/
def execCwlRetrain (ag l : Nat) (s : State) : Out3 :=
  if 16 ≤ l then .refused .noSuchUnit else .next (atPage ag (cwlOff l 8) (retrainLink l) s)

/-- The physical lanes that carry logical lanes 0 to n - 1, as a mask (R333). -/
def mappedLanes (lmap : W32) (n : Nat) : Nat := (List.range n).foldl (fun m i => m ||| 2 ^ fld lmap (3 * i) 3) 0

/-- Training ends (R310): the expected peer brings the link UP, any other MISWIRED. -/
def linkTrained (l : Nat) (peerCfg : W32) (psheet plink : Nat) (s : State) : State :=
  let x := linkOf s l
  if x.state ≠ .train then s
  else
    let lanes := mappedLanes x.lmap 4
    let y := { x with peerSheet := psheet % 64, peerLink := plink % 16, since := now s }
    if peerCfg = s.atl.cfg ∧ neighbour s.atl.cfg s.glb.sheet l = some psheet ∧
        plink = peerLinkOf s.atl.cfg s.glb.sheet l then
      fbRaise 0x0801 (cwlPayload s l lanes) (irqSet (cwlPage l) 2 (setLink l { y with state := .up, lanes := lanes } s))
    else
      fbRaise 0x0805 (cwlPayload s l (psheet % 64 * 2 ^ 16 + plink % 16 * 2 ^ 8))
        (irqSet (cwlPage l) 16 (setLink l { y with state := .miswired } s))

/-- CWL_TRAINED (R310): training ends with what the peer sent: its ATL.CFG, its sheet number and its link number. -/
def execCwlTrained (l : Nat) (peerCfg : W32) (psheet plink : Nat) (s : State) : Out3 :=
  if 16 ≤ l then .refused .noSuchUnit else .next (linkTrained l peerCfg psheet plink s)

/-- MISWIRED_RETRY (R310): a MISWIRED link tries again after 1 ms. -/
def execMiswiredRetry (l : Nat) (s : State) : Out3 :=
  if 16 ≤ l then .refused .noSuchUnit
  else
    let x := linkOf s l
    if x.state = .miswired ∧ x.since + msTicks s ≤ now s then .next (startTraining l s) else .next s

/-! ### Receiving (R313) -/

/-- `n` flits are accepted on a link. -/
def acceptFlits (l n : Nat) (s : State) : State :=
  let x := linkOf s l
  setLink l { x with rxSeq := (x.rxSeq + n) % 1024, nakOut := false, accepted := x.accepted + n } s

/-- A CTRL is sent once per 64 accepted flits, and whenever the link has nothing else to send (R313). -/
def acknowledge (l : Nat) (s : State) : State :=
  let x := linkOf s l
  if 64 ≤ x.accepted ∨ (x.accepted ≠ 0 ∧ x.waiting.isEmpty) then sendCtrl l s else s

/-- A flit row's meaning: the header must carry the row's TYPE, and a link that carries flits accepts it. -/
def onFlit (ty l : Nat) (header : W32) (n : Nat) (f : State → State) (s : State) : Out3 :=
  if 16 ≤ l then .refused .noSuchUnit
  else if fld header 28 4 ≠ ty then .refused .illFormed
  else if (linkOf s l).carries then .next (acknowledge l (f (acceptFlits l n s))) else .next s

/-- The flits not yet acknowledged after one is, in order (R313). -/
def ackThrough (seq : Nat) (xs : List SentFlit) : List SentFlit :=
  if xs.any (·.seq == seq) then (xs.dropWhile (·.seq != seq)).tail else xs

/-- A CTRL arrives: an acknowledgement and credits (R312, R313, R315). -/
def takeCtrl (l : Nat) (header : W32) (body : List Byte) (s : State) : State :=
  let x := linkOf s l
  let left := ackThrough (fld header 0 10) x.unacked
  pump l (setLink l
    { x with unacked := left, ackSince := if left.length < x.unacked.length then now s else x.ackSince
             memCredit := min 64 (x.memCredit + leValue (body.take 2))
             mgmtCredit := min 64 (x.mgmtCredit + leValue ((body.drop 2).take 2)) } s)

/-- CTRL_FLIT (R313). -/
def execCtrlFlit (l : Nat) (header : W32) (body : List Byte) (s : State) : Out3 :=
  onFlit 0 l header 1 (takeCtrl l header body) s

/-- Flits are resent from the first of a list: the replay is counted and recorded, and the eighth of one flit takes the link
down (R313, R332). -/
def replay (l : Nat) (again : List SentFlit) (s : State) : State :=
  match again with
  | [] => s
  | f :: _ =>
    let x := linkOf s l
    let ys := again.map fun g => { g with replays := g.replays + 1 }
    let keep := x.unacked.filter fun g => !again.any (·.seq == g.seq)
    let s1 : State :=
      { setLink l { x with unacked := keep ++ ys, cntReplay := satInc 0xFFFFFFFF x.cntReplay, ackSince := now s } s with
        out := s.out ++ ys.map fun g => .flit l (g.flit.bytes g.seq) }
    let s2 := fbRaise 0x0806 (cwlPayload s l f.seq) s1
    if ys.any fun g => decide (8 ≤ g.replays) then linkRetrain l 1 s2 else s2

/-- A NAK arrives: everything from the named flit is resent, and what came before it was accepted (R313). -/
def takeNak (l seq : Nat) (s : State) : State :=
  let x := linkOf s l
  let again := x.unacked.dropWhile (·.seq != seq)
  if again.isEmpty then s else replay l again (setLink l { x with unacked := again } s)

/-- NAK_FLIT (R313). -/
def execNakFlit (l : Nat) (header : W32) (body : List Byte) (s : State) : Out3 :=
  onFlit 1 l header 1 (fun t => if body.length ≤ 56 then takeNak l (fld header 0 10) t else t) s

/-- A flit is discarded: it is counted, and one NAK names the flit expected (R313). -/
def badFlit (l : Nat) (reserved : Bool) (s : State) : State :=
  let x := linkOf s l
  let x1 := { x with cntCrc := satInc 0xFFFFFFFF x.cntCrc, nakOut := true
                     reserved := if reserved then now s :: x.reserved else x.reserved }
  let s1 := setLink l x1 s
  let s2 := if x.nakOut then s1 else sendOn l [mkFlit 1 x.rxSeq []] s1
  if (x1.reserved.filter fun t => decide (now s < t + msTicks s)).length ≥ 3 then linkRetrain l 2 s2 else s2

/-- CWL_BAD_FLIT (R313): a flit fails its CRC, or carries a reserved TYPE. -/
def execCwlBadFlit (l : Nat) (reserved : Bool) (s : State) : Out3 :=
  if 16 ≤ l then .refused .noSuchUnit
  else if (linkOf s l).carries then .next (badFlit l reserved s) else .next s

/-- 512 block times in ticks, rounded up (R311, R313). -/
def ackTicks (s : State) : Nat := if bitOf s.mer.cfg 0 then 1879 else 2045

/-- REPLAY_TIMEOUT (R313): ACKSEQ has not advanced for 512 block times while flits remain unacknowledged. -/
def execReplayTimeout (l : Nat) (s : State) : Out3 :=
  if 16 ≤ l then .refused .noSuchUnit
  else
    let x := linkOf s l
    if x.carries && !x.unacked.isEmpty && decide (x.ackSince + ackTicks s ≤ now s) then .next (replay l x.unacked s)
    else .next s

/-! ### Lanes (R314) -/

/-- LMAP.SPARE. -/
def spareLane (lmap : W32) : Nat := fld lmap 15 3

/-- The logical lane that a physical lane carries. -/
def logicalLane (lmap : W32) (lane : Nat) : Option Nat := (List.range 4).find? fun i => fld lmap (3 * i) 3 == lane

/-- The spare takes over from the lane that carries logical lane i (R314, R332). -/
def substituteLane (l lane i : Nat) (sudden : Bool) (s : State) : State :=
  let x := linkOf s l
  let m := putFld (putFld x.lmap (3 * i) 3 (spareLane x.lmap)) 15 3 7
  fbRaise 0x0803 (cwlPayload s l (lane * 2 ^ 8 + sudden.toNat))
    (irqSet (cwlPage l) 4 (setLink l { x with lmap := m, lanes := mappedLanes m 4 } s))

/-- LANE_MARGIN_LOW (R314): an active lane's margin has stayed below the threshold for 1 ms; the spare takes it over. -/
def execLaneMarginLow (l lane : Nat) (s : State) : Out3 :=
  if 16 ≤ l ∨ 5 ≤ lane then .refused .noSuchUnit
  else
    let x := linkOf s l
    match logicalLane x.lmap lane with
    | some i => if x.state == .up && spareLane x.lmap != 7 then .next (substituteLane l lane i false s) else .next s
    | none => .next s

/-- The link goes on as DEGRADED with logical lanes 0 and 1 on the two lowest lanes that still run (R314; log entry 24). -/
def degradeLink (l lane : Nat) (s : State) : State :=
  let x := linkOf s l
  let good := ((List.range 4).map fun i => fld x.lmap (3 * i) 3).filter (· != lane)
  let m := putFld (putFld x.lmap 0 3 (good.getD 0 0)) 3 3 (good.getD 1 0)
  fbRaise 0x0804 (cwlPayload s l 0)
    (irqSet (cwlPage l) 8 (setLink l { x with state := .degraded, lmap := m, lanes := mappedLanes m 2, since := now s } s))

/-- An active lane loses block lock (R314). -/
def loseLane (l lane : Nat) (s : State) : State :=
  let x := linkOf s l
  let y := { x with failed := insertNat lane x.failed }
  if lane = spareLane x.lmap then setLink l { y with lmap := putFld x.lmap 15 3 7 } s
  else
    match logicalLane x.lmap lane with
    | none => s
    | some i =>
      let s1 := setLink l y s
      if x.state = .degraded then (if bitAt x.lanes lane then linkRetrain l 3 s1 else s1)
      else if spareLane x.lmap ≠ 7 then
        let s2 := substituteLane l lane i true s1
        replay l (linkOf s2 l).unacked s2
      else degradeLink l lane s1

/-- LANE_LOSS (R314): a lane loses block lock. -/
def execLaneLoss (l lane : Nat) (s : State) : Out3 :=
  if 16 ≤ l ∨ 5 ≤ lane then .refused .noSuchUnit
  else if (linkOf s l).carries then .next (loseLane l lane s) else .next s

/-! ### Memory between sheets (R316, R324) -/

/-- A routed message goes on toward its target (R316). -/
def forwardMsg (t : Nat) (m : List Flit) (s : State) : State :=
  match routeTo s t with
  | some l => sendOn l m s
  | none => s

/-- The flits of a MEMRSP (R312). -/
def memRspFlits (s : State) (sheet tag : Nat) (line : List Byte) (status : Nat) : List Flit :=
  let h := tag * 2 ^ 16 + s.glb.sheet * 2 ^ 10 + sheet
  let b := padBytes 64 line
  [mkFlit 5 h (b.take 56), mkFlit 5 (h + 2 ^ 9) (b.drop 56 ++ [BitVec.ofNat 8 status])]

/-- An answer to a MEMRD leaves for the requesting sheet. -/
def answerRead (sheet tag : Nat) (line : List Byte) (status : Nat) (s : State) : State :=
  forwardMsg sheet (memRspFlits s sheet tag line status) s

/-- The HBM word offset of this sheet that a memory flit's address names (R324; log entry 25). -/
def flitOffset (s : State) (addr : Nat) : Option Nat :=
  match placeOf s 0 addr with
  | .hbm a => if 0x10000000 ≤ addr ∧ a + 32 ≤ hbmWords then some (a - a % 32) else none
  | _ => none

/-- A line of HBM is read for another sheet: OK, or poisoned (R183, R312). -/
def serveLine (sheet tag a : Nat) (s : State) : State :=
  let r := deviceLine ((hbmBase + a) / 32) s
  match r.1 with
  | .words ws => answerRead sheet tag (wordsBytes ws) 0 r.2
  | .failed _ => answerRead sheet tag [] 1 r.2

/-- A MEMRD for this sheet: served coherently, as a Sluice access (R187, R324). -/
def serveRead (sheet tag addr : Nat) (s : State) : State :=
  match flitOffset s addr with
  | none => answerRead sheet tag [] 3 s
  | some a =>
    match snoopLine s (.hbm a) with
    | some l =>
      let s1 := sendBisnp l s
      { s1 with hbm := { s1.hbm with snoops := s1.hbm.snoops ++ [{ line := l, bytes := [] }] }
                atl := { s1.atl with serve := s1.atl.serve ++ [{ sheet := sheet, tag := tag, addr := a }] } }
    | none => serveLine sheet tag a s

/-- Reads for other sheets whose line's snoop has been answered are served (R187). -/
def serveWaiting (line : Nat) (s : State) : State :=
  let due := s.atl.serve.filter fun w => lineOf w.addr == line
  due.foldl (fun t w => serveLine w.sheet w.tag w.addr t)
    (setAtl { s.atl with serve := s.atl.serve.filter fun w => lineOf w.addr != line } s)

/-- A credit of the memory class is returned with the next CTRL (R315). -/
def creditMem (l n : Nat) (s : State) : State := let x := linkOf s l; setLink l { x with memBack := x.memBack + n } s
/-- A credit of the MGMT class is returned with the next CTRL (R315). -/
def creditMgmt (l n : Nat) (s : State) : State := let x := linkOf s l; setLink l { x with mgmtBack := x.mgmtBack + n } s

/-- A MEMRD arrives (R316, R324). -/
def takeMemRd (l : Nat) (header : W32) (body : List Byte) (s : State) : State :=
  let src := fld header 10 6
  let tgt := fld header 0 6
  let tag := fld header 16 12
  let s1 := creditMem l 1 s
  if tgt = s.glb.sheet then serveRead src tag (leValue (body.take 6)) s1
  else match routeTo s tgt with
    | some m => sendOn m [{ header := header, payload := body }] s1
    | none => answerRead src tag [] 2 s1

/-- MEMRD_FLIT (R324). -/
def execMemrdFlit (l : Nat) (header : W32) (body : List Byte) (s : State) : Out3 :=
  onFlit 4 l header 1 (takeMemRd l header body) s

/-- A reed's read of other sheets is complete: its bytes, from the lines that have come (R324). -/
def reedAtlasValue (s : State) (r byte len : Nat) : Nat :=
  leValue ((List.range len).map fun i =>
    let w := (byte + i) / 2
    match placeOf s r w with
    | .atlas t a =>
      match s.atl.reads.find? fun q => !q.late && q.agent == r && q.addr == atlasAddr t (a - a % 32) with
      | some q => (q.got.getD []).getD (2 * (a % 32) + (byte + i) % 2) 0
      | none => 0
    | pl => match pl.word with
      | some v => memGet s.mem (2 * v + (byte + i) % 2)
      | none => 0)

/-- The far read that a reed waits on. -/
def waitingRead (s : State) (r : Nat) : Option Far :=
  let x := reedOf s r
  match x.running, x.wait with
  | some c, some (.farRead _) => (farOf (effects (viewOf s r c x none) x)).map (·.2)
  | _, _ => none

/-- A line comes back for a reed (R60, R324). -/
def reedLine (q : AtlasRead) (status : Nat) (line : List Byte) (s : State) : State :=
  let r := q.agent
  if q.late then
    countLate r (setAtl { s.atl with reads := s.atl.reads.filter (· != q) } s)
  else
    match waitingRead s r with
    | none => setAtl { s.atl with reads := s.atl.reads.filter (· != q) } s
    | some f =>
      if status ≠ 0 then failFarRead r 4 (f.byte / 2) (endFarRead r s)
      else
        let a := { s.atl with reads := s.atl.reads.map fun p => if p = q then { p with got := some line } else p }
        let s1 := setAtl a s
        if s1.atl.reads.any fun p => p.agent == r && !p.late && p.got.isNone then s1
        else
          let v := reedAtlasValue s1 r f.byte f.len
          resumeBundle r (some v) (farCharge s1 r f.tgt (f.byte / 2)) (endFarRead r s1)

/-- A line comes back for a Sluice engine (R212, R324). -/
def engineLine (q : AtlasRead) (status : Nat) (line : List Byte) (s : State) : State :=
  let b := q.agent - 0x8000
  if q.late then
    match (engineOf s b).late.findIdx? fun e => e.rq == q.slot && e.kind == .atlas with
    | some k => lateArrival b k 0 s
    | none => setAtl { s.atl with reads := s.atl.reads.filter (· != q) } s
  else requestData b q.slot line (decide (status = 0)) s

/-- A MEMRSP pair arrives (R312, R316, R324). -/
def takeMemRsp (l : Nat) (header : W32) (body body2 : List Byte) (s : State) : State :=
  let tgt := fld header 0 6
  let s1 := creditMem l 2 s
  if tgt ≠ s.glb.sheet then
    forwardMsg tgt [{ header := header, payload := body }, { header := putBit header 9 true, payload := body2 }] s1
  else
    match s1.atl.reads.find? fun q => q.tag == fld header 16 12 with
    | none => s1
    | some q =>
      let status := ((padBytes 56 body2).getD 8 0).toNat
      let line := padBytes 56 body ++ (padBytes 56 body2).take 8
      if q.agent < 544 then reedLine q status line s1 else engineLine q status line s1

/-- MEMRSP_FLIT (R324): the two flits of a response. -/
def execMemrspFlit (l : Nat) (header : W32) (body body2 : List Byte) (s : State) : Out3 :=
  onFlit 5 l header 2 (takeMemRsp l header body body2) s

/-- The words of a line with those of its bytes that a mask names (R312). -/
def maskedWords (a mask : Nat) (line : List Byte) : List PlacedWord :=
  (List.range 32).filterMap fun k =>
    let lo := bitAt mask (2 * k)
    let hi := bitAt mask (2 * k + 1)
    if lo || hi then
      some (.hbm (a + k), { addr := hbmBase + a + k, value := line.getD (2 * k + 1) 0 ++ line.getD (2 * k) 0, lo := lo, hi := hi })
    else none

/-- A MEMWR pair arrives: it is routed on, or its masked bytes are written (R187, R312, R324). -/
def takeMemWr (l : Nat) (header : W32) (body body2 : List Byte) (s : State) : State :=
  let tgt := fld header 0 6
  let s1 := creditMem l 2 s
  if tgt ≠ s.glb.sheet then
    forwardMsg tgt [{ header := header, payload := body }, { header := putBit header 9 true, payload := body2 }] s1
  else
    match flitOffset s (leValue (body.take 6)) with
    | none => s1
    | some a =>
      let line := (padBytes 56 body).drop 8 ++ (padBytes 56 body2).take 16
      deviceWrite (maskedWords a (leValue (((padBytes 56 body2).drop 16).take 8)) line) s1

/-- MEMWR_FLIT (R324): the two flits of a write. -/
def execMemwrFlit (l : Nat) (header : W32) (body body2 : List Byte) (s : State) : Out3 :=
  onFlit 6 l header 2 (takeMemWr l header body body2) s

/-- A MGMT message arrives: it is routed on, or given to Surveyor firmware (R312, R316, R352). -/
def takeMgmt (l : Nat) (header : W32) (body body2 : List Byte) (s : State) : State :=
  let tgt := fld header 0 6
  let len := fld header 16 12
  let two := decide (56 < len)
  let s1 := creditMgmt l (if two then 2 else 1) s
  if tgt ≠ s.glb.sheet then
    forwardMsg tgt ({ header := header, payload := body } ::
      (if two then [{ header := putBit header 9 true, payload := body2 }] else [])) s1
  else send (.mgmt (fld header 10 6) ((padBytes 56 body ++ padBytes 8 body2).take len)) s1

/-- MGMT_FLIT (R312): a message of one flit, or of two where its length exceeds 56. -/
def execMgmtFlit (l : Nat) (header : W32) (body body2 : List Byte) (s : State) : Out3 :=
  onFlit 7 l header (if 56 < fld header 16 12 then 2 else 1) (takeMgmt l header body body2) s

/-! ### Buses received (R317, R319, R328) -/

/-- The receiving side of a bus. -/
def busRxOf (s : State) (b : Nat) : BusRx := Tab.get {} s.atl.rx b
/-- The receiving side of a bus changed. -/
def setBusRx (b : Nat) (x : BusRx) (s : State) : State := setAtl { s.atl with rx := Tab.set s.atl.rx b x } s

/-- Channels of a bus are written to its doubles (R319). -/
def writeChannels (e : BusEntry) (vs : List (Nat × W32)) (s : State) : State :=
  match physOf s e.reed with
  | none => s
  | some p =>
    deviceWrite (vs.flatMap fun (cv : Nat × W32) =>
      let w := e.word p cv.1
      [(.bank w, { addr := w, value := cv.2.setWidth 16 }),
       (.bank (w + 1), { addr := w + 1, value := (cv.2 >>> (16 : Nat)).setWidth 16 })]) s

/-- The channels that an AUDIO flit carries (R312). -/
def flitChannels (e : BusEntry) (fidx : Nat) (body : List Byte) : List (Nat × W32) :=
  (List.range 14).filterMap fun i =>
    if 14 * fidx + i < e.ch then some (14 * fidx + i, BitVec.ofNat 32 (leValue ((body.drop (4 * i)).take 4))) else none

/-- The TAG names the present or the previous tide of an active domain (R19, R319). -/
def tagCurrent (s : State) (e : BusEntry) (tag : Nat) : Bool :=
  let d := domOf s e.dom
  d.active && d.begun && (tag == d.tide % 256 || (d.tide != 0 && tag == (d.tide - 1) % 256))

/-- An AUDIO flit with another TAG is discarded (R319, R332, R334). -/
def lateAudio (b tag : Nat) (s : State) : State :=
  fbRaise 0x0812 (payload s.glb.sheet (b * 2 ^ 16 + tag))
    (irqSet atlPage 32 (setAtl { s.atl with late := satInc 0xFFFF s.atl.late } s))

/-- An AUDIO flit is accepted: its channels are written, and the last of its TAG sets the token (R319). -/
def acceptAudio (b tag fidx : Nat) (e : BusEntry) (body : List Byte) (s : State) : State :=
  let x := busRxOf s b
  let vs := flitChannels e fidx body
  let got := insertNat fidx (if x.tag = tag then x.got else [])
  let whole := (List.range e.flits).all got.contains
  let y := { x with tag := tag, got := if whole then [] else got, cut := x.cut && !x.ending, ending := false
                    last := vs.foldl (fun t cv => Tab.set t cv.1 cv.2) x.last, rxTide := some (domOf s e.dom).tide }
  let s1 := setBusRx b y (writeChannels e vs s)
  if whole && e.tken then setTokenLogical e.reed e.tknum s1 else s1

/-- An AUDIO flit arrives (R19, R319, R329). -/
def takeAudio (header : W32) (body : List Byte) (s : State) : State :=
  let b := fld header 16 12
  let tag := fld header 8 8
  let e := busOf s b
  let x := busRxOf s b
  let s1 :=
    if !e.rxv || (x.cut && !x.ending) then s
    else if tagCurrent s e tag then acceptAudio b tag (fld header 0 8) e (padBytes 56 body) s
    else lateAudio b tag s
  if !e.txv && (domOf s e.dom).active then
    e.links.foldl (fun t l => sendOn l [{ header := header, payload := body }] t) s1
  else s1

/-- AUDIO_FLIT (R319). -/
def execAudioFlit (l : Nat) (header : W32) (body : List Byte) (s : State) : Out3 :=
  onFlit 3 l header 1 (takeAudio header body) s

/-- BUSW0 as it stands for the selected bus. -/
def stagedW0 (s : State) : W32 := s.atl.busW0.getD (busOf s s.atl.busSel).w0

/-- BUSW1 is written: the entry is checked and committed for the next boundary of its DOM (R317). -/
def busCommit (ag : Nat) (v : W32) (s : State) : State :=
  let e : BusEntry := { w0 := stagedW0 s, w1 := v &&& 0xFDFFFFFF#32 }
  let badLink := e.links.any fun l => !linkUsed s l
  if (e.txv && e.rxv) || decide (0xFFFF < e.off + 2 * e.ch - 1) || badLink then refuseReg 5 ag (atlOff 0x78) s
  else setAtl { s.atl with next := Tab.set s.atl.next s.atl.busSel (some e), busW0 := none } s

/-- BUS_COMMIT (R317). -/
def execBusCommit (ag : Nat) (v : W32) (s : State) : Out3 := .next (atPage ag (atlOff 0x78) (busCommit ag v) s)

/-- Commits of a domain take effect at its boundary (R317). -/
def applyBusCommits (d : Nat) (s : State) : State :=
  s.atl.next.foldl (fun t be =>
    match be.2 with
    | some e =>
      if e.dom = d then
        setAtl { t.atl with buses := Tab.set t.atl.buses be.1 e, next := Tab.set t.atl.next be.1 none
                            rx := Tab.set t.atl.rx be.1 { busRxOf t be.1 with got := [] } } t
      else t
    | none => t) s

/-- The value of a channel in the j-th substituted tide (R328). -/
def substituted (e : BusEntry) (x : BusRx) (j c : Nat) : W32 :=
  if e.pol = 1 ∧ j ≤ 256 then wrap 32 ((Tab.get 0 x.last c).toInt * (256 - (j : Int)) / 256) else 0

/-- One bus under substitution at a boundary (R328, R330). -/
def substituteBus (b : Nat) (e : BusEntry) (s : State) : State :=
  let x := busRxOf s b
  let j := x.subst + 1
  let vs := (List.range e.ch).map fun c => (c, substituted e x j c)
  let s1 := setBusRx b { x with subst := j } (writeChannels e vs s)
  if e.tken then setTokenLogical e.reed e.tknum s1 else s1

/-- Substitution at a boundary of domain d (R328). -/
def busSubstitution (d : Nat) (s : State) : State :=
  s.atl.rx.foldl (fun t rx =>
    let e := busOf t rx.1
    if rx.2.cut && e.rxv && e.dom == d then substituteBus rx.1 e t else t) s

/-! ### Time and heartbeats (R322, R325 to R327) -/

/-- 8 µs in ticks (R326). -/
def silentTicks (s : State) : Nat := if bitOf s.mer.cfg 0 then 7225 else 7864
/-- The ticks between heartbeats (R325). -/
def hbTicks (s : State) : Nat := if bitOf s.mer.cfg 0 then 903 else 983

/-- The sheet of successor rank k, where one is listed (R327, R334). -/
def successor (a : Atlas) (k : Nat) : Option Nat :=
  let b := fld (if k < 4 then a.succ0 else a.succ1) (8 * (k % 4)) 8
  if bitAt b 7 then some (b % 64) else none

/-- The tidemaster followed. -/
def curTmOf (s : State) : Nat := s.atl.curTm.getD s.glb.sheet

/-- The sheet whose age has index k. -/
def ageSheet (s : State) (k : Nat) : Option Nat := if k = 0 then some (curTmOf s) else successor s.atl (k - 1)

/-- An age in ticks: 0 for this sheet itself; none where nothing has been heard (R325). -/
def ageOf (s : State) (k : Nat) : Option Nat :=
  if ageSheet s k = some s.glb.sheet then some 0
  else (s.atl.ageAt.lookup k).map fun t => now s - t

/-- An age as AGEk and heartbeats carry it (R325, R334). -/
def ageField (s : State) (k : Nat) : Nat :=
  match ageOf s k with
  | some a => min 0xFFFF (a / 16)
  | none => 0xFFFF

/-- The payload of a heartbeat on a link (R325). -/
def hbPayload (s : State) (x : Link) : List Byte :=
  leBytes 2 (s.glb.sheet + (if s.atl.tmaster then 2 ^ 15 else 0)) ++ leBytes 2 (curTmOf s) ++ leBytes 2 s.atl.epoch ++
  leBytes 8 (now s) ++ leBytes 2 0 ++
  leBytes 8 (x.hbSent / 65536) ++ leBytes 2 x.hbSent ++ leBytes 8 (x.hbTime / 65536) ++ leBytes 2 x.hbTime ++
  (List.range 9).flatMap fun k => leBytes 2 (ageField s k)

/-- HB_SEND (R325): every 1 µs, a heartbeat on every link that is UP. -/
def execHbSend (s : State) : Out3 :=
  if s.atl.en && decide (s.atl.hbAt + hbTicks s ≤ now s) then
    .next ((List.range 16).foldl (fun t l =>
      if (linkOf t l).carries then sendOn l [mkFlit 2 0 (hbPayload t (linkOf t l))] t else t)
      (setAtl { s.atl with hbAt := now s } s))
  else .next s

/-- The link to the parent of the timing path (R322). -/
def parentLink (s : State) : Option Nat :=
  if s.atl.tmaster || curTmOf s == s.glb.sheet then none else routeTo s (curTmOf s)

/-- The one-way delay that a heartbeat's echo shows, in 1/65,536 tick: half the round trip; none before an echo (R322). -/
def hbDelay (recv sent echoSent echoRecv : Nat) : Option Nat :=
  if echoSent = 0 then none else some (((recv - echoSent) - (sent - echoRecv)) / 2)

/-- The smallest age is kept for each origin (R325). -/
def mergeAges (delay : Nat) (ages : List Nat) (s : State) : Tab Nat :=
  (List.range 9).foldl (fun (t : Tab Nat) k =>
    let rep := ages.getD k 0xFFFF
    if rep = 0xFFFF then t
    else
      let at' := now s - (16 * rep + delay / 65536)
      match t.lookup k with
      | some old => if old < at' then Tab.set t k at' else t
      | none => Tab.set t k at') s.atl.ageAt

/-- A heartbeat names a tidemaster: the one followed keeps its EPOCH up to date; a partitioned sheet follows a higher EPOCH;
the sheets of a yielding part follow where their tidemaster goes (R327, R329, R330). -/
def chooseTm (sender tm epoch : Nat) (s : State) : State :=
  let a := s.atl
  if a.tmaster then s
  else if tm = curTmOf s then setAtl { a with epoch := epoch } s
  else if a.partition ∧ a.epoch < epoch ∧ !a.slewing then
    setAtl { a with curTm := some tm, epoch := epoch, ageAt := a.ageAt.filter (·.1 != 0)
                    hops := hopsBetween a.cfg s.glb.sheet tm } s
  else if sender = curTmOf s then
    setAtl { a with curTm := some tm, epoch := epoch, slewing := true, joining := tm, ageAt := a.ageAt.filter (·.1 != 0)
                    hops := hopsBetween a.cfg s.glb.sheet tm } s
  else s

/-- The phase error below which a sheet is LOCKED: 0.25 ns in 1/65,536 tick (R322). -/
def lockLimit (s : State) : Nat := if bitOf s.mer.cfg 0 then 14797 else 16107

/-- What a heartbeat from the parent gives: PHASE, LOCKED and OFFSET (R322). Beyond one hop the spec does not say how OFFSET
follows, and its value is free. -/
def steer (sent delay recv sender : Nat) (s : State) : State :=
  let err : Int := ((sent + delay : Nat) : Int) - recv
  let frac := signed 16 ((err % 65536).toNat)
  let locked := decide (frac.natAbs < lockLimit s)
  let s1 := if locked != s.atl.locked then irqSet atlPage 1 s else s
  let f := takeFree s1
  let g := takeFree f.2
  let near := decide (sender = curTmOf s)
  let off : W64 := if near then wrap 64 ((err + 32768) / 65536) else g.1 ++ f.1
  let s2 := if near then s1 else g.2
  setAtl { s2.atl with phase := wrap 32 (frac / 256), locked := locked, offset := off } s2

/-- A heartbeat arrives (R322, R325, R327). -/
def takeHb (l : Nat) (body : List Byte) (recvFrac : Nat) (s : State) : State :=
  let b := padBytes 56 body
  let num := fun i n => leValue ((b.drop i).take n)
  let sender := num 0 2 % 64
  let stamp := fun i => num i 8 * 65536 + num (i + 8) 2
  let recv := now s * 65536 + recvFrac % 65536
  let x := linkOf s l
  let delay := hbDelay recv (stamp 6) (stamp 16) (stamp 26)
  let d := delay.getD x.delay.toNat
  let s1 := setLink l { x with hbSent := stamp 6, hbTime := recv, delay := BitVec.ofNat 32 d } s
  let ages := (List.range 9).map fun k => if k = 0 ∧ num 2 2 % 64 ≠ curTmOf s then 0xFFFF else num (36 + 2 * k) 2
  let s2 := setAtl { s1.atl with ageAt := mergeAges d ages s1 } s1
  let s3 := chooseTm sender (num 2 2 % 64) (num 4 2) s2
  let back := s3.atl.lost.filter fun k => match ageOf s3 (k + 1) with
    | some a => decide (silentTicks s3 ≤ a)
    | none => true
  let s4 := setAtl { s3.atl with lost := back } s3
  if parentLink s4 = some l ∧ delay.isSome ∧ !s4.atl.holdover then steer (stamp 6) d recv sender s4 else s4

/-- HB_FLIT (R325): a heartbeat received at a fraction of a tick. -/
def execHbFlit (l : Nat) (header : W32) (body : List Byte) (frac : Nat) (s : State) : Out3 :=
  onFlit 2 l header 1 (takeHb l body frac) s

/-- A payload of an atlas record (R332). -/
def atlPayload (s : State) (v : Nat) : W64 := payload s.glb.sheet v

/-- AGE0 has reached 8 µs on a follower (R326). -/
def partitionDue (s : State) : Bool :=
  s.atl.en && !s.atl.tmaster && !s.atl.partition &&
  (match ageOf s 0 with
    | some a => decide (silentTicks s ≤ a)
    | none => false)

/-- A partition: holdover, and substitution for the buses whose senders lie in the other part (R326, R328). -/
def takePartition (cut : List Nat) (s : State) : State :=
  let tm := curTmOf s
  let s1 := setAtl { s.atl with partition := true, holdover := true } s
  let s2 := cut.foldl (fun t b => if (busOf t b).rxv then
    setBusRx b { busRxOf t b with cut := true, subst := 0, ending := false } t else t) s1
  fbRaise 0x0813 (atlPayload s 0) (fbRaise 0x0810 (atlPayload s tm) (irqSet atlPage 6 s2))

/-- PARTITION (R326): AGE0 reaches 8 µs; `cut` names the buses whose sending sheets lie in the other part. -/
def execPartition (cut : List Nat) (s : State) : Out3 := if partitionDue s then .next (takePartition cut s) else .next s

/-- SUCCESSOR_UNREACHABLE (R326): on the tidemaster's side, the age of the successor of rank k passes 8 µs. -/
def execSuccessorUnreachable (k : Nat) (s : State) : Out3 :=
  match successor s.atl k, ageOf s (k + 1) with
  | some sh, some a =>
    if k < 8 ∧ s.atl.en ∧ !s.atl.partition ∧ !s.atl.lost.contains k ∧ silentTicks s < a then
      .next (fbRaise 0x0817 (atlPayload s sh) (setAtl { s.atl with lost := insertNat k s.atl.lost } s))
    else .next s
  | _, _ => .next s

/-- This sheet's own rank among the successors. -/
def ownRank (s : State) : Option Nat := (List.range 8).find? fun k => successor s.atl k == some s.glb.sheet

/-- Every successor ranked above k is silent (R327). -/
def outranked (s : State) (k : Nat) : Bool :=
  (List.range k).all fun j => match successor s.atl j with
    | none => true
    | some _ => match ageOf s (j + 1) with
      | some a => decide (silentTicks s ≤ a)
      | none => true

/-- PROMOTION (R327): a partitioned successor leads its part. -/
def execPromotion (s : State) : Out3 :=
  match ownRank s with
  | some k =>
    if s.atl.partition && !s.atl.tmaster && !s.atl.slewing && outranked s k then
      let e := (s.atl.epoch + 1) % 2 ^ 16
      .next (fbRaise 0x0811 (atlPayload s e)
        (irqSet atlPage 8 (setAtl { s.atl with epoch := e, tmaster := true, curTm := some s.glb.sheet, hops := 0 } s)))
    else .next s
  | none => .next s

/-! ### Rejoin (R329, R330) -/

/-- REJOIN is written, with the phase error measured against the other part's tidemaster, in ticks (R329). -/
def rejoin (tm err : Nat) (s : State) : State :=
  if !s.atl.tmaster || !s.atl.partition then irqSet atlPage 16 (setAtl { s.atl with result := 3 } s)
  else if s.atl.maxErr < err then
    fbRaise 0x0816 (atlPayload s tm) (irqSet atlPage 16 (setAtl { s.atl with result := 2 } s))
  else
    fbRaise 0x0814 (atlPayload s tm)
      (setAtl { s.atl with tmaster := false, curTm := some tm, slewing := true, joining := tm, locked := false
                           ageAt := s.atl.ageAt.filter (·.1 != 0), hops := hopsBetween s.atl.cfg s.glb.sheet tm } s)

/-- REJOIN (R329): `tm` is the other part's tidemaster and `err` the phase error found. -/
def execRejoin (ag tm err : Nat) (s : State) : Out3 :=
  if 64 ≤ tm then .refused .noSuchUnit else .next (atPage ag (atlOff 8) (rejoin tm err) s)

/-- REJOIN_COMPLETE (R329): every sheet of the yielding part is LOCKED. -/
def execRejoinComplete (s : State) : Out3 :=
  if s.atl.slewing then
    let rx := s.atl.rx.map fun r => (r.1, { r.2 with ending := r.2.cut })
    .next (fbRaise 0x0815 (atlPayload s s.atl.joining) (irqSet atlPage 16
      (setAtl { s.atl with partition := false, holdover := false, slewing := false, result := 1, rx := rx } s)))
  else .next s

/-! ### Loop-backs (R331) -/

/-- LOOP_CTRL written with DEPTH 0: DONE, FAIL and ERRS stay, `keep` names the other fields written, and a loop-back that
runs is off (R307, R331, R382; log entry 30). -/
def loopOff (old v keep : W32) : W32 := (old &&& 0xC0FF0000#32) ||| (v &&& keep)

/-- LOOP_CTRL of a CWL page is written (R331, R333). -/
def startCwlLoop (ag l : Nat) (v : W32) (s : State) : State :=
  let d := fld v 0 3
  let x := linkOf s l
  let off := cwlOff l 0x28
  let ok := s.glb.state == .test || (s.glb.state == .service && d == 4)
  if 5 ≤ d then refuseReg 5 ag off s
  else if d = 0 then
    let s1 := setLink l { x with loop := loopOff x.loop v 0x3F00FF00#32 } s
    if fld x.loop 0 3 = 0 ∨ fld x.loop 0 3 = 4 then s1
    else startTraining l (setLink l { linkOf s1 l with state := .down } s1)
  else if !ok then refuseReg 4 ag off s
  else
    let ctl := (v &&& 0x3F00FF07#32)
    let stop := now s + max 1 (fld v 8 8) * 2 ^ 20
    if d ≤ 3 then setLink l { x.clearLayer with loop := ctl, loopEnd := stop, state := .test, lanes := 0, since := now s } s
    else
      let f := takeFree (setLink l { x with loop := ctl, loopEnd := stop } s)
      sendOn l [mkFlit 8 0 (leBytes 4 f.1.toNat)] f.2

/-- CWL_LOOPBACK_START (R331). -/
def execCwlLoopbackStart (ag l : Nat) (v : W32) (s : State) : Out3 :=
  if 16 ≤ l then .refused .noSuchUnit else .next (atPage ag (cwlOff l 0x28) (startCwlLoop ag l v) s)

/-- LOOP_CTRL once a loop-back has ended: DONE, FAIL, ERRS, and DEPTH 0 (R331, R333). -/
def loopDone (v : W32) (errs : Nat) (formed : Bool) : W32 :=
  putFld (putFld (putBit (putBit v 31 true) 30 (decide (errs ≠ 0) || !formed)) 16 8 (min errs 255)) 0 3 0

/-- CWL_LOOPBACK_END (R331): a loop-back ends after its duration, with the flits found in error. -/
def execCwlLoopbackEnd (l errs : Nat) (formed : Bool) (s : State) : Out3 :=
  if 16 ≤ l then .refused .noSuchUnit
  else
    let x := linkOf s l
    let d := fld x.loop 0 3
    if d = 0 ∨ now s < x.loopEnd then .next s
    else
      let s1 := setLink l { x with loop := loopDone x.loop (errs + fld x.loop 16 8) formed } s
      .next (if d ≤ 3 then startTraining l (setLink l { linkOf s1 l with state := .down } s1) else s1)

/-- A LOOP flit arrives: at the sheet that runs the loop-back it is compared, elsewhere it is returned (R331). -/
def takeLoop (l : Nat) (header : W32) (body : List Byte) (same : Bool) (s : State) : State :=
  let x := linkOf s l
  if fld x.loop 0 3 = 4 then
    setLink l { x with loop := putFld x.loop 16 8 (min 255 (fld x.loop 16 8 + (!same).toNat)), mgmtBack := x.mgmtBack + 1 } s
  else sendOn l [{ header := header, payload := body }] (creditMgmt l 1 s)

/-- LOOP_FLIT (R331): `same` says whether a returned flit carries the pattern that was sent. -/
def execLoopFlit (l : Nat) (header : W32) (body : List Byte) (same : Bool) (s : State) : Out3 :=
  onFlit 8 l header 1 (takeLoop l header body same) s

/-! ### Counters read (R333, R334) -/

/-- What a read of CWL.CNT_CRC returns, and the state after it (R387). -/
def takeCwlCntCrc (l : Nat) (t : State) : W32 × State :=
  (BitVec.ofNat 32 (linkOf t l).cntCrc, setLink l { linkOf t l with cntCrc := 0 } t)

/-- CWL_CNT_CRC_READ (R333). -/
def execCwlCntCrcRead (ag l : Nat) (s : State) : Out3 :=
  if 16 ≤ l then .refused .noSuchUnit
  else .next (readPage ag (cwlOff l 0x4C) (takeCwlCntCrc l) s)

/-- What a read of CWL.CNT_REPLAY returns, and the state after it (R387). -/
def takeCwlCntReplay (l : Nat) (t : State) : W32 × State :=
  (BitVec.ofNat 32 (linkOf t l).cntReplay, setLink l { linkOf t l with cntReplay := 0 } t)

/-- CWL_CNT_REPLAY_READ (R333). -/
def execCwlCntReplayRead (ag l : Nat) (s : State) : Out3 :=
  if 16 ≤ l then .refused .noSuchUnit
  else .next (readPage ag (cwlOff l 0x50) (takeCwlCntReplay l) s)

/-- The number of buses under substitution (R334). -/
def substCount (s : State) : Nat := (s.atl.rx.filter fun r => r.2.cut && decide (0 < r.2.subst)).length

/-- What a read of ATL.CNT returns, and the state after it (R387). -/
def takeAtlCnt (t : State) : W32 × State :=
  (BitVec.ofNat 32 (t.atl.late * 2 ^ 16 + substCount t), setAtl { t.atl with late := 0 } t)

/-- ATL_CNT_READ (R334): LATE is returned and cleared. -/
def execAtlCntRead (ag : Nat) (s : State) : Out3 :=
  .next (readPage ag (atlOff 0x7C) (takeAtlCnt) s)

end Sys2Proof.Machine
end

