-- ==== Sys2Proof/Machine/FieldBook.lean ====
section
/-! DEFINITION. Sys2Proof/Machine/FieldBook.lean: the Field Book (R355 to R365). The token buckets and the input queue are
in Ops. -/

namespace Sys2Proof.Machine

/-- The BAR0 byte offset of a register of the FBK page. -/
def fbkOff (o : Nat) : Nat := 0x4000 + o

/-- The Field Book changed. -/
def setFbk (f : Fbk) (s : State) : State := { s with fbk := f }

/-! ### Slots and the window (R356, R357, R362) -/

/-- The records in the present window (R361). -/
def Fbk.window (f : Fbk) : Nat := if f.onBackup then 64 else 8192
/-- The sequence number of the oldest record in the window. -/
def Fbk.oldest (f : Fbk) : Nat := f.next - f.window
/-- The slot of a sequence number in the memory in use. -/
def Fbk.slot (f : Fbk) (seq : Nat) : Nat := seq % f.window
/-- The record that a slot of the memory in use holds. -/
def Fbk.record (f : Fbk) (seq : Nat) : FbRecord :=
  if f.onBackup then Tab.get {} f.backup (f.slot seq) else Tab.get {} f.main (f.slot seq)
/-- A record is put into its slot of the memory in use. -/
def Fbk.put (f : Fbk) (r : FbRecord) : Fbk :=
  if f.onBackup then { f with backup := Tab.set f.backup (f.slot r.seq) r }
  else { f with main := Tab.set f.main (f.slot r.seq) r }

/-- The latest record of a code in the window (R361). -/
def Fbk.latest (f : Fbk) (code : Nat) : Option FbRecord :=
  (if f.onBackup then f.backup else f.main).foldl (fun (best : Option FbRecord) e =>
    let r := e.2
    if r.code = code ∧ f.oldest ≤ r.seq ∧ r.seq < f.next then
      match best with
      | some b => if b.seq < r.seq then some r else best
      | none => some r
    else best) none

/-- A new record: it takes the next sequence number, and the time at the commit (R356). -/
def fbWrite (code count : Nat) (pay : W64) (s : State) : State :=
  let f := s.fbk
  let r : FbRecord := { seq := f.next, code := code, count := count, tide := now s, wall := f.wall, epoch := f.epoch
                        payload := pay }
  setFbk { (f.put r) with next := f.next + 1 } s

/-- Mirror entries are lost (R363). -/
def fbMirLost (n : Nat) (s : State) : State :=
  irqSet 4 4 (setFbk { s.fbk with mirLost := min 0xFFFF (s.fbk.mirLost + n) } s)

/-- The latest record of an accumulating code is updated in place (R361); where it has been mirrored, it waits to be
copied again, at most 16 of them (R363). -/
def fbUpdate (r : FbRecord) (pay : W64) (s : State) : State :=
  let f := s.fbk
  let s1 := setFbk (f.put { r with count := satInc 0xFFFF r.count, tide := now s, wall := f.wall, epoch := f.epoch
                                   payload := pay }) s
  if f.miren ∧ r.seq < f.mirSeq then
    let us := f.updates ++ [{ seq := r.seq }]
    if 16 < us.length then fbMirLost 1 (setFbk { s1.fbk with updates := us.drop 1 } s1)
    else setFbk { s1.fbk with updates := us } s1
  else s1

/-- A request becomes a record (R356, R361). -/
def fbCommit (q : FbRequest) (s : State) : State :=
  if fbAccumulates q.code then
    match s.fbk.latest q.code with
    | some r => fbUpdate r q.payload s
    | none => fbWrite q.code 1 q.payload s
  else fbWrite q.code q.count q.payload s

/-! ### Failure of the memory (R362) -/

/-- Recording stops until power-good. -/
def fbDead (s : State) : State := irqSet 4 2 (setFbk { s.fbk with dead := true } s)

/-- An uncorrectable error in slot `n` of the main SRAM: backup-only mode, or the end of recording. -/
def fbMainFails (n : Nat) (s : State) : State :=
  if s.fbk.onBackup then s
  else if s.fbk.bkFail then fbDead s
  else
    let s1 := setFbk { s.fbk with onBackup := true, backup := [] } s
    irqSet 4 1 (fbWrite 0x0D01 1 (BitVec.ofNat 64 (n % 8192)) s1)

/-- An uncorrectable error in slot `n` of the backup SRAM. -/
def fbBackupFails (n : Nat) (s : State) : State :=
  if s.fbk.onBackup then fbDead s
  else if s.fbk.bkFail then s
  else irqSet 4 8 (fbRaise 0x0D02 (BitVec.ofNat 64 (n % 64)) (setFbk { s.fbk with bkFail := true } s))

/-- The memory in use fails at the slot of a sequence number. -/
def fbFails (seq : Nat) (s : State) : State :=
  if s.fbk.onBackup then fbBackupFails (s.fbk.slot seq) s else fbMainFails (s.fbk.slot seq) s

/-- The sequence number whose slot a request will touch. -/
def fbTouches (f : Fbk) (code : Nat) : Nat :=
  match if fbAccumulates code then f.latest code else none with
  | some r => r.seq
  | none => f.next

/-- FB_COMMIT (R356): the oldest request of the input queue is committed; `ue` says that its slot meets an uncorrectable
error (R362). -/
def execFbCommit (ue : Bool) (s : State) : Out3 :=
  match s.fbk.queue with
  | [] => .next s
  | q :: rest =>
    if s.glb.state = .off then .next s
    else
      let s1 := setFbk { s.fbk with queue := rest } s
      let s2 := if ue ∧ !s1.fbk.dead then fbFails (fbTouches s1.fbk q.code) s1 else s1
      if s2.fbk.dead then .next (setFbk { s2.fbk with dropped := satInc 0xFFFF s2.fbk.dropped } s2)
      else .next (fbCommit q s2)

/-! ### Flood control (R360) -/

/-- A bucket is full with an occurrence suppressed: the last of them is written. -/
def fbFlush (code : Nat) (b : Bucket) (s : State) : State :=
  let f := s.fbk
  let r := if f.dead then ({ f with dropped := satInc 0xFFFF f.dropped }, true)
    else fbEnqueue f { code := code, count := b.suppressed - 1, payload := b.last }
  let b1 : Bucket := { b with held := f.burst - 1, since := now s, len := 1024 * max f.refill 1
                              suppressed := if r.2 then 0 else b.suppressed }
  setFbk { r.1 with buckets := Tab.set r.1.buckets code b1 } s

/-- FB_REFILL (R360): a refill period of a code's bucket ends. -/
def execFbRefill (code : Nat) (s : State) : Out3 :=
  let f := s.fbk
  let b := bucketOf f code
  if s.glb.state ≠ .off ∧ b.held < f.burst ∧ b.since + b.len ≤ now s then
    let b1 : Bucket := { b with held := b.held + 1, since := b.since + b.len, len := 1024 * max f.refill 1 }
    if b1.held = f.burst ∧ 0 < b.suppressed then .next (fbFlush code b1 s)
    else .next (setFbk { f with buckets := Tab.set f.buckets code b1 } s)
  else .next s

/-- A bucket under a newly written burst. -/
def Bucket.rebase (tick len old burst : Nat) (b : Bucket) : Bucket :=
  if b.held ≥ burst then { b with held := burst }
  else if b.held ≥ old then { b with since := tick, len := len }
  else b

/-- RL_CFG is written (R360, R365). -/
def writeRlCfg (v : W32) (s : State) : State :=
  let f := s.fbk
  let burst := max 1 (fld v 0 8)
  let refill := fld v 16 16
  let len := 1024 * max refill 1
  let base := Bucket.rebase (now s) len f.burst burst { held := f.base, since := f.baseSince, len := f.baseLen }
  setFbk { f with refill := refill, burst := burst, base := base.held, baseSince := base.since, baseLen := base.len
                  buckets := f.buckets.map fun e => (e.1, e.2.rebase (now s) len f.burst burst) } s

/-! ### Reading (R359) -/

/-- A record as eight 32-bit words (R355). -/
def FbRecord.words (r : FbRecord) : List W32 :=
  let q (v : Nat) : List W32 := [BitVec.ofNat 32 v, BitVec.ofNat 32 (v / 2 ^ 32)]
  q (r.seq % 2 ^ 48 + r.code % 2 ^ 16 * 2 ^ 48) ++ q (r.count % 2 ^ 16 + r.tide / 2 ^ 16 % 2 ^ 48 * 2 ^ 16) ++
    q (r.epoch % 2 ^ 16 + r.wall / 2 ^ 16 % 2 ^ 48 * 2 ^ 16) ++ q r.payload.toNat

/-- A buffer of all ones (R364). -/
def allOnes : FbRecord :=
  { seq := 2 ^ 48 - 1, code := 0xFFFF, count := 0xFFFF, tide := 2 ^ 64 - 1, wall := 2 ^ 64 - 1, epoch := 0xFFFF
    payload := 0xFFFFFFFFFFFFFFFF#64 }

/-- A read of RD_DATA0 latches the selected record; `ue` says that its slot meets an uncorrectable error (R362, R364). -/
def fbLatch (ue : Bool) (s : State) : State :=
  if ue then fbFails s.fbk.rdSel (setFbk { s.fbk with buffer := allOnes } s)
  else setFbk { s.fbk with buffer := s.fbk.record s.fbk.rdSel } s

/-- What a read of FBK.RD_DATA0 returns, and the state after it (R387). -/
def takeFbLatch (ue : Bool) (t : State) : W32 × State :=
  let t1 := fbLatch ue t
  (t1.fbk.buffer.words.getD 0 0, t1)

/-- FB_LATCH (R359). -/
def execFbLatch (ag : Nat) (ue : Bool) (s : State) : Out3 :=
  .next (readPage ag (fbkOff 0x50) (takeFbLatch ue) s)

/-- What a read of FBK.LOST returns, and the state after it (R387). -/
def takeFbkLost (t : State) : W32 × State :=
  (BitVec.ofNat 32 (t.fbk.mirLost * 2 ^ 16 + t.fbk.dropped), setFbk { t.fbk with mirLost := 0, dropped := 0 } t)

/-- FBK_LOST_READ (R365). -/
def execFbkLostRead (ag : Nat) (s : State) : Out3 :=
  .next (readPage ag (fbkOff 0x8C) (takeFbkLost) s)

/-! ### Wall time (R358) -/

/-- WALL_HI is written: the wall time and the epoch change at the next tick. -/
def writeWall (hi : W32) (s : State) : State :=
  let f := s.fbk
  let e := if f.wallSet.isSome then (f.epoch + 1) % 2 ^ 16 else f.epoch
  setFbk { f with wallSet := some ((hi ++ f.wallLo).toNat), epoch := e } s

/-- WALL_SET (R358). -/
def execWallSet (ag : Nat) (hi : W32) (s : State) : Out3 :=
  if s.glb.state = .off then .next s else .next (atPage ag (fbkOff 0x74) (writeWall hi) s)

/-- The wall time at the next tick (R358). -/
def Fbk.tick (hz : Nat) (f : Fbk) : Fbk :=
  let frac := f.wallFrac + 1000000000
  match f.wallSet with
  | some w => { f with wall := w, wallFrac := 0, wallSet := none, epoch := (f.epoch + 1) % 2 ^ 16 }
  | none => { f with wall := (f.wall + frac / hz) % 2 ^ 64, wallFrac := frac % hz }

/-! ### Scrub and repair (R362, R378) -/

/-- FB_SCRUB (R362): a patrol pass ends; `main` and `backup` are slots in which it found an uncorrectable error. -/
def execFbScrub (main backup : Option Nat) (s : State) : Out3 :=
  if s.glb.state ≠ .off ∧ s.fbk.scrubbed + 2 ^ 30 ≤ now s then
    let s1 := setFbk { s.fbk with scrubbed := now s } s
    let s2 := match backup with
      | some n => if s1.fbk.dead then s1 else fbBackupFails n s1
      | none => s1
    .next (match main with
      | some n => if s2.fbk.onBackup || s2.fbk.dead then s2 else fbMainFails n s2
      | none => s2)
  else .next s

/-- CTRL.REPAIR is written with 1 (R362, R364). -/
def fbRepair (ag : Nat) (s : State) : State :=
  if s.fbk.onBackup ∧ !s.fbk.repairing then setFbk { s.fbk with repairing := true } s
  else refuseReg 5 ag (fbkOff 8) s

/-- FB_REPAIR (R362). -/
def execFbRepair (ag : Nat) (s : State) : Out3 := .next (atPage ag (fbkOff 8) (fbRepair ag) s)

/-- The backup's records as the main SRAM's, every other slot cleared (R362). -/
def Fbk.restored (f : Fbk) : Tab FbRecord :=
  f.backup.foldl (fun (t : Tab FbRecord) e =>
    if f.oldest ≤ e.2.seq ∧ e.2.seq < f.next then Tab.set t (e.2.seq % 8192) e.2 else t) []

/-- FB_REPAIR_COMPLETE (R362, R378): the repair of `row` of the failing macro, 0 to 7, ends; it fails where both of the
macro's spare rows are used. -/
def execFbRepairComplete (mac row : Nat) (s : State) : Out3 :=
  if 8 ≤ mac ∨ 512 ≤ row then .refused .noSuchUnit
  else if !s.fbk.repairing then .next s
  else
    let used := Tab.get 0 s.fbk.rowsUsed mac
    if 2 ≤ used then
      .next (fbRaise 0x0D04 (BitVec.ofNat 64 (0x0D00 + mac)) (setFbk { s.fbk with repairing := false } s))
    else
      let s1 := fbRaise 0x0508 (BitVec.ofNat 64 (0x0D00 + mac + row * 2 ^ 16))
        (setFbk { s.fbk with rowsUsed := Tab.set s.fbk.rowsUsed mac (used + 1) } s)
      let f := s1.fbk
      .next (fbRaise 0x0D03 0
        (setFbk { f with main := f.restored, backup := [], onBackup := false, repairing := false } s1))

/-! ### Mirroring (R363) -/

/-- MIREN_SET (R363): CTRL.MIREN is written with 1. -/
def execMirenSet (ag : Nat) (s : State) : Out3 :=
  .next (atPage ag (fbkOff 8) (fun t =>
    if t.fbk.miren then t else setFbk { t.fbk with miren := true, mirSeq := t.fbk.oldest, updates := [] } t) s)

/-- The mirror queue takes a record now: a completion ring of 32-byte entries with room, and reachable (R270, R363). -/
def mirrorReady (s : State) : Bool :=
  let q := queueOf s s.fbk.mirq
  s.fbk.miren && q.v && q.typ == 1 && q.entryBytes == 32 && q.room && q.held.isEmpty && qmReach s q.base

/-- MIRSEQ has fallen out of the window: it moves to the oldest record, and the skipped ones are lost (R363). -/
def mirrorOvertaken (s : State) : State :=
  let f := s.fbk
  if f.mirSeq < f.oldest then
    let n := f.oldest - f.mirSeq
    fbRaise 0x0D05 (BitVec.ofNat 64 (n % 2 ^ 32)) (fbMirLost n (setFbk { f with mirSeq := f.oldest } s))
  else s

/-- FB_MIRROR_COPY (R363): a waiting update, or else the next record, is copied. -/
def execFbMirrorCopy (s : State) : Out3 :=
  if s.fbk.miren && s.glb.state != .off then
    let s1 := mirrorOvertaken s
    let f := s1.fbk
    if mirrorReady s1 then
      match f.updates with
      | u :: us => .next (postRecord f.mirq (f.record u.seq).words (setFbk { f with updates := us } s1))
      | [] =>
        if f.mirSeq < f.next then
          .next (postRecord f.mirq (f.record f.mirSeq).words (setFbk { f with mirSeq := f.mirSeq + 1 } s1))
        else .next s1
    else .next s1
  else .next s

end Sys2Proof.Machine
end

