-- ==== Sys2Proof/Machine/Host.lean ====
section
/-! DEFINITION. Sys2Proof/Machine/Host.lean: the CXL host interface: link and power states, resets, CXL.mem, requests that end,
DOE, IDE and the loop-backs (R285 to R307). -/

namespace Sys2Proof.Machine

/-! ### Requests in flight (R294) -/

/-- GLB's originator code of a request (R304). -/
def Originator.code : Originator → Nat
  | .reed r => r
  | .engine b _ => 0x8000 + b

/-- The word address of the far read a reed waits on. -/
def readAddr (s : State) (r : Nat) : Nat := match waitingRead s r with
  | some f => f.byte / 2
  | none => 0

/-- One request leaves the list. -/
def dropReq (q : HostRequest) (s : State) : State := { s with cxl := { s.cxl with reqs := s.cxl.reqs.erase q } }

/-- The host interface ends a request (R294). -/
def endRequest (q : HostRequest) (s : State) : State :=
  let s1 := fbRaise 0x0704 (BitVec.ofNat 64 q.from'.code) (dropReq q s)
  match q.from' with
  | .reed r => if q.late then countLate r s1 else failFarRead r 4 (readAddr s1 r) (endFarRead r s1)
  | .engine b slot => endEngineRequest b slot q.late s1

/-- Every request of a kind in flight is ended. -/
def endRequests (p : HostRequest → Bool) (s : State) : State := (s.cxl.reqs.filter p).foldl (fun t q => endRequest q t) s

/-- What follows from a change of the host's reach: requests end, or what waited goes out (R273, R294, R299). -/
def reachChange (was : Bool) (s : State) : State :=
  if was && !hostReachable s then endRequests (fun _ => true) s
  else if !was && hostReachable s then hostReturns s
  else s

/-- A change of the host interface, with what follows from it. -/
def hostChange (f : Cxl → Cxl) (s : State) : State := reachChange (hostReachable s) { s with cxl := f s.cxl }

/-! ### Training and link power states (R287, R301) -/

/-- Field Book 0x0702 (R304). -/
def noteTrained (s : State) : State := fbRaise 0x0702 (BitVec.ofNat 64 (s.cxl.width % 256 * 256 + s.cxl.rate % 256)) s

/-- The link has trained (R287): where the alternate protocol fails or 8 GT/s is not reached, CXL.io alone is offered. -/
def linkTrainedHost (width rate : Nat) (alt : Bool) (s : State) : State :=
  let io := !alt || decide (rate < 8)
  let s1 := noteTrained { s with cxl := { s.cxl with width := width, trained := width, rate := rate, ioOnly := io } }
  let s2 := if io then fbRaise 0x0706 (BitVec.ofNat 64 (rate % 256)) s1 else s1
  hostChange (fun c => { c with link := .l0 }) s2

/-- LINK_TRAINED (R287): `alt` says whether the alternate protocol was negotiated. -/
def execLinkTrained (width rate : Nat) (alt : Bool) (s : State) : Out3 :=
  if s.glb.state == .off || s.cxl.perst then .next s else .next (linkTrainedHost width rate alt s)

/-- L0P_WIDTH_CHANGE (R287): the device accepts the width the host requests. -/
def execL0pWidthChange (width : Nat) (s : State) : Out3 :=
  if s.cxl.link == .l0 || s.cxl.link == .l0p then
    .next (noteTrained { s with cxl := { s.cxl with
      width := width, link := if width < s.cxl.trained then .l0p else .l0 } })
  else .next s

/-- L1_ENTRY (R301): with no traffic pending, the link enters L1, under ASPM or with the function in D3hot. -/
def execL1Entry (s : State) : Out3 :=
  if (s.cxl.link == .l0 || s.cxl.link == .l0p) && (s.cxl.aspm || s.cxl.dstate == .d3hot) && s.cxl.reqs.isEmpty then
    .next { s with cxl := { s.cxl with link := .l1 } }
  else .next s

/-- L2_ENTRY (R301): the host's turn-off handshake takes the link to L2. -/
def execL2Entry (s : State) : Out3 :=
  if s.cxl.linkUp then .next (hostChange (fun c => { c with link := .l2 }) s) else .next s

/-! ### D-states and resets (R300, R303) -/

/-- The code of a D-state (R304). -/
def DState.code : DState → Nat
  | .d0 => 0 | .d3hot => 3 | .d3cold => 4

/-- The function changes its D-state (R300, R304). -/
def setDState (d : DState) (s : State) : State :=
  if s.cxl.dstate = d then s
  else hostChange (fun c => { c with dstate := d }) (fbRaise 0x0703 (BitVec.ofNat 64 d.code) s)

/-- D_STATE_CHANGE (R300): the host moves the function to D0 (0) or D3hot (3). -/
def execDStateChange (d : Nat) (s : State) : Out3 :=
  if d ≠ 0 ∧ d ≠ 3 then .refused .noSuchUnit
  else if s.cxl.linkUp && s.cxl.dstate != .d3cold then .next (setDState (if d = 0 then .d0 else .d3hot) s)
  else .next s

/-- CXL.io function state at its reset values, with the vector masks set (R298, R303). -/
def Cxl.resetIo (c : Cxl) : Cxl :=
  { c with bme := false, bars := [], aspm := false, msixEn := false, funcMask := false, unmasked := [], doe := [] }

/-- Decoders and the CXL.cache and CXL.mem enables at their reset values (R303). -/
def Cxl.resetCxl (c : Cxl) : Cxl := { c with dec := [], cacheEn := false, memEn := false }

/-- The snoop filter is emptied with no BISnp; writes that waited for an answer are made, and reads go on (R303). -/
def emptyFilter (s : State) : State :=
  let put := fun (m : List Host.Cell) (b : Nat × Byte) => memSet m b.1 b.2
  let s1 : State := { s with mem := s.hbm.snoops.foldl (fun m w => w.bytes.foldl put m) s.mem
                             hbm := { s.hbm with filter := [], snoops := [] } }
  s.atl.serve.foldl (fun t w => serveLine w.sheet w.tag w.addr t) (setAtl { s1.atl with serve := [] } s1)

/-- Field Book 0x0701 (R303, R304). -/
def noteLinkDown (reason : Nat) (s : State) : State := fbRaise 0x0701 (BitVec.ofNat 64 reason) s

/-- PERST#, hot reset and link down: the host interface is reset (R303). -/
def hostReset (reason : Nat) (link : LinkState) (s : State) : State :=
  let s1 := endRequests (fun _ => true) (noteLinkDown reason s)
  emptyFilter { s1 with cxl := { s1.cxl.resetIo.resetCxl with link := link, session := false, ide := [] } }

/-- PERST_ASSERT (R303): with the link in L2 the function is in D3cold (R300). -/
def execPerstAssert (s : State) : Out3 :=
  let l2 := decide (s.cxl.link = .l2)
  let s1 := hostReset 1 (if l2 then .l2 else .down) { s with cxl := { s.cxl with perst := true } }
  .next (if l2 then setDState .d3cold s1 else s1)

/-- PERST_DEASSERT (R302): WAKE# is released and the link trains; the function comes up in D0 (log entry 26). -/
def execPerstDeassert (s : State) : Out3 :=
  if s.cxl.perst then .next (setDState .d0 { s with cxl := { s.cxl with perst := false, wake := false, link := .down } })
  else .next s

/-- HOT_RESET (R303). -/
def execHotReset (s : State) : Out3 := .next (setDState .d0 (hostReset 3 .down s))

/-- LINK_DOWN (R303): a surprise link down acts as PERST# does. -/
def execLinkDown (s : State) : Out3 := .next (setDState .d0 (hostReset 2 .down s))

/-- FLR (R303): CXL.io function state, vector masks and unordered I/O. -/
def execFlr (s : State) : Out3 :=
  let s1 := endRequests (fun q => q.uio) (noteLinkDown 4 s)
  .next (setDState .d0 (hostChange Cxl.resetIo s1))

/-- CXL_RESET (R303): decoders and enables, the snoop filter, CXL.cachemem keys, and CXL.cache requests. -/
def execCxlReset (s : State) : Out3 :=
  let s1 := endRequests (fun q => !q.uio) (noteLinkDown 5 s)
  .next (emptyFilter (hostChange (fun c => { c.resetCxl with ide := Tab.set c.ide 8 .off }) s1))

/-! ### HBM as host memory (R184, R186, R187, R290, R291) -/

/-- Mem_Active (R290). -/
def memActive (s : State) : Bool :=
  s.cxl.memReady && !s.cxl.ioOnly &&
  (s.glb.state == .startup || s.glb.state == .test || s.glb.state == .service || s.glb.state == .recovery ||
    s.glb.state == .dormant)

/-- HDM_COMMIT (R290): decoder `k` is committed with a base, a size in bytes, a DPA skip and a number of ways. -/
def execHdmCommit (k : Nat) (base : W64) (size skip ways : Nat) (s : State) : Out3 :=
  if 2 ≤ k then .refused .noSuchUnit
  else
    let d : Decoder := if memActive s && decide (size = 2 ^ 36 ∧ skip = 0 ∧ ways = 1)
      then { committed := true, base := base.toNat } else { committed := false, error := true }
    .next { s with cxl := { s.cxl with dec := Tab.set s.cxl.dec k d } }

/-- The host reaches HBM at a DPA: CXL.mem is enabled and the DPA's decoder committed (R290). -/
def hdmOpen (s : State) (dpa : Nat) : Bool :=
  memActive s && s.cxl.linkUp && (Tab.get {} s.cxl.dec (dpa / 2 ^ 36)).committed

/-- A CXL.mem access in Dormant brings the stacks out of self-refresh (R184, R291). -/
def wakeStacks (s : State) : State :=
  let s1 : State := { s with hbm := { s.hbm with lastUse := now s } }
  if s.glb.state = .dormant then
    { s1 with hbm := { s1.hbm with pages := s1.hbm.pages.map fun p => (p.1, { p.2 with selfRef := false }) } }
  else s1

/-- The stack of a 64-byte line (R182). -/
def lineStack (line : Nat) : Nat := hbmPc (32 * line) / 32

/-- The filter records a line that the host may hold; a full filter evicts its oldest line first (R187). -/
def recordLine (line : Nat) (s : State) : State :=
  if s.hbm.filter.contains line then s
  else
    let mine := s.hbm.filter.filter fun l => lineStack l == lineStack line
    let s1 := if 1048576 ≤ mine.length then
        match mine with
        | old :: _ =>
          let t := sendBisnp old s
          { t with hbm := { t.hbm with snoops := t.hbm.snoops ++ [{ line := old, bytes := [] }] } }
        | [] => s
      else s
    { s1 with hbm := { s1.hbm with filter := s1.hbm.filter ++ [line] } }

/-- The host no longer holds a line. -/
def forgetLine (line : Nat) (s : State) : State := { s with hbm := { s.hbm with filter := s.hbm.filter.filter (· != line) } }

/-- A line of HBM as the host reads it: its bytes, and whether they are poisoned (R183, R291). -/
def hostLine (line : Nat) (s : State) : State :=
  let bytes := (List.range 64).map fun i => memGet s.mem (2 * (hbmBase + 32 * line) + i)
  let bad := (List.range 32).any fun i => placeBad s (.hbm (32 * line + i))
  let r := deviceLine ((hbmBase + 32 * line) / 32) s
  send (.memData bytes bad) r.2

/-- CXL_MEM_READ (R291): the host reads the 64-byte line of a DPA, and keeps it in its caches or not. -/
def execCxlMemRead (dpa : Nat) (keep : Bool) (s : State) : Out3 :=
  if 2 ^ 37 ≤ dpa then .fault .noSuchAddress
  else if hdmOpen s dpa && s.cxl.memEn then
    let s1 := wakeStacks s
    .next (hostLine (dpa / 64) (if keep then recordLine (dpa / 64) s1 else s1))
  else .next s

/-- The words of a host write to a line, by a mask of its bytes. -/
def hostWords (line mask : Nat) (data : List Byte) : List PlacedWord := maskedWords (32 * line) mask data

/-- A poisoned write marks what it writes (R291). -/
def poisonWords (ws : List PlacedWord) (s : State) : State :=
  ws.foldl (fun t p => match p.1.unit with
    | some (u, _) => { t with bad := Tab.set t.bad u (max 1 (Tab.get 0 t.bad u)) }
    | none => t) s

/-- CXL_MEM_WRITE (R291): the host writes the bytes of a line that a mask names, perhaps with poison, and keeps the line in
its caches or not. -/
def execCxlMemWrite (dpa : Nat) (data : List Byte) (mask : W64) (poison keep : Bool) (s : State) : Out3 :=
  if 2 ^ 37 ≤ dpa then .fault .noSuchAddress
  else if hdmOpen s dpa && s.cxl.memEn then
    let ws := hostWords (dpa / 64) mask.toNat data
    let s1 := writePlaced ws (wakeStacks s)
    let s2 := if poison then poisonWords ws s1 else s1
    .next (if keep then s2 else forgetLine (dpa / 64) s2)
  else .next s

/-- UIO_ACCESS (R291): unordered I/O inside a committed decoder is served as CXL.mem; a write snoops as a device write does
(R187). -/
def execUioAccess (write : Bool) (dpa : Nat) (data : List Byte) (mask : W64) (s : State) : Out3 :=
  if 2 ^ 37 ≤ dpa then .fault .noSuchAddress
  else if hdmOpen s dpa then
    let s1 := wakeStacks s
    .next (if write then deviceWrite (hostWords (dpa / 64) mask.toNat data) s1 else hostLine (dpa / 64) s1)
  else .next s

/-- HOST_SNOOP (R292): the device caches no host line and answers every snoop as a miss. -/
def execHostSnoop (hpa : Nat) (s : State) : Out3 := .next (send (.snoopMiss hpa) s)

/-- A completion arrives for a request in flight: its originator takes the data, or discards them where its own timeout has
won (R60, R212, R294). -/
def completeRequest (q : HostRequest) (data : List Byte) (ok : Bool) (s : State) : State :=
  let s1 := dropReq q s
  match q.from' with
  | .reed r =>
    if q.late then countLate r s1
    else match waitingRead s1 r with
      | none => s1
      | some f =>
        if ok then resumeBundle r (some (leValue (data.take f.len))) (farCharge s1 r f.tgt (f.byte / 2)) s1
        else failFarRead r 4 (f.byte / 2) s1
  | .engine b slot =>
    if q.late then
      match (engineOf s1 b).late.findIdx? fun e => e.rq == slot && e.kind == .host with
      | some k => lateArrival b k 0 s1
      | none => s1
    else requestData b slot data ok s1

/-- HOST_READ_COMPLETION (R294): a completion arrives for the k-th request in flight, `ok` false where it carries poison or
an error. -/
def execHostReadCompletion (k : Nat) (data : List Byte) (ok : Bool) (s : State) : Out3 :=
  match s.cxl.reqs[k]? with
  | some q => .next (completeRequest q data ok s)
  | none => .next s

/-- HOST_REQUEST_TIMEOUT (R294): the k-th request has had no completion for 2^26 ticks. -/
def execHostRequestTimeout (k : Nat) (s : State) : Out3 :=
  match s.cxl.reqs[k]? with
  | some q => if q.since + 2 ^ 26 ≤ now s then .next (endRequest q s) else .next s
  | none => .next s

/-! ### DOE and IDE (R295, R296) -/

/-- DOE_REQUEST (R295): a data object is received and answered; what the standard's answer holds is not in the spec, and its
value is free. -/
def execDoeRequest (inst : Nat) (type : W32) (s : State) : Out3 :=
  if 2 ≤ inst then .refused .noSuchUnit
  else if s.glb.state == .off then .next s
  else
    let f := takeFree s
    let d := Tab.get {} f.2.cxl.doe inst
    let d1 : Doe := { d with answers := d.answers ++ [[type, f.1]] }
    .next (send (.doeAnswer inst type f.1) { f.2 with cxl := { f.2.cxl with doe := Tab.set f.2.cxl.doe inst d1 } })

/-- DOE_ABORT (R295): one instance is aborted; the other is not affected. -/
def execDoeAbort (inst : Nat) (s : State) : Out3 :=
  if 2 ≤ inst then .refused .noSuchUnit
  else .next { s with cxl := { s.cxl with doe := Tab.set s.cxl.doe inst {} } }

/-- The streams that IDE has: 0 the CXL.io link stream, 1 to 4 the selective streams, 8 the CXL.cachemem link stream. -/
def ideStream (n : Nat) : Bool := decide (n ≤ 4) || n == 8

/-- IDE_KM_KEY (R296): IDE_KM in a secured session delivers a stream's keys. -/
def execIdeKmKey (n : Nat) (s : State) : Out3 :=
  if !ideStream n then .refused .noSuchUnit
  else if s.cxl.session then .next { s with cxl := { s.cxl with ide := Tab.set s.cxl.ide n .secure } }
  else .next s

/-- IDE_INTEGRITY_FAIL (R296, R304): the stream moves to its insecure state. -/
def execIdeIntegrityFail (n : Nat) (s : State) : Out3 :=
  if !ideStream n then .refused .noSuchUnit
  else if Tab.get .off s.cxl.ide n = .secure then
    .next (irqSet 5 1 (fbRaise 0x0210 (BitVec.ofNat 64 ((if n = 8 then 256 else 0) + n))
      { s with cxl := { s.cxl with ide := Tab.set s.cxl.ide n .insecure } }))
  else .next s

/-! ### Loop-backs (R307) -/

/-- GLB.LOOP_CTRL is written (R307). -/
def startHostLoop (ag : Nat) (v : W32) (s : State) : State :=
  let d := fld v 0 3
  if 5 ≤ d then refuseReg 5 ag 0x1028 s
  else if d = 0 then
    let was := fld s.cxl.loop 0 3
    let link := if was = 0 ∨ was = 4 then s.cxl.link else .down
    { s with cxl := { s.cxl with loop := loopOff s.cxl.loop v 0xFF00#32, link := link } }
  else if s.glb.state ≠ .test then refuseReg 4 ag 0x1028 s
  else
    let s1 : State := { s with cxl := { s.cxl with loop := v &&& 0xFF07#32, loopEnd := now s + max 1 (fld v 8 8) * 2 ^ 20 } }
    if d = 4 then { s1 with cxl := { s1.cxl with loopMem := [] } }
    else hostChange (fun c => { c with link := .loopback }) (noteLinkDown 6 s1)

/-- CXL_LOOPBACK_START (R307). -/
def execCxlLoopbackStart (ag : Nat) (v : W32) (s : State) : Out3 := .next (atPage ag 0x1028 (startHostLoop ag v) s)

/-- CXL_LOOPBACK_END (R307): a loop-back ends after its duration; the link of depths 1 to 3 trains again. -/
def execCxlLoopbackEnd (errs : Nat) (formed : Bool) (s : State) : Out3 :=
  let d := fld s.cxl.loop 0 3
  if d = 0 ∨ now s < s.cxl.loopEnd then .next s
  else
    let e := if d = 4 then 0 else errs
    .next { s with cxl := { s.cxl with loop := loopDone s.cxl.loop e formed, link := if d = 4 then s.cxl.link else .down } }

/-- LOOPBACK_FOLLOWER (R307): the host directs the link into standard loop-back, whatever LOOP_CTRL holds. -/
def execLoopbackFollower (s : State) : Out3 :=
  if s.cxl.linkUp then .next (hostChange (fun c => { c with link := .loopback }) (noteLinkDown 6 s)) else .next s

end Sys2Proof.Machine
end

