-- ==== Sys2Proof/Machine/Ssp.lean ====
section
/-! DEFINITION. Sys2Proof/Machine/Ssp.lean: the sensor scan ports (R241 to R251, R263). -/

namespace Sys2Proof.Machine

/-- A port. -/
def sspOf (s : State) (n : Nat) : Ssp := Tab.get {} s.ssp n
/-- A port changed. -/
def setSsp (n : Nat) (p : Ssp) (s : State) : State := { s with ssp := Tab.set s.ssp n p }
/-- The BAR0 page of a port (R241). -/
def sspPage (n : Nat) : Nat := 0x180 + n
/-- The BAR0 byte offset of a register of a port. -/
def sspOff (n o : Nat) : Nat := 0x180000 + 0x1000 * n + o

/-- CFG.MODE: 0 matrix, 1 ADC, 2 MIDI, 3 capture. -/
def Ssp.mode (p : Ssp) : Nat := fld p.cfg 0 2
/-- CFG.DOM. -/
def Ssp.dom (p : Ssp) : Nat := fld p.cfg 4 3
/-- CFG.TKEN. -/
def Ssp.tken (p : Ssp) : Bool := bitOf p.cfg 7
/-- The number of scan entries, less one. -/
def Ssp.nscan (p : Ssp) : Nat := fld p.cfg 21 5
/-- The row of scan entry `j` (R263). -/
def Ssp.scanRow (p : Ssp) (j : Nat) : Nat := fld (Tab.get 0 p.scan (j / 8)) (4 * (j % 8)) 4
/-- TIMING.PERIOD. -/
def Ssp.period (p : Ssp) : Nat := fld p.timing 0 22
/-- TIMING.SETTLE. -/
def Ssp.settle (p : Ssp) : Nat := fld p.timing 22 10
/-- ADC.SCKDIV. -/
def Ssp.sckdiv (p : Ssp) : Nat := fld p.adc 8 8
/-- The words of an ADC pass. -/
def Ssp.words (p : Ssp) : Nat := fld p.adc 0 5 + 1
/-- W, the width of a converter word (R247). -/
def Ssp.width (p : Ssp) : Nat := if bitOf p.adc 5 then 24 else 16

/-- PSTAT (R263). -/
def Ssp.pstat (p : Ssp) : W32 :=
  BitVec.ofNat 32 (p.enerr * 2 ^ 28 + p.shifting.isSome.toNat * 2 ^ 7 + p.fifo.length)

/-- The first enable check of R242 that fails; 0 where all pass. -/
def sspCheck (s : State) (p : Ssp) : Nat :=
  let f := tickHz s
  let n := p.nscan + 1
  if p.tken ∧ !(domOf s p.dom).active then 1
  else if p.mode = 0 ∧ (f > 200000 * p.period ∨ p.settle + 256 > p.period) then 2
  else if p.mode = 0 ∧ (p.nscan = 0 ∨ (List.range n).any fun j => p.scanRow j == p.scanRow ((j + 1) % n)) then 3
  else if p.mode = 1 ∧ (p.sckdiv < 2 ∨ f > 50000000 * p.sckdiv) then 4
  else if p.mode = 1 ∧ ((p.words * p.width + 2) * p.sckdiv > p.period ∨ f > 100000 * p.period) then 5
  else 0

/-- The port idles: its outputs take their idle levels, and what was in progress is dropped (R245). -/
def Ssp.idle (p : Ssp) : Ssp :=
  { p with t0 := none, steps := 0, row := none, toSample := false, sample := none, toRead := 0, shifting := none }

/-- CTRL.EN is written with 1 (R242). -/
def sspEnable (ag n : Nat) (s : State) : State :=
  let p := sspOf s n
  if p.en then s
  else
    let e := sspCheck s p
    if e ≠ 0 then refuseReg 5 ag (sspOff n 8) (setSsp n { p with enerr := e } s)
    else setSsp n { p.idle with en := true, enerr := 0, since := now s } s

/-- SSP_ENABLE (R242). -/
def execSspEnable (ag n : Nat) (s : State) : Out3 :=
  if 32 ≤ n then .refused .noSuchUnit else .next (atPage ag (sspOff n 8) (sspEnable ag n) s)

/-- SSP_DISABLE (R245). -/
def execSspDisable (ag n : Nat) (s : State) : Out3 :=
  if 32 ≤ n then .refused .noSuchUnit
  else .next (atPage ag (sspOff n 8) (fun t => setSsp n { (sspOf t n).idle with en := false } t) s)

/-- The port scans, converts and receives in mode `m`: it is enabled, the device is in Service, and 64 ticks have passed
(R245). -/
def Ssp.runs (s : State) (p : Ssp) (m : Nat) : Bool :=
  p.en && p.mode == m && s.glb.state == .service && decide (p.since + 64 ≤ now s)

/-- The device enters Service (R245). -/
def Ssp.enterService (tick : Nat) (p : Ssp) : Ssp := { p.idle with since := max p.since tick }

/-! ### Records (R243) -/

/-- The words of the record ring that a record's number and value give: the record's words in order, then the count. -/
def ringWords (e : W32) (p m : Nat) (value : W16) (tick : Nat) : List PlacedWord :=
  let base := reedBase p + fld e 0 16
  let at' := base + 4 * (m % 2 ^ fld e 28 3)
  let w (a : Nat) (v : W16) : PlacedWord := (.bank a, { addr := a, value := v })
  [w at' value, w (at' + 1) (BitVec.ofNat 16 tick), w (at' + 2) (BitVec.ofNat 16 (tick / 2 ^ 16)),
   w (at' + 3) (BitVec.ofNat 16 (tick / 2 ^ 32)), w (base - 1) (BitVec.ofNat 16 (m + 1))]

/-- A record of sensor `i`: an entry with V = 0 discards it, and so does a VACANT reed (R243, R367). -/
def sampleRecord (n i : Nat) (value : W16) (tick : Nat) (s : State) : State :=
  let p := sspOf s n
  let e := Tab.get 0 p.smap i
  if bitOf e 31 then
    let m := Tab.get 0 p.nextRec i
    let s1 := setSsp n { p with nextRec := Tab.set p.nextRec i ((m + 1) % 2 ^ 16) } s
    match physOf s (fld e 16 9) with
    | some r => deviceWrite (ringWords e r m value tick) s1
    | none => s1
  else s

/-- A map entry fits the X-bank (R243). -/
def smapOk (v : W32) : Bool :=
  !bitOf v 31 || (fld v 0 16 != 0 && decide (fld v 0 16 + 4 * 2 ^ fld v 28 3 - 1 ≤ 0xFFFF))

/-- SMAPi is written (R243). -/
def writeSmap (ag n i : Nat) (v : W32) (s : State) : State :=
  let p := sspOf s n
  let w := v &&& 0xF1FFFFFF#32
  let put (x : W32) := setSsp n { p with smap := Tab.set p.smap i x, nextRec := Tab.set p.nextRec i 0 } s
  if smapOk w then put w else refuseReg 5 ag (sspOff n (0x400 + 4 * i)) (put (putBit w 31 false))

/-- SMAP_WRITE (R243). -/
def execSmapWrite (ag n i : Nat) (v : W32) (s : State) : Out3 :=
  if 32 ≤ n ∨ 256 ≤ i then .refused .noSuchUnit
  else .next (atPage ag (sspOff n (0x400 + 4 * i)) (writeSmap ag n i v) s)

/-! ### Matrix scan (R246) -/

/-- The tick at which the port's next step or pass starts, T_0 being the tick of the first. -/
def Ssp.nextStart (p : Ssp) : Nat :=
  match p.t0 with
  | some t => t + p.steps * p.period
  | none => 0

/-- The tick at which the present step or pass started. -/
def Ssp.thisStart (p : Ssp) : Nat :=
  match p.t0 with
  | some t => t + (p.steps - 1) * p.period
  | none => 0

/-- SSP_MATRIX_STEP (R246): step j starts and drives its row high. -/
def execSspMatrixStep (n : Nat) (s : State) : Out3 :=
  if 32 ≤ n then .refused .noSuchUnit
  else
    let p := sspOf s n
    if p.runs s 0 ∧ p.nextStart ≤ now s ∧ !p.toSample then
      .next (setSsp n { p with t0 := some (p.t0.getD (now s)), steps := p.steps + 1
                               row := some (p.scanRow (p.steps % (p.nscan + 1))), toSample := true, loopNow := p.loop } s)
    else .next s

/-- The record value of column `c` in a step of row `r`, whose pin converts to `v` (R246, R251). -/
def matrixValue (p : Ssp) (r c v : Nat) : W16 :=
  match p.loopNow with
  | 0 => BitVec.ofNat 16 (v % 2 ^ 12 * 16)
  | 1 => BitVec.ofNat 16 ((if c = r then max (v % 2 ^ 12) 0xF00 else min (v % 2 ^ 12) 0xFF) * 16)
  | _ => p.loopVal.setWidth 16 ^^^ BitVec.ofNat 16 ((16 * r + c) * 16)

/-- SSP_MATRIX_SAMPLE (R246): the sense pins are sampled; `vals` gives what each of the 16 converts to, in 12 bits. -/
def execSspMatrixSample (n : Nat) (vals : List Nat) (s : State) : Out3 :=
  if 32 ≤ n then .refused .noSuchUnit
  else
    let p := sspOf s n
    let ts := p.thisStart + p.settle
    match p.row with
    | some r =>
      if p.runs s 0 ∧ p.toSample ∧ p.sample.isNone ∧ ts ≤ now s then
        .next (setSsp n { p with toSample := false
                                 sample := some { row := r, tick := ts
                                                  values := (List.range 16).map fun c => matrixValue p r c (vals.getD c 0) } } s)
      else .next s
    | none => .next s

/-- SSP_CONVERSION_COMPLETE (R246): the 16 records of the step are written in column order. -/
def execSspConversionComplete (n : Nat) (s : State) : Out3 :=
  if 32 ≤ n then .refused .noSuchUnit
  else
    let p := sspOf s n
    match p.sample with
    | some m =>
      if p.runs s 0 ∧ m.tick + 256 ≤ now s then
        .next ((List.range 16).foldl (fun t c => sampleRecord n (16 * m.row + c) (m.values.getD c 0) m.tick t)
          (setSsp n { p with sample := none } s))
      else .next s
    | none => .next s

/-! ### Serial ADC chain (R247) -/

/-- SSP_ADC_PASS (R247): pass j starts with CSN falling. -/
def execSspAdcPass (n : Nat) (s : State) : Out3 :=
  if 32 ≤ n then .refused .noSuchUnit
  else
    let p := sspOf s n
    if p.runs s 1 ∧ p.nextStart ≤ now s ∧ p.toRead = 0 then
      .next (setSsp n { p with t0 := some (p.t0.getD (now s)), steps := p.steps + 1, toRead := p.words
                               loopNow := p.loop } s)
    else .next s

/-- The tick of the rising SCLK edge of word `i`'s last bit in a pass that started at `tp` (R247). -/
def Ssp.wordTick (p : Ssp) (tp i : Nat) : Nat := tp + (i + 1) * p.width * p.sckdiv + p.sckdiv / 2

/-- The record value of word `i` of a pass, which reads `v` on MISO (R247, R251). -/
def adcValue (p : Ssp) (i v : Nat) : W16 :=
  match p.loopNow with
  | 0 => BitVec.ofNat 16 (v % 2 ^ p.width / 2 ^ (p.width - 16))
  | 1 => BitVec.ofNat 16 (fld p.adc 16 16)
  | _ => p.loopVal.setWidth 16 + BitVec.ofNat 16 i

/-- SSP_ADC_WORD (R247): the next word of the pass is received; `v` is what MISO gives, W bits. -/
def execSspAdcWord (n v : Nat) (s : State) : Out3 :=
  if 32 ≤ n then .refused .noSuchUnit
  else
    let p := sspOf s n
    let i := p.words - p.toRead
    let tp := p.thisStart
    if p.runs s 1 ∧ p.toRead ≠ 0 ∧ p.wordTick tp i ≤ now s then
      .next (sampleRecord n i (adcValue p i v) tp (setSsp n { p with toRead := p.toRead - 1 } s))
    else .next s

/-! ### MIDI (R248, R249) -/

/-- A MIDI byte is received with its stop bit's level and its timestamp (R248). -/
def midiReceive (n : Nat) (b : Byte) (stop : Bool) (tick : Nat) (s : State) : State :=
  let v : W16 := b.setWidth 16 ||| (if stop then 0 else 0x100#16)
  if stop then sampleRecord n 0 v tick s
  else
    let p := sspOf s n
    sampleRecord n 0 v tick
      (fbRaise 0x0B11 (BitVec.ofNat 64 (n * 2 ^ 48 + b.toNat * 2 ^ 32 + tick % 2 ^ 32))
        (irqSet (sspPage n) 1 (setSsp n { p with fe := satInc 0xFFFF p.fe } s)))

/-- MIDI_RX_FRAME (R248): a frame of byte `b` with stop-bit level `stop`, whose start bit was sampled at `tick`. In a
loop-back the receiver takes the frame that the transmitter is sending (R251). -/
def execMidiRxFrame (n : Nat) (b : Byte) (stop : Bool) (tick : Nat) (s : State) : Out3 :=
  if 32 ≤ n then .refused .noSuchUnit
  else
    let p := { sspOf s n with loopNow := (sspOf s n).loop }
    if p.runs s 2 ∧ tick ≤ now s ∧ p.since + 64 ≤ tick then
      if p.loopNow = 0 then .next (midiReceive n b stop tick (setSsp n p s))
      else match p.shifting with
        | some x => .next (midiReceive n x true tick (setSsp n p s))
        | none => .next s
    else .next s

/-- The next byte of the FIFO enters the shifter, where the port may send and the shifter is free (R249). -/
def midiStart (n : Nat) (s : State) : State :=
  let p := sspOf s n
  match p.shifting, p.fifo with
  | none, b :: rest => if p.runs s 2 then setSsp n { p with shifting := some b, fifo := rest, loopNow := p.loop } s else s
  | _, _ => s

/-- MIDI_TX is written (R249). -/
def writeMidiTx (n : Nat) (b : Byte) (s : State) : State :=
  let p := sspOf s n
  if p.fifo.length < 64 then midiStart n (setSsp n { p with fifo := p.fifo ++ [b] } s)
  else irqSet (sspPage n) 4 (setSsp n { p with txovf := satInc 0xFFFF p.txovf } s)

/-- MIDI_TX (R249). -/
def execMidiTx (ag n : Nat) (b : Byte) (s : State) : Out3 :=
  if 32 ≤ n then .refused .noSuchUnit else .next (atPage ag (sspOff n 0x4C) (writeMidiTx n b) s)

/-- MIDI_TX_FRAME_SENT (R249): a frame's stop bit ends; the next byte starts, or TXEMPTY is raised. The PORT depth keeps
TXD idle (R251). -/
def execMidiTxFrameSent (n : Nat) (s : State) : Out3 :=
  if 32 ≤ n then .refused .noSuchUnit
  else
    let s0 := midiStart n s
    let p := sspOf s0 n
    match p.shifting with
    | some b =>
      if p.runs s 2 then
        let s1 := if p.loopNow = 2 then s0 else send (.midi n b) s0
        let s2 := midiStart n (setSsp n { p with shifting := none } s1)
        .next (if (sspOf s2 n).shifting.isNone then irqSet (sspPage n) 2 s2 else s2)
      else .next s
    | none => .next s

/-! ### Flags, loop-backs and counts (R244, R251, R263) -/

/-- A boundary of domain `d` sets the port's flag (R244, R245, R250). -/
def sspFlag (d n : Nat) (s : State) : State :=
  let p := sspOf s n
  if p.en ∧ p.tken ∧ p.dom = d ∧ p.mode ≠ 3 ∧ s.glb.state = .service then
    setTokenLogical (fld p.cfg 12 9) (fld p.cfg 8 4) s
  else s

/-- LOOP_CTRL is written: a write of 3 is ignored and logged (R251). -/
def writeSspLoop (ag n depth : Nat) (s : State) : State :=
  if depth % 4 = 3 then refuseReg 5 ag (sspOff n 0x28) s else setSsp n { sspOf s n with loop := depth % 4 } s

/-- SSP_LOOP_CTRL_WRITE (R251). -/
def execSspLoopCtrlWrite (ag n depth : Nat) (s : State) : Out3 :=
  if 32 ≤ n then .refused .noSuchUnit else .next (atPage ag (sspOff n 0x28) (writeSspLoop ag n depth) s)

/-- What a read of SSP.CNT returns, and the state after it (R387). -/
def takeSspCnt (n : Nat) (t : State) : W32 × State :=
  let p := sspOf t n
  (BitVec.ofNat 32 (p.fe * 2 ^ 16 + p.txovf), setSsp n { p with fe := 0, txovf := 0 } t)

/-- SSP_CNT_READ (R263). -/
def execSspCntRead (ag n : Nat) (s : State) : Out3 :=
  if 32 ≤ n then .refused .noSuchUnit
  else .next (readPage ag (sspOff n 0x5C) (takeSspCnt n) s)

/-- The levels that the port itself gives its pins; the other pins are outside's (R241, R245, R247, R249, R250). -/
def Ssp.pinLevel (s : State) (p : Ssp) (pin : Nat) : Option Bool :=
  let live := p.en && s.glb.state == .service && p.loopNow != 2
  match p.mode with
  | 0 => if pin < 16 then some (live && p.row == some pin) else some false
  | 1 => if pin = 1 then some (!(live && p.toRead != 0)) else none
  | 2 => if pin = 1 && p.shifting.isNone then some true else none
  | _ => if p.loopNow = 2 then some (bitOf p.loopVal pin) else none

end Sys2Proof.Machine
end

