-- ==== Sys2Proof/Machine/Tcu.lean ====
section
/-! DEFINITION. Sys2Proof/Machine/Tcu.lean: the timer/counter unit (R252 to R262, R264). A channel's count holds for a tick
of its own, which TCU_STEP moves on towards the tide counter's. -/

namespace Sys2Proof.Machine

/-- A channel. -/
def chanOf (s : State) (c : Nat) : TcuChan := Tab.get {} s.tcu.chans c
/-- A channel changed. -/
def setChan (c : Nat) (x : TcuChan) (s : State) : State := { s with tcu := { s.tcu with chans := Tab.set s.tcu.chans c x } }
/-- A capture input. -/
def capOf (s : State) (j : Nat) : CapInput := Tab.get {} s.tcu.inputs j
/-- A capture input changed. -/
def setCap (j : Nat) (x : CapInput) (s : State) : State :=
  { s with tcu := { s.tcu with inputs := Tab.set s.tcu.inputs j x } }
/-- The BAR0 page of a channel (R252). -/
def tcuPage (c : Nat) : Nat := 0x30 + c / 16
/-- The BAR0 byte offset of a register of a channel. -/
def tcuOff (c o : Nat) : Nat := 0x30000 + 0x1000 * (c / 16) + 0x20 * (c % 16) + o

/-- CFG.PAIR on the even channel `c`. -/
def pairLow (s : State) (c : Nat) : Bool := c % 2 == 0 && bitOf (chanOf s c).cfg 31
/-- Channel `c` is the high half of a pair (R256). -/
def pairHigh (s : State) (c : Nat) : Bool := c % 2 == 1 && bitOf (chanOf s (c - 1)).cfg 31
/-- CFG.CLK: 0 the tick, 1 events of CLKIN. -/
def TcuChan.clk (x : TcuChan) : Nat := fld x.cfg 29 2

/-- Channels count and events are taken (R252, R259, R262). -/
def tcuCounts (s : State) : Bool := s.glb.state != .off && s.glb.state != .dormant

/-! ### STAT flags and events (R253 to R255, R260) -/

/-- A STAT flag is set, and the channel's event source where CTRL enables it (R260, R275). -/
def tcuFlag (c bit : Nat) (s : State) : State :=
  let x := chanOf s c
  let s1 := setChan c { x with stat := putBit x.stat bit true } s
  if bitOf x.ie bit then irqSet (tcuPage c) (BitVec.ofNat 32 (2 ^ (c % 16))) s1 else s1

/-- CAP takes a count (R255, R260). -/
def tcuCapture (c : Nat) (v : W32) (s : State) : State :=
  let x := chanOf s c
  let s1 := setChan c { x with cap := v, stat := if bitOf x.stat 2 then putBit x.stat 3 true else x.stat } s
  tcuFlag c 2 s1

/-- The items that reach a channel at or before tick `t`. -/
def TcuChan.dueBy (x : TcuChan) (t : Nat) : List TcuItem := (x.due.filter fun e => e.1 ≤ t).map (·.2)

/-- The count that register commands set, the last one standing (R252). -/
def setBy (items : List TcuItem) : Option W32 :=
  items.foldl (fun (acc : Option W32) i => match i with
    | .reset => some 0
    | .setCnt v => some v
    | _ => acc) none

/-- The channel steps at a tick on which these items reach it (R252, R255, R256). -/
def stepsNow (s : State) (c : Nat) (items : List TcuItem) : Bool :=
  let x := chanOf s c
  let clocked := if x.clk = 0 then true else x.clk == 1 && items.contains .clock
  x.run && clocked && !pairHigh s c && !items.contains .start && !items.contains .stop && !items.contains .actStart &&
    !items.contains .actStop

/-- RUN after a tick (R252, R255). -/
def runAfter (run : Bool) (items : List TcuItem) : Bool :=
  if items.contains .stop || items.contains .actStop then false
  else run || items.contains .start || items.contains .actStart

/-- The count of channel `c` is `v` at tick `t`, by a step or a set: the comparator and the overflow (R253, R254), and the
carry of a pair (R256). -/
def countAt (c : Nat) (v : W32) (t : Nat) (stepped touched : Bool) (s : State) : State :=
  let x := chanOf s c
  let wrapped := stepped && v == 0
  let s1 := setChan c { x with count := v, tick := max x.tick t
                               matchAt := if (stepped || touched) && v == x.cmp then some t else x.matchAt
                               ovfAt := if wrapped then some t else x.ovfAt } s
  if v = 0 ∧ x.count ≠ 0 ∧ pairLow s c ∧ stepped then
    let h := chanOf s1 (c + 1)
    setChan (c + 1) { h with carries := h.carries ++ [t + 2] } s1
  else s1

/-- Channel `c` takes tick `t`, in the order of R255: captures of actions, register commands, RESET actions, a step, and
captures of its input. -/
def tcuTick (c t : Nat) (s : State) : State :=
  let x := chanOf s c
  let items := x.dueBy t
  let s1 := if items.contains .capture then tcuCapture c x.count s else s
  let cmp := items.foldl (fun (a : W32) i => match i with
    | .setCmp v => v
    | _ => a) x.cmp
  let cmpSet := items.any fun i => match i with
    | .setCmp _ => true
    | _ => false
  let set := if items.contains .actReset then some 0 else setBy items
  let stepped := set.isNone && stepsNow s c items
  let v := match set with
    | some w => w
    | none => if stepped then x.count + 1 else x.count
  let s2 := setChan c { chanOf s1 c with due := x.due.filter (fun e => t < e.1), run := runAfter x.run items, cmp := cmp } s1
  let s3 := countAt c v t stepped (set.isSome || cmpSet) s2
  if items.contains .event then tcuCapture c v s3 else s3

/-! ### Channels of a page move together (R255) -/

/-- The tick that a channel takes next: the following one where it counts ticks, else that of the next thing that reaches
it. -/
def nextTcuTick (s : State) (c : Nat) : Option Nat :=
  let x := chanOf s c
  let d := x.due.foldl (fun (m : Option Nat) e => match m with
    | some k => some (min k e.1)
    | none => some e.1) none
  if x.run ∧ x.clk = 0 ∧ !pairHigh s c then some (x.tick + 1) else d.map (max (x.tick + 1))

/-- Nothing of tick `t - 1` or before is left over on channel `c`. -/
def settledBefore (s : State) (c t : Nat) : Bool :=
  let x := chanOf s c
  (match nextTcuTick s c with
    | some u => decide (t ≤ u)
    | none => true) &&
  (match x.matchAt with
    | some u => decide (t ≤ u)
    | none => true) &&
  (match x.ovfAt with
    | some u => decide (t ≤ u)
    | none => true) &&
  x.acts.all (fun a => decide (t ≤ a.1)) && x.carries.all (fun u => decide (t ≤ u))

/-- The channels of the page of `c` have settled every tick before `t`. -/
def pageSettled (s : State) (c t : Nat) : Bool :=
  (List.range 16).all fun i => settledBefore s (c / 16 * 16 + i) t

/-- TCU_STEP (R252): the channel takes its next tick, with the commands and actions that apply at it. -/
def execTcuStep (c : Nat) (s : State) : Out3 :=
  if 128 ≤ c then .refused .noSuchUnit
  else match nextTcuTick s c with
    | some t => if tcuCounts s && decide (t ≤ now s) && pageSettled s c t then .next (tcuTick c t s) else .next s
    | none => .next s

/-- TCU_MATCH (R253): the MATCH event sets its flag and brings its actions. -/
def execTcuMatch (c : Nat) (s : State) : Out3 :=
  if 128 ≤ c then .refused .noSuchUnit
  else
    let x := chanOf s c
    match x.matchAt with
    | some t => .next (tcuFlag c 0 (setChan c { x with matchAt := none, acts := x.acts ++ [(t, false)] } s))
    | none => .next s

/-- TCU_OVF (R254): the OVF event sets its flag and brings its actions. -/
def execTcuOvf (c : Nat) (s : State) : Out3 :=
  if 128 ≤ c then .refused .noSuchUnit
  else
    let x := chanOf s c
    match x.ovfAt with
    | some t => .next (tcuFlag c 1 (setChan c { x with ovfAt := none, acts := x.acts ++ [(t, true)] } s))
    | none => .next s

/-! ### Actions (R255) -/

/-- Something reaches a channel at tick `t`. -/
def tcuPost (c t : Nat) (i : TcuItem) (s : State) : State :=
  let x := chanOf s c
  setChan c { x with due := x.due ++ [(t, i)] } s

/-- A START or STOP that reaches a channel of a pair: the high channel ignores its own, the low one's apply to both
(R256). -/
def tcuPostRun (c t : Nat) (i : TcuItem) (s : State) : State :=
  if pairHigh s c then s
  else if pairLow s c then tcuPost (c + 1) t i (tcuPost c t i s)
  else tcuPost c t i s

/-- A self action (R255). -/
def selfAction (c t code : Nat) (s : State) : State :=
  match code with
  | 1 => tcuPost c t .actReset s
  | 2 => tcuPostRun c t .actStop s
  | 3 => tcuPostRun c t .actStop (tcuPost c t .actReset s)
  | _ => s

/-- A target action (R255). -/
def targetAction (c t code : Nat) (s : State) : State :=
  match code with
  | 1 => tcuPost c t .actReset s
  | 2 => tcuPostRun c t .actStart s
  | 3 => tcuPost c t .capture s
  | 4 => tcuPost c t .actReset (tcuPost c t .capture s)
  | 5 => tcuPostRun c t .actStop s
  | _ => s

/-- TCU_ACTION (R255): the actions of a channel's oldest event apply at the tick after it. -/
def execTcuAction (c : Nat) (s : State) : Out3 :=
  if 128 ≤ c then .refused .noSuchUnit
  else
    let x := chanOf s c
    match x.acts with
    | [] => .next s
    | (t, ovf) :: rest =>
      if t + 1 ≤ now s then
        let tgt := c / 16 * 16 + fld x.cfg 2 4
        let self := if ovf then fld x.cfg 9 2 else fld x.cfg 14 2
        let act := if ovf then fld x.cfg 6 3 else fld x.cfg 11 3
        .next (targetAction tgt (t + 1) act (selfAction c (t + 1) self (setChan c { x with acts := rest } s)))
      else .next s

/-- TCU_PAIR_CARRY (R256): two ticks after the low channel wraps, the high channel `c` steps. -/
def execTcuPairCarry (c : Nat) (s : State) : Out3 :=
  if 128 ≤ c then .refused .noSuchUnit
  else
    let x := chanOf s c
    match x.carries with
    | [] => .next s
    | t :: rest =>
      if t ≤ now s ∧ tcuCounts s ∧ x.due.all (fun e => t < e.1) then
        .next (countAt c (x.count + 1) t true false (setChan c { x with carries := rest } s))
      else .next s

/-! ### Register commands (R252, R253, R256) -/

/-- A register command of a channel, which applies at the first tick after it arrives. -/
def tcuCommand (ag c o : Nat) (f : Nat → State → State) (s : State) : State :=
  atPage ag (tcuOff c o) (fun t => f (now t + 1) t) s

/-- TCU_START (R252). -/
def execTcuStart (ag c : Nat) (s : State) : Out3 :=
  if 128 ≤ c then .refused .noSuchUnit else .next (tcuCommand ag c 0x114 (fun u => tcuPostRun c u .start) s)

/-- TCU_STOP (R252). -/
def execTcuStop (ag c : Nat) (s : State) : Out3 :=
  if 128 ≤ c then .refused .noSuchUnit else .next (tcuCommand ag c 0x114 (fun u => tcuPostRun c u .stop) s)

/-- TCU_RESET (R252). -/
def execTcuReset (ag c : Nat) (s : State) : Out3 :=
  if 128 ≤ c then .refused .noSuchUnit else .next (tcuCommand ag c 0x114 (fun u => tcuPost c u .reset) s)

/-- TCU_CNT_WRITE (R252). -/
def execTcuCntWrite (ag c : Nat) (v : W32) (s : State) : Out3 :=
  if 128 ≤ c then .refused .noSuchUnit else .next (tcuCommand ag c 0x104 (fun u => tcuPost c u (.setCnt v)) s)

/-- TCU_CMP_WRITE (R253). -/
def execTcuCmpWrite (ag c : Nat) (v : W32) (s : State) : Out3 :=
  if 128 ≤ c then .refused .noSuchUnit else .next (tcuCommand ag c 0x108 (fun u => tcuPost c u (.setCmp v)) s)

/-- CHc_CFG is written (R255, R264): ignored while the channel runs, refused with a reserved target action. -/
def writeTcuCfg (ag c : Nat) (v : W32) (s : State) : State :=
  let x := chanOf s c
  if x.run then refuseReg 4 ag (tcuOff c 0x100) s
  else if fld v 11 3 ≥ 6 ∨ fld v 6 3 ≥ 6 then refuseReg 5 ag (tcuOff c 0x100) s
  else setChan c { x with cfg := v &&& (if c % 2 = 0 then 0xFFFFFFFC#32 else 0x7FFFFFFC#32) } s

/-! ### Capture inputs (R258 to R260) -/

/-- The source of a CAPSEL value exists (R258). -/
def capSource (v : W32) : Bool :=
  let n := fld v 16 13
  n ≤ 2 || (0x100 ≤ n && n < 0x160) || (0x400 ≤ n && n < 0x800)

/-- The level that the source of a CAPSEL value has: an operand where the source lies outside (R251, R258). -/
def sourceLevel (s : State) (v : W32) (outside : Bool) : Bool :=
  let n := fld v 16 13
  if n = 0 then false
  else if 0x400 ≤ n ∧ n < 0x800 then ((sspOf s ((n - 0x400) / 32)).pinLevel s ((n - 0x400) % 32)).getD outside
  else outside

/-- CAPSELj is written (R258, R259): a source that does not exist and EDGE = 3 store 0. -/
def writeCapsel (ag j : Nat) (v : W32) (level : Bool) (s : State) : State :=
  let w := v &&& 0x1FFFFFFF#32
  let bad := !capSource w || fld w 14 2 == 3
  let u := if bad then putFld w 16 13 0 else w
  let x := if fld w 14 2 = 3 then putFld u 14 2 0 else u
  let s1 := setCap j { sel := x, level := sourceLevel s x level, edges := 0, since := now s } s
  if bad then refuseReg 5 ag (0x30400 + 4 * j) s1 else s1

/-- CAPSEL_WRITE (R259): `level` is the present level of a source that lies outside. -/
def execCapselWrite (ag j : Nat) (v : W32) (level : Bool) (s : State) : Out3 :=
  if 64 ≤ j then .refused .noSuchUnit else .next (atPage ag (0x30400 + 4 * j) (writeCapsel ag j v level) s)

/-- An event of input `j` at the present tick reaches a channel that it clocks or captures (R252, R260): a channel that
has taken the tick already captures its count at once. -/
def capReach (j : Nat) (s : State) (c : Nat) : State :=
  let x := chanOf s c
  let s1 := if x.clk = 1 ∧ fld x.cfg 23 6 = j then tcuPost c (now s) .clock s else s
  if bitOf x.cfg 22 ∧ fld x.cfg 16 6 = j then
    (if now s ≤ x.tick ∧ x.clk ≠ 1 then tcuCapture c x.count s1 else tcuPost c (now s) .event s1)
  else s1

/-- An event of input `j` reaches every channel that names it. -/
def capEvent (j : Nat) (s : State) : State := (List.range 128).foldl (capReach j) s

/-- CAPTURE_EVENT (R259, R260): the filtered level of input `j` changes, its N samples at the new level having been taken;
every M-th selected edge is an event. -/
def execCaptureEvent (j : Nat) (s : State) : Out3 :=
  if 64 ≤ j then .refused .noSuchUnit
  else
    let x := capOf s j
    let edge := fld x.sel 14 2
    if tcuCounts s ∧ fld x.sel 16 13 ≠ 0 ∧ x.since + fld x.sel 8 6 + 1 ≤ now s then
      let chosen := edge = 2 ∨ (edge = 0 ∧ !x.level) ∨ (edge = 1 ∧ x.level)
      let n := if chosen then x.edges + 1 else x.edges
      let fires := chosen ∧ n = fld x.sel 0 8 + 1
      let s1 := setCap j { x with level := !x.level, edges := if fires then 0 else n, since := now s } s
      .next (if fires then capEvent j s1 else s1)
    else .next s

/-- The unit wakes from Dormant: no tick passed for it (R262). -/
def tcuWake (s : State) : State :=
  let move (x : TcuChan) : TcuChan :=
    { x with tick := now s, due := x.due.map fun e => (max e.1 (now s + 1), e.2)
             carries := x.carries.map (max (now s + 1)) }
  { s with tcu := { s.tcu with chans := s.tcu.chans.map fun e => (e.1, move e.2) } }

end Sys2Proof.Machine
end

