-- ==== Sys2Proof/Machine/Device.lean ====
section
/-! DEFINITION. Sys2Proof/Machine/Device.lean: the device states and the transitions between them (R5 to R11, R335, R344,
R394, R403). -/

namespace Sys2Proof.Machine

/-! ### Contexts, streams and ports as states change -/

/-- A context stops at its next bundle boundary, its run state discarded as under TRUNCATE (R10, R30, R344, R369): at once
where it stands at a boundary. -/
def stopCtx (c : Nat) (x : Reed) : Reed :=
  let k := x.ctxOf c
  if k.sched.phase = .idle then x
  else if x.running = some c ∧ inAtomic x then x.setCtx c { k with sched := { k.sched with stop := true } }
  else if x.running = some c then discardRun c x.drop
  else discardRun c { x with preempted := x.preempted.filter (· != c) }

/-- Every context of a reed for which `p` holds stops. -/
def stopCtxs (p : Ctx → Bool) (x : Reed) : Reed :=
  (List.range 8).foldl (fun y c => if p (y.ctxOf c) then stopCtx c y else y) x

/-- A context is at Field level (R5, R10). -/
def fieldLevel (k : Ctx) : Bool := !bitOf k.regs.cfg 1

/-- Every reed changed. -/
def mapReeds (f : Reed → Reed) (s : State) : State := { s with reeds := s.reeds.map fun (e : Nat × Reed) => (e.1, f e.2) }
/-- Every engine changed. -/
def mapEngines (f : Engine → Engine) (s : State) : State := { s with slc := s.slc.map fun (e : Nat × Engine) => (e.1, f e.2) }
/-- Every audio port changed. -/
def mapAsp (f : Asp → Asp) (s : State) : State := { s with asp := s.asp.map fun (e : Nat × Asp) => (e.1, f e.2) }
/-- Every sensor port changed. -/
def mapSsp (f : Ssp → Ssp) (s : State) : State := { s with ssp := s.ssp.map fun (e : Nat × Ssp) => (e.1, f e.2) }

/-- Every stream of an engine that is not IDLE pauses, with no completion (R10). -/
def Engine.pauseAll (e : Engine) : Engine :=
  { e with streams := e.streams.map fun (p : Nat × Stream) =>
      (p.1, if p.2.st = .idle then p.2 else { p.2 with st := .paused }) }

/-- Reads in flight lose the reed or engine that issued them: what they bring is discarded (R9, R335). -/
def orphanReads (s : State) : State :=
  { s with cxl := { s.cxl with reqs := s.cxl.reqs.map fun q => { q with late := true } }
           atl := { s.atl with reads := [] } }

/-- A memory without the bytes of reed memories and bed pools (R9, R48, R171). -/
def dropReedMem (m : List Host.Cell) : List Host.Cell :=
  m.filter fun (c : Host.Cell) =>
    !((2 * 0x1000000 ≤ c.1 && c.1 < 2 * (0x1000000 + 544 * 0x40000)) || (2 * 0x10000000 ≤ c.1 && c.1 < 2 * 0x14000000))

/-- Error marks without those of reed memories and bed pools. -/
def dropReedBad (t : Tab Nat) : Tab Nat :=
  t.filter fun (e : Nat × Nat) =>
    !((0x1000000 ≤ e.1 && e.1 < 0x1000000 + 544 * 0x40000) || (0x10000000 ≤ e.1 && e.1 < 0x14000000))

/-- Reed memories and bed pools are cleared to 0 with valid codes (R48, R171). -/
def clearReedMem (s : State) : State := { s with mem := dropReedMem s.mem, bad := dropReedBad s.bad }

/-- The registers of the RED, BED and SLC pages and all that the reeds, beds and engines hold take their reset values, but
for ENG_STAT (R9, R335). -/
def resetCompute (s : State) : State :=
  orphanReads { s with
    reeds := [], beds := []
    slc := s.slc.map fun (e : Nat × Engine) =>
      (e.1, { serving := e.2.serving, spareIn := e.2.spareIn, bed := e.2.bed })
    hdr := s.hdr.filter fun (h : Nat × PageHdr) => !((0x300 ≤ h.1 && h.1 < 0x321) || 0x400 ≤ h.1) }

/-- The LKEK and every Sluice key slot are cleared (R350). -/
def zeroise (s : State) : State :=
  mapEngines (fun e => { e with keys := [] }) { s with sec := { s.sec with lkek := none, lkekGen := 0 } }

/-- Every Surveyor priority stack is emptied, and every source claimed and not yet ended by EOI fires once more (R335). -/
def emptyStacks (s : State) : State :=
  let claimed := s.evr.sv.flatMap fun (e : Nat × SvEvents) => e.2.stack.map fun p => p.2
  claimed.foldl (fun t n => fireSource n t)
    { s with evr := { s.evr with sv := s.evr.sv.map fun (e : Nat × SvEvents) => (e.1, { e.2 with stack := [] }) } }

/-! ### Entry effects -/

/-- The effective BOOTSRC (R337, R353). -/
def bootSource (x : Sec) : Nat := if x.forceHost then 1 else if x.otp.bootSrc = 3 then 0 else x.otp.bootSrc

/-- Entry into Start-up (R335). -/
def enterStartup (s : State) : State :=
  let s1 := emptyStacks (zeroise (resetCompute s))
  let sec := { s1.sec with
    count := satInc 7 s1.sec.count, step := 1, since := now s1, starting := true, tried := (0, false), waitPush := 0
    verified := 0, bootAck := false, push := .idle, buffer := [], fw := false, dbgOpen := false, s1Src := 0, s2Src := 0
    meas := Tab.set (Tab.set s1.sec.meas 2 0) 3 0 }
  let s2 : State := { s1 with
    sec := sec, fbk := { s1.fbk with bkFail := false }
    cxl := { s1.cxl with session := false, ide := [], memReady := false }
    tst := { s1.tst with running := none }
    spr := { s1.spr with phase := .idle, queue := [], retries := [], stopped := [], reload := [], images := [] } }
  fbRaise 0x0101 (BitVec.ofNat 64 (sec.count + bootSource sec * 2 ^ 8)) s2

/-- Entry into Recovery (R10, R304): ACTIVE stays 0 for reason 6. -/
def enterRecovery (reason : Nat) (s : State) : State :=
  let s1 := mapReeds (fun x => { stopCtxs fieldLevel x with page := { (stopCtxs fieldLevel x).page with runOn := false } })
    (mapEngines Engine.pauseAll s)
  fbRaise 0x0106 (BitVec.ofNat 64 reason)
    { s1 with glb := { s1.glb with recReason := reason, recActive := s1.glb.recActive || reason != 6 }
              cxl := { s1.cxl with viral := s1.cxl.viral || s1.cxl.viralEn } }

/-- Entry into Tussock (R344, R350). -/
def enterTussock (reason : Nat) (s : State) : State :=
  let s1 := mapReeds (stopCtxs fun _ => true) (zeroise s)
  fbRaise 0x0105 (BitVec.ofNat 64 reason)
    { s1 with glb := { s1.glb with tussock := reason }
              sec := { s1.sec with starting := false, waitPush := 0, push := .idle, fw := false } }

/-- Entry into Dormant (R9, R184, R326). -/
def enterDormant (s : State) : State :=
  let s1 := resetCompute (clearReedMem s)
  let s2 := (List.range 16).foldl (fun t l => if (linkOf t l).state = .down then t else linkDown l 1 t) s1
  (List.range 64).foldl (fun t p => setHbmPage p { hbmPageOf t p with selfRef := true } t) s2

/-- The return from Dormant (R9, R349). -/
def leaveDormant (s : State) : State :=
  let s1 : State := { clearReedMem s with sec := { s.sec with meas := Tab.set s.sec.meas 5 0 }
                                          spr := { s.spr with images := [] } }
  (List.range 64).foldl (fun t p => setHbmPage p { hbmPageOf t p with selfRef := false } t) s1

/-- What the device does at its entry into a state (R9, R10, R335, R344; log entry 33). -/
def entryEffects (was t : DevState) (reason : Nat) (s : State) : State :=
  match t with
  | .startup => enterStartup s
  | .recovery => enterRecovery reason s
  | .tussock => enterTussock reason s
  | .dormant => enterDormant s
  | .service => if was = .dormant then leaveDormant s else s
  | _ => s

/-! ### Transitions (R8, R394) -/

/-- The host may request the state from the present one (R394). -/
def permitted (s : State) (t : DevState) : Bool :=
  match t with
  | .startup | .tussock => s.glb.state != .off
  | .test => s.glb.state == .startup || s.glb.state == .service
  | .service => s.glb.state == .test || s.glb.state == .dormant || (s.glb.state == .recovery && !s.glb.recActive)
  | .recovery | .dormant => s.glb.state == .service
  | .off => false

/-- A transition begins: BUSY and TARGET are set (R394). -/
def beginTransition (t : DevState) (reason : Nat) (s : State) : State :=
  { s with glb := { s.glb with target := some t, reason := reason } }

/-- The reason that a host request carries (R10, R394). -/
def requestReason (t : DevState) : Nat := match t with
  | .recovery => 6
  | .tussock => 9
  | _ => 0

/-- A trigger is taken from the present state (R8, R10, R343, R394). -/
def takeTrigger (tr : Trigger) (s : State) : State :=
  match tr with
  | .request t => if permitted s t then beginTransition t (requestReason t) s else glbErr 6 .host (0x1048 / 4) s
  | .fault r => if s.glb.state = .service then beginTransition .recovery r s else s
  | .tussock r => beginTransition .tussock r s
  | .reset => beginTransition .startup 0 s

/-- A trigger arrives: during a transition it waits for the state reached (R8). -/
def trigger (tr : Trigger) (s : State) : State :=
  if s.glb.state = .off then s
  else if s.glb.target.isSome then { s with glb := { s.glb with waiting := s.glb.waiting ++ [tr] } }
  else takeTrigger tr s

/-- GLB.STATE_REQ is written (R394): a wrong KEY is refused. -/
def stateReq (ag key : Nat) (t : DevState) (s : State) : Out3 :=
  .next (atPage ag 0x1048 (fun u => if key % 2 ^ 16 = 0x5354 then trigger (.request t) u else refuseReg 5 ag 0x1048 u) s)

/-- STATE_REQ_STARTUP (R394). -/
def execStateReqStartup (ag key : Nat) (s : State) : Out3 := stateReq ag key .startup s
/-- STATE_REQ_TEST (R394). -/
def execStateReqTest (ag key : Nat) (s : State) : Out3 := stateReq ag key .test s
/-- STATE_REQ_SERVICE (R394). -/
def execStateReqService (ag key : Nat) (s : State) : Out3 := stateReq ag key .service s
/-- STATE_REQ_RECOVERY (R394). -/
def execStateReqRecovery (ag key : Nat) (s : State) : Out3 := stateReq ag key .recovery s
/-- STATE_REQ_TUSSOCK (R394). -/
def execStateReqTussock (ag key : Nat) (s : State) : Out3 := stateReq ag key .tussock s
/-- STATE_REQ_DORMANT (R394). -/
def execStateReqDormant (ag key : Nat) (s : State) : Out3 := stateReq ag key .dormant s

/-- What the ports and timers do as the device reaches a state (R227, R236, R245, R262, R310, R420). -/
def arrive (was t : DevState) (s : State) : State :=
  match t with
  | .service =>
    let s1 := mapSsp (Ssp.enterService (now s)) (mapAsp (Asp.enterService (now s)) s)
    if was = .dormant then (List.range 16).foldl (fun u l => startTraining l u) (tcuWake s1) else s1
  | .startup | .tussock | .dormant => mapAsp Asp.enterDark (mapSsp Ssp.idle s)
  | _ => mapSsp Ssp.idle s

/-- The target is reached: STATE changes, BUSY clears, and waiting triggers are taken in order (R8, R394). -/
def reachState (t : DevState) (s : State) : State :=
  let was := s.glb.state
  let w := s.glb.waiting
  let s1 : State := { s with glb := { s.glb with state := t, target := none, waiting := [] } }
  w.foldl (fun u tr => trigger tr u) (irqSet 1 2 (arrive was t (entryEffects was t s.glb.reason s1)))

/-- STATE_TRANSITION_COMPLETE (R394). -/
def execStateTransitionComplete (s : State) : Out3 :=
  match s.glb.target with
  | some t => .next (reachState t s)
  | none => .next s

/-! ### Faults that lead to Recovery (R10, R265) -/

/-- MESH_ROUTER_FAIL (R10). -/
def execMeshRouterFail (s : State) : Out3 := .next (trigger (.fault 4) s)

/-- SURVEYOR_MEMORY_UE (R10): `held` says that the word holds stage-2 firmware or the sparing map. -/
def execSurveyorMemoryUe (held : Bool) (s : State) : Out3 := .next (if held then trigger (.fault 2) s else s)

/-- REC_ACTIVE_CLEAR (R10). -/
def execRecActiveClear (s : State) : Out3 := .next { s with glb := { s.glb with recActive := false } }

/-! ### The supply (R335, R403, R415, R416) -/

/-- The block at power-good: every register at its reset value; what the always-on supply and OTP hold is kept (R335, R357,
R391). -/
def powerGood (sheet : Nat) (s : State) : State :=
  let base : State := { State.reset with
    pending := s.pending, out := s.out, fresh := s.fresh, fbk := {}
    glb := { sheet := sheet % 64 }
    pwr := { vdd := 1600, vidValid := true, tj := s.pwr.tj }
    sec := { count := s.sec.count, forceHost := s.sec.forceHost, otp := s.sec.otp }
    cxl := { perst := s.cxl.perst } }
  enterStartup base

/-- POWER_GOOD (R403): SYS_PWRGD rises; the straps give the sheet, and with TESTEN high the device stays in Off (R415). -/
def execPowerGood (sheet : Nat) (testen : Bool) (s : State) : Out3 :=
  if s.glb.state = .off ∧ !testen then .next (powerGood sheet s) else .next s

/-- SYS_PWRGD_FALL (R403): Off; VID_VALID is released and no output is driven. -/
def execSysPwrgdFall (s : State) : Out3 :=
  if s.glb.state = .off then .next s
  else
    .next { State.reset with
      pending := s.pending, out := s.out, fresh := s.fresh, fbk := {}
      glb := { state := .off }
      pwr := { good := false, vidValid := false, tj := s.pwr.tj }
      sec := { count := s.sec.count, forceHost := s.sec.forceHost, otp := s.sec.otp, starting := false }
      cxl := { perst := s.cxl.perst } }

/-- VDD_AON_LOSS (R335): the boot-attempt counter, FORCEHOST and what the retention registers hold are lost. -/
def execVddAonLoss (s : State) : Out3 :=
  let s1 : State := { s with sec := { s.sec with count := 0, forceHost := false } }
  .next (if s.glb.state = .dormant then { s1 with srcs := [], evr := {}, qmg := {}, tcu := {} } else s1)

/-- What a read of GLB.ERR_CNT returns, and the state after it (R387). -/
def takeGlbErrCnt (t : State) : W32 × State := (BitVec.ofNat 32 t.glb.errCnt, { t with glb := { t.glb with errCnt := 0 } })

/-- GLB_ERR_CNT_READ (R394). -/
def execGlbErrCntRead (ag : Nat) (s : State) : Out3 :=
  .next (readPage ag 0x1058 takeGlbErrCnt s)

end Sys2Proof.Machine
end

