-- ==== Sys2Proof/Machine/Event.lean ====
section
/-! DEFINITION. Sys2Proof/Machine/Event.lean: the Event Router: source configuration, software triggers, host commits,
Surveyor claims and priority stacks (R275 to R283). -/

namespace Sys2Proof.Machine

/-- An event source. -/
def srcOf (s : State) (n : Nat) : Source := Tab.get {} s.srcs n
/-- An event source changed. -/
def setSrc (n : Nat) (x : Source) (s : State) : State := { s with srcs := Tab.set s.srcs n x }
/-- MASK. -/
def Source.mask (x : Source) : Bool := bitOf x.cfg 31
/-- PRIO. -/
def Source.prio (x : Source) : Nat := fld x.cfg 26 4
/-- TGT bit k. -/
def Source.tgt (x : Source) (k : Nat) : Bool := bitOf x.cfg (16 + k)
/-- EQ. -/
def Source.eq (x : Source) : Nat := fld x.cfg 0 14

/-- The numbers that name a source; the others are reserved (R275). -/
def sourceNamed (n : Nat) : Bool :=
  decide (n < 0xA) || (decide (0x100 ≤ n) && decide (n < 0x100 + 544)) || (decide (0x400 ≤ n) && decide (n < 0x460)) ||
  (decide (0x480 ≤ n) && decide (n < 0x4A0)) || (decide (0x4C0 ≤ n) && decide (n < 0x4D0)) ||
  (decide (0x500 ≤ n) && decide (n < 0x540)) || (decide (0x580 ≤ n) && decide (n < 0x5A1)) ||
  (decide (0x5C0 ≤ n) && decide (n < 0x5E0)) || (decide (0x600 ≤ n) && decide (n < 0x680)) ||
  (decide (0x800 ≤ n) && decide (n < 0x2000))

/-- A source is eligible for target k: bits 0 to 5 Surveyors, 7 the host (R276). -/
def Source.eligible (x : Source) (k : Nat) : Bool := decide (0 < x.count) && !x.mask && x.tgt k

/-- Deliveries go on in every powered state but Dormant (R281). -/
def delivers (st : DevState) : Bool := st != .off && st != .dormant

/-! ### SRC_CFG and SWTRIG (R275, R276, R283) -/

/-- The bits of SRC_CFG that are not reserved. -/
def srcCfgMask : W32 := 0xBCBF3FFF#32

/-- SRC_CFG is written for the source that SRC_SEL names; a reserved number takes no configuration (R275, R283). -/
def writeSrcCfg (v : W32) (s : State) : State :=
  let n := s.evr.srcSel
  if sourceNamed n then setSrc n { srcOf s n with cfg := v &&& srcCfgMask } s else s

/-- SRC_CFG_WRITE (R276). -/
def execSrcCfgWrite (ag : Nat) (v : W32) (s : State) : Out3 := .next (atPage ag 0x10044 (writeSrcCfg v) s)

/-- SWTRIG is written (R275, R283). -/
def swTrig (ag : Nat) (v : W32) (s : State) : State :=
  let n := fld v 0 13
  if 0x800 ≤ n ∧ n < 0x1000 then fireSource n s else refuseReg 5 ag 0x1004C s

/-- SWTRIG (R275): a software-trigger source fires. -/
def execSwtrig (ag : Nat) (v : W32) (s : State) : Out3 := .next (atPage ag 0x1004C (swTrig ag v) s)

/-! ### Host commits (R277) -/

/-- A queue takes event records: TYPE 2 with V = 1 (R277). -/
def Queue.takesEvents (x : Queue) : Bool := x.v && x.typ == 2

/-- An event queue is full, what is held behind it counted (R270). -/
def Queue.eventFull (x : Queue) : Bool := decide (x.n ≤ x.used + x.held.length)

/-- There is something to do for a source that is eligible for the host: a commit, or a first report of a bad or a full
queue (R277, R280). -/
def commitDue (s : State) (x : Source) : Bool :=
  let q := queueOf s x.eq
  if q.takesEvents then !(q.eventFull && q.fullHold) else !x.badq

/-- The source whose commit is next: descending PRIO, then ascending number (R277). -/
def nextCommit (s : State) : Option (Nat × Source) :=
  (s.srcs.filter fun e => e.2.eligible 7 && commitDue s e.2).foldl (fun best e =>
    match best with
    | some b => if b.2.prio < e.2.prio then some e else some b
    | none => some e) none

/-- The 16-byte record of a commit (R277). -/
def eventRecord (t n : Nat) (x : Source) : List W32 :=
  [BitVec.ofNat 32 (n + x.count * 2 ^ 16 + x.prio * 2 ^ 24 + 2 ^ 28), BitVec.ofNat 32 t, BitVec.ofNat 32 (t / 2 ^ 32), 0]

/-- One commit is attempted (R276, R277, R280). -/
def commitEvent (n : Nat) (x : Source) (s : State) : State :=
  let q := queueOf s x.eq
  if !q.takesEvents then
    fbRaise 0x0C05 (BitVec.ofNat 64 (n * 2 ^ 32 + x.eq)) (setSrc n { x with badq := true } s)
  else if q.eventFull then enterFullHold x.eq s
  else postRecord x.eq (eventRecord (now s) n x) (setSrc n { x with count := 0 } s)

/-- EVENT_COMMIT (R277): the Event Router commits the next eligible source. -/
def execEventCommit (s : State) : Out3 :=
  if delivers s.glb.state then
    match nextCommit s with
    | some (n, x) => .next (commitEvent n x s)
    | none => .next s
  else .next s

/-! ### Surveyor claims (R278, R279) -/

/-- A Surveyor's registers. -/
def svOf (s : State) (n : Nat) : SvEvents := Tab.get {} s.evr.sv n
/-- A Surveyor's registers changed. -/
def setSv (n : Nat) (x : SvEvents) (s : State) : State := { s with evr := { s.evr with sv := Tab.set s.evr.sv n x } }

/-- A source is offered to Surveyor n (R278). -/
def offered (s : State) (n : Nat) (x : Source) : Bool :=
  delivers s.glb.state && x.eligible n &&
  (match (svOf s n).stack with
    | [] => true
    | t :: _ => decide (t.1 < x.prio))

/-- The offered source of highest PRIO, lowest number first (R278). -/
def bestOffer (s : State) (n : Nat) : Option (Nat × Source) :=
  (s.srcs.filter fun e => offered s n e.2).foldl (fun best e =>
    match best with
    | some b => if b.2.prio < e.2.prio then some e else some b
    | none => some e) none

/-- A read of SVn_CLAIM (R278). -/
def claim (n : Nat) (s : State) : W32 × State :=
  match bestOffer s n with
  | some (k, x) =>
    let v := svOf s n
    (BitVec.ofNat 32 (k + x.count * 2 ^ 16 + x.prio * 2 ^ 24),
      setSv n { v with stack := (x.prio, k) :: v.stack } (setSrc k { x with count := 0 } s))
  | none => (0xFFFF#32, s)

/-- SV_CLAIM (R278): Surveyor n claims the highest offered source. -/
def execSvClaim (ag n : Nat) (s : State) : Out3 :=
  if 6 ≤ n then .refused .noSuchUnit else .next (readPage ag (0x11040 + 0x1000 * n) (claim n) s)

/-- The BAR0 offset of SVn_EOI. -/
def eoiOff (n : Nat) : Nat := 0x11044 + 0x1000 * n

/-- The payload of PRIO_STACK_FAULT (R282). -/
def stackFaultPayload (n prio : Nat) (st : List (Nat × Nat)) : W64 :=
  let top := match st with
    | t :: _ => t.1
    | [] => 0xF
  BitVec.ofNat 64 (n * 2 ^ 48 + prio % 16 * 2 ^ 32 + st.length * 2 ^ 16 + top)

/-- An EOI names a priority (R279). -/
def endService (n prio : Nat) (s : State) : State :=
  let v := svOf s n
  if v.stack.head?.map (·.1) = some prio then setSv n { v with stack := v.stack.tail } s
  else fireSource 8 (fbRaise 0x0C10 (stackFaultPayload n prio v.stack) (setSv n { v with psf := true } s))

/-- An EOI with FORCE = 1 (R279). -/
def forceService (n : Nat) (s : State) : State :=
  let v := svOf s n
  setSv n { v with stack := v.stack.tail } s

/-- EOI (R279). -/
def execEoi (ag n prio : Nat) (s : State) : Out3 :=
  if 6 ≤ n ∨ 16 ≤ prio then .refused .noSuchUnit else .next (atPage ag (eoiOff n) (endService n prio) s)

/-- EOI_FORCE (R279). -/
def execEoiForce (ag n : Nat) (s : State) : Out3 :=
  if 6 ≤ n then .refused .noSuchUnit else .next (atPage ag (eoiOff n) (forceService n) s)

end Sys2Proof.Machine
end

