-- ==== Sys2Proof/Machine/Trust.lean ====
section
/-! DEFINITION. Sys2Proof/Machine/Trust.lean: the start sequence, images and their verification, trust records, keys and
attestation, and the firmware's messages (R335 to R354). -/

namespace Sys2Proof.Machine

/-- The BAR0 byte offset of a register of the SEC page. -/
def secOff (o : Nat) : Nat := 0x5000 + o
/-- SEC changed. -/
def setSec (x : Sec) (s : State) : State := { s with sec := x }
/-- A start is in progress in Start-up (R336). -/
def startOpen (s : State) : Bool := s.glb.state == .startup && s.glb.target.isNone && s.sec.starting

/-- A start fails with a reason (R343). -/
def startFail (reason : Nat) (s : State) : State :=
  let x := { s.sec with lastFail := reason, starting := false, waitPush := 0, push := .idle }
  let s1 := fbRaise 0x0103 (BitVec.ofNat 64 reason) (setSec x s)
  if x.otp.threshold ≤ x.count then trigger (.tussock reason) s1 else trigger .reset s1

/-! ### Images (R339, R340) -/

/-- A field of an image. -/
def slice (bs : List Byte) (o n : Nat) : List Byte := (bs.drop o).take n
/-- A little-endian field of an image. -/
def leField (bs : List Byte) (o n : Nat) : Nat := leValue (slice bs o n)
/-- MAGIC matches (R337). -/
def imagePresent (bs : List Byte) : Bool := leField bs 0 4 == 0x5A51494D
/-- Every field that must be 0 is 0 (R339). -/
def zeroFields (bs : List Byte) : Bool :=
  [(0x18, 8), (0x721, 7), (0x72A, 6), (0xC30, 976)].all fun f => (slice bs f.1 f.2).all (· == 0)
/-- BODYLEN. -/
def bodyLen (bs : List Byte) : Nat := leField bs 0xC 4
/-- The body. -/
def imageBody (bs : List Byte) : List Byte := slice bs 0x1000 (bodyLen bs)
/-- The measured value of an image (R340). -/
def imageDigest (bs : List Byte) : BitVec 512 := Config.shake256 (bs.take 0x728 ++ imageBody bs)
/-- The largest image of a stage, header included (R337); a trust record has no limit of its own. -/
def stageLimit (stage : Nat) : Nat := match stage with
  | 1 => 0x100000
  | 2 => 0x1000000
  | _ => 0x2000000
/-- An OTP key slot. -/
def keySlot (x : Sec) (k : Nat) : KeySlot := Tab.get {} x.otp.slots k
/-- The OTP floor of a stage (R341). -/
def svnFloor (x : Sec) (stage : Nat) : Nat := match stage with
  | 1 => x.otp.floor1
  | 2 => x.otp.floor2
  | _ => 0

/-- The code with which R340 rejects an image that is present, 0 where it accepts. -/
def verifyImage (x : Sec) (stage : Nat) (bs : List Byte) : Nat :=
  let slot := leField bs 7 1
  let k := keySlot x slot
  let key := slice bs 0x20 1793
  if leField bs 4 2 ≠ 1 ∨ !zeroFields bs ∨ leField bs 6 1 ≠ stage then 0x0201
  else if bodyLen bs + 0x1000 > stageLimit stage ∨ leField bs 0x10 4 + bodyLen bs > 0x2000000 then 0x0201
  else if !k.v ∨ (stage ≤ 2 ∧ !bitAt k.stages (stage - 1)) ∨ (stage = 1 ∧ 4 ≤ slot) then 0x0201
  else if k.revoked then 0x0202
  else if Config.shake256 key ≠ k.hash then 0x0201
  else if stage ≤ 2 ∧ leField bs 8 4 < svnFloor x stage then 0x0203
  else if !Config.falconVerify key (imageDigest bs) (slice bs 0x730 1280) then 0x0201
  else 0

/-- The Field Book record of a rejected image (R353). -/
def rejectImage (stage src code : Nat) (bs : List Byte) (s : State) : State :=
  let low := stage + src * 2 ^ 8 + leField bs 7 1 % 8 * 2 ^ 16
  fbRaise code (BitVec.ofNat 64 (if code = 0x0203 then low + svnFloor s.sec stage * 2 ^ 32 else low)) s

/-- Bytes written to Surveyor memory from a byte offset (R340). -/
def loadBytes (o : Nat) (bs : List Byte) (m : List Host.Cell) : List Host.Cell :=
  (bs.foldl (fun (a : Nat × List Host.Cell) b => (a.1 + 1, memSet a.2 (2 * 0x20000000 + a.1) b)) (o, m)).2

/-- A stage image is accepted: it is copied to LOAD, and its digest is measurement 2 or 3 (R340, R349, R353). -/
def acceptStage (stage src : Nat) (bs : List Byte) (s : State) : State :=
  let svn := leField bs 8 4
  let x := { s.sec with verified := stage, tried := (0, false), waitPush := 0
                        meas := Tab.set s.sec.meas (stage + 1) (imageDigest bs) }
  let x1 := if stage = 1 then { x with s1Src := src, svn1 := svn } else { x with s2Src := src, svn2 := svn }
  fbRaise 0x0102 (BitVec.ofNat 64 (stage + src * 2 ^ 8 + svn % 128 * 2 ^ 16))
    (setSec x1 { s with mem := loadBytes (leField bs 0x10 4) (imageBody bs) s.mem })

/-- A stage awaits a host push (R338). -/
def awaitPush (stage : Nat) (s : State) : State := irqSet 5 4 (setSec { s.sec with waitPush := stage } s)

/-- The copies in QSPI are exhausted: a host push is awaited where BOOTSRC allows one, else the start fails (R337). -/
def copiesDone (stage : Nat) (present : Bool) (s : State) : State :=
  if bootSource s.sec = 2 then startFail (if present then 1 else 2) s else awaitPush stage s

/-- The next QSPI copy of a stage is tried (R337): copy A, then copy B. -/
def tryCopy (stage : Nat) (image : Option (List Byte)) (s : State) : State :=
  if bootSource s.sec = 1 then awaitPush stage s
  else
    let n := s.sec.tried.1
    let next (here : Bool) (t : State) : State :=
      let present := s.sec.tried.2 || here
      let t1 := setSec { t.sec with tried := (n + 1, present) } t
      if n = 0 then t1 else copiesDone stage present t1
    match image with
    | some bs =>
      if imagePresent bs then
        let e := verifyImage s.sec stage bs
        if e = 0 then acceptStage stage n bs s else next true (rejectImage stage n e bs s)
      else next false s
    | none => next false s

/-! ### The steps of a start (R336, R367) -/

/-- The physical reeds of a bed that pass, in ascending order, by the mask of all 544. -/
def passingReeds (mask b : Nat) : List Nat := ((List.range 17).map (17 * b + ·)).filter fun p => bitAt mask p

/-- The reed of each logical reed of its own bed, and those left over (R367). -/
def bindHome (mask b : Nat) : List (Nat × Option Nat) × List Nat :=
  let ps := passingReeds mask b
  ((List.range 16).map fun i => (16 * b + i, ps[i]?), ps.drop 16)

/-- The sparing map of Start-up (R367): what a bed lacks is taken from the idle spare of the lowest-numbered bed that has
one. -/
def bindReeds (mask : Nat) : List (Nat × Option Nat) :=
  let beds := (List.range 32).map (bindHome mask)
  let spares := beds.flatMap (·.2)
  ((beds.flatMap (·.1)).foldl (fun (a : List (Nat × Option Nat) × List Nat) e =>
    match e.2, a.2 with
    | none, p :: rest => (a.1 ++ [(e.1, some p)], rest)
    | _, _ => (a.1 ++ [e], a.2)) ([], spares)).1

/-- The map as a table of what differs from the first binding. -/
def bindingOf (l : List (Nat × Option Nat)) : Tab (Option Nat) :=
  l.filter fun e => e.2 != some (firstBinding e.1)

/-- A page that training has repaired returns to HBM, and its reserve page is freed (R189). -/
def returnPage (n : Nat) (s : State) : State :=
  match backOf s n with
  | .backed r =>
    fbRaise 0x0623 (payload n r)
      { s with hbm := { s.hbm with back := Tab.set s.hbm.back n .inHbm, reserve := s.hbm.reserve.filter (· != r) } }
  | _ => s

/-- Step 6 (R336, R367): `mask` names the reeds that pass, and `pages` the re-backed pages that training repairs. -/
def startStep6 (mask : Nat) (hbmOk mapOk : Bool) (pages : List Nat) (s : State) : State :=
  let s0 := setSec { s.sec with step := 6 } s
  let failed := (List.range 544).filter fun p => !bitAt mask p
  if !hbmOk then startFail 3 s0
  else if 544 - failed.length < 480 then startFail 4 s0
  else if !mapOk then startFail 0xB s0
  else
    let s1 := clearReedMem { s0 with
      binding := bindingOf (bindReeds mask)
      spr := { s0.spr with failed := failed, engineIdle := true, pceilLow := [], ceHigh := [] }
      slc := s0.slc.map fun (e : Nat × Engine) => (e.1, { e.2 with serving := true, spareIn := false, bed := 0 })
      cxl := { s0.cxl with memReady := true } }
    let s2 := (List.range 64).foldl (fun t p => setHbmPage p { hbmPageOf t p with trained := true } t) s1
    pages.foldl (fun t n => returnPage n t) s2

/-- Measurement 4 is fixed (R349). -/
def fixMeas4 (s : State) : State :=
  let o := s.sec.otp
  let slots := (List.range 8).flatMap fun k =>
    let x := keySlot s.sec k
    [x.v.toNat, x.revoked.toNat, x.stages, x.hash.toNat]
  let v := Config.otpMeasure
    (slots ++ [o.floor1, o.floor2, o.bootSrc, o.threshold, o.custLock.toNat, o.dbgPol, s.sec.dbgOpen.toNat])
  setSec { s.sec with meas := Tab.set (Tab.set s.sec.meas 4 v) 1 Config.romMeasure } s

/-- Step 8 (R336, R349): Service is entered. -/
def startStep8 (s : State) : State :=
  let n := 544 - s.spr.failed.length
  let x := { s.sec with step := 8, starting := false, fw := true, meas := Tab.set s.sec.meas 5 0 }
  reachState .service (fbRaise 0x0104 (BitVec.ofNat 64 (n % 2 ^ 9)) (setSec x s))

/-- Steps 2 to 4 (R336). -/
def startEarly (step arg : Nat) (s : State) : State :=
  let x := s.sec
  match step with
  | 2 =>
    let pass := setBits 8 arg
    let s1 := setSec { x with step := 2 } s
    if pass.length < 6 then startFail 0xA s1
    else { s1 with spr := { s1.spr with survMap := (List.range 6).zip pass
                                        survFailed := (List.range 8).filter fun k => !pass.contains k } }
  | 3 => setSec { x with step := 3 } s
  | _ =>
    let s1 := setSec { x with step := 4, otpOk := arg = 1 } s
    if arg = 1 then s1 else startFail 6 s1

/-- A step of R336 is taken, or the condition of step 0 fails the start: reason 0x07 or 0x08. `args` gives what the step
finds: 2, the mask of passing Surveyors; 4, whether OTP passes; 6, the mask of passing reeds, whether HBM trains, whether
the map is valid, and the pages repaired; 5 and 7, with `image`, the next QSPI copy. -/
def startStep (step : Nat) (args : List Nat) (image : Option (List Byte)) (s : State) : State :=
  let x := s.sec
  let a (i : Nat) : Nat := args.getD i 0
  match step with
  | 0 => if a 0 = 7 ∨ a 0 = 8 then startFail (a 0) s else s
  | 5 =>
    if x.step = 4 ∨ (x.step = 5 ∧ x.verified = 0 ∧ x.waitPush = 0) then tryCopy 1 image (setSec { x with step := 5 } s)
    else s
  | 6 => if x.step = 5 ∧ x.verified = 1 then startStep6 (a 0) (a 1 == 1) (a 2 == 1) (args.drop 3) s else s
  | 7 =>
    if x.step = 6 ∨ (x.step = 7 ∧ x.verified = 1 ∧ x.waitPush = 0) then
      tryCopy 2 image (fixMeas4 (setSec { x with step := 7 } s))
    else s
  | 8 => if x.step = 7 ∧ x.verified = 2 then startStep8 s else s
  | _ => if (step = 2 ∨ step = 3 ∨ step = 4) ∧ x.step + 1 = step then startEarly step (a 0) s else s

/-- START_SEQUENCE (R336). -/
def execStartSequence (step : Nat) (args : List Nat) (image : Option (List Byte)) (s : State) : Out3 :=
  .next (if startOpen s then startStep step args image s else s)

/-- STARTUP_WATCHDOG (R336). -/
def execStartupWatchdog (s : State) : Out3 :=
  .next (if startOpen s && decide (s.sec.since + 2 ^ 33 ≤ now s) then startFail 5 s else s)

/-! ### Host pushes (R338) -/

/-- A GO write is refused (R338). -/
def pushRefused (s : State) (kind len : Nat) : Bool :=
  kind == 0 || s.sec.push != .idle || decide (len > stageLimit kind) || len % 4 != 0 || len == 0 ||
  (if kind = 3 then s.glb.state != .service && s.glb.state != .tussock else s.sec.waitPush == 0)

/-- ERR is set and GLB.ERR is logged (R338). -/
def pushError (ag o : Nat) (s : State) : State := refuseReg 5 ag (secOff o) (setSec { s.sec with err := true } s)

/-- PUSH_CTRL is written with GO = 1 (R338). -/
def pushGo (ag : Nat) (v : W32) (s : State) : State :=
  let kind := fld v 28 2
  let len := fld v 0 25
  let s1 := if s.sec.push = .idle then setSec { s.sec with kind := kind, len := len } s else s
  if pushRefused s kind len then pushError ag 0x48 s1
  else setSec { s1.sec with push := .filling, buffer := [], done := false, err := false } s1

/-- PUSH_GO (R338). -/
def execPushGo (ag : Nat) (v : W32) (s : State) : Out3 := .next (atPage ag (secOff 0x48) (pushGo ag v) s)

/-- PUSH_DATA is written (R338). -/
def pushData (ag : Nat) (v : W32) (s : State) : State :=
  let x := s.sec
  if x.push = .filling then
    let b := x.buffer ++ leBytes 4 v.toNat
    setSec { x with buffer := b, push := if x.len ≤ b.length then .verifying else .filling } s
  else pushError ag 0x4C s

/-- PUSH_DATA (R338). -/
def execPushData (ag : Nat) (v : W32) (s : State) : Out3 := .next (atPage ag (secOff 0x4C) (pushData ag v) s)

/-- A push ends: DONE, with ERR or without (R338). -/
def pushEnds (err : Bool) (s : State) : State :=
  irqSet 5 2 (setSec { s.sec with done := true, err := err, push := .idle, buffer := [] } s)

/-! ### Trust records (R342) -/

/-- The signing slot is of the vendor's class. -/
def vendorSlot (k : Nat) : Bool := decide (k < 4)

/-- A trust record that R340 has accepted may act (R342). -/
def trustOk (x : Sec) (signer : Nat) (body : List Byte) : Bool :=
  let ty := leField body 0 1
  let tgt := leField body 1 1
  let o := x.otp
  let live (k : Nat) : Bool := (keySlot x k).v && !(keySlot x k).revoked
  body.length == 96 && slice body 4 16 == o.devId && (slice body 84 12).all (· == 0) &&
  (match ty with
  | 1 =>
    tgt < 8 && live signer && vendorSlot signer == vendorSlot tgt && signer != tgt &&
      (List.range 4).any fun k => k != tgt && live k && bitAt (keySlot x k).stages 0
  | 2 =>
    tgt < 8 && live signer && vendorSlot signer == !o.custLock && !vendorSlot tgt && !(keySlot x tgt).v
  | 3 => live signer && (if vendorSlot signer then bitAt o.dbgPol 0 else bitAt o.dbgPol 1)
  | _ => false)

/-- What an accepted trust record does (R342, R350, R351). -/
def applyTrust (signer : Nat) (body : List Byte) (s : State) : State :=
  let x := s.sec
  let o := x.otp
  let tgt := leField body 1 1
  let set (k : KeySlot) (lock : Bool) : State :=
    fixMeas4 (setSec { x with otp := { o with slots := Tab.set o.slots tgt k, custLock := lock } } s)
  match leField body 0 1 with
  | 1 => set { keySlot x tgt with revoked := true } o.custLock
  | 2 => set { v := true, revoked := false, stages := leField body 2 2 % 4, hash := BitVec.ofNat 512 (leField body 20 64) } true
  | _ =>
    let s1 := zeroise s
    fbRaise 0x0207 (BitVec.ofNat 64 signer) (fixMeas4 (setSec { s1.sec with dbgOpen := true } s1))

/-- A pushed trust record is verified and acts, or is refused (R340, R342). -/
def takeTrust (bs : List Byte) (s : State) : State :=
  let signer := leField bs 7 1
  let body := imageBody bs
  let pay : W64 := BitVec.ofNat 64 (leField body 0 1 + leField body 1 1 % 8 * 2 ^ 8)
  if !imagePresent bs then pushEnds true s
  else
    let e := verifyImage s.sec 3 bs
    if e ≠ 0 then pushEnds true (rejectImage 3 2 e bs s)
    else if trustOk s.sec signer body then pushEnds false (fbRaise 0x0204 pay (applyTrust signer body s))
    else pushEnds true (fbRaise 0x0205 pay s)

/-- A pushed stage image is verified (R338, R340). -/
def takePushed (stage : Nat) (bs : List Byte) (s : State) : State :=
  if s.sec.waitPush = 0 ∨ !imagePresent bs then pushEnds true s
  else
    let e := if stage = s.sec.waitPush then verifyImage s.sec stage bs else 0x0201
    if e = 0 then pushEnds false (acceptStage stage 2 bs s) else pushEnds true (rejectImage stage 2 e bs s)

/-- PUSH_VERIFY_COMPLETE (R340). -/
def execPushVerifyComplete (s : State) : Out3 :=
  if s.sec.push = .verifying then
    .next (if s.sec.kind = 3 then takeTrust s.sec.buffer s else takePushed s.sec.kind s.sec.buffer s)
  else .next s

/-! ### BOOT_ACK, SVNCOMMIT, ZEROIZE (R341, R345, R350) -/

/-- GLB.BOOT_ACK is written (R345). -/
def bootAck (ag : Nat) (s : State) : State :=
  if s.glb.state = .service then
    fbRaise 0x0107 0 (setSec { s.sec with count := 0, forceHost := false, bootAck := true } s)
  else refuseReg 4 ag 0x104C s

/-- BOOT_ACK (R345). -/
def execBootAck (ag : Nat) (s : State) : Out3 := .next (atPage ag 0x104C (bootAck ag) s)

/-- SEC.CTRL.SVNCOMMIT is written with 1 (R341): a floor is never lowered. -/
def svnCommit (ag : Nat) (s : State) : State :=
  let o := s.sec.otp
  if s.glb.state = .service ∧ s.sec.bootAck then
    setSec { s.sec with otp := { o with floor1 := max o.floor1 s.sec.svn1, floor2 := max o.floor2 s.sec.svn2 } } s
  else refuseReg 4 ag (secOff 8) s

/-- SVNCOMMIT (R341). -/
def execSvncommit (ag : Nat) (s : State) : Out3 := .next (atPage ag (secOff 8) (svnCommit ag) s)

/-- ZEROIZE (R350). -/
def execZeroize (ag : Nat) (s : State) : Out3 := .next (atPage ag (secOff 8) zeroise s)

/-! ### SPDM and the LKEK (R348, R350) -/

/-- SPDM requests but GET_VERSION and GET_CAPABILITIES receive Busy (R348). -/
def spdmBusy (s : State) : Bool := s.sec.verified == 0

/-- An answer on the first DOE instance (R295, R348). -/
def spdmAnswer (type v : W32) (s : State) : State :=
  let d := Tab.get {} s.cxl.doe 0
  send (.doeAnswer 0 type v) { s with cxl := { s.cxl with doe := Tab.set s.cxl.doe 0 { d with answers := d.answers ++ [[type, v]] } } }

/-- SPDM_REQUEST (R348): a request with its code. ERROR with code Busy is the word 0x00037F13; FINISH opens a session and
END_SESSION ends it (log entry 27). What else an answer holds the spec leaves to SPDM: a free value. -/
def execSpdmRequest (code : Nat) (s : State) : Out3 :=
  let type := BitVec.ofNat 32 (0x13 + code % 256 * 256)
  if spdmBusy s ∧ code ≠ 0x84 ∧ code ≠ 0xE1 then .next (spdmAnswer type 0x00037F13#32 s)
  else
    let f := takeFree s
    let open' := if code = 0xE5 then true else if code = 0xEC then false else s.cxl.session
    .next (spdmAnswer type f.1 { f.2 with cxl := { f.2.cxl with session := open' } })

/-- LKEK_INSTALL (R350): in a secured session alone; the device answers with the generation it holds. -/
def execLkekInstall (key : BitVec 256) (gen : W32) (s : State) : Out3 :=
  if s.cxl.session ∧ !spdmBusy s then
    .next (fbRaise 0x0206 (BitVec.ofNat 64 gen.toNat)
      (spdmAnswer 0 gen (setSec { s.sec with lkek := some key, lkekGen := gen.toNat } s)))
  else .next s

/-! ### Firmware messages (R352) -/

/-- Firmware serves mailboxes (R352). -/
def mailboxOpen (s : State) : Bool := s.sec.fw && delivers s.glb.state && s.glb.state != .tussock

/-- A response of 64 bytes to mailbox queue `q` (R265, R352). -/
def mailboxEntry (q service op : Nat) (tag : W32) (status : Nat) (body : List Byte) (s : State) : State :=
  let x := queueOf s q
  if x.v && x.typ == 3 && x.dir then
    let bytes := leBytes 2 service ++ leBytes 2 op ++ leBytes 4 tag.toNat ++ leBytes 4 body.length ++ leBytes 4 status ++
      padBytes 48 body
    postRecord q ((List.range 16).map fun k => BitVec.ofNat 32 (leValue (slice bytes (4 * k) 4))) s
  else s

/-- The payload of the information answer (R352). -/
def infoPayload (s : State) : List Byte :=
  let m (k : Nat) : List Byte := (leBytes 64 (Tab.get 0 s.sec.meas k : BitVec 512).toNat).take 32
  leBytes 4 s.sec.svn1 ++ leBytes 4 s.sec.svn2 ++ m 2 ++ m 3

/-- MAILBOX_INFO (R352): service 0x0001; the answer of 72 bytes takes two entries of at most 48 (log entry 28). -/
def execMailboxInfo (q op : Nat) (tag : W32) (s : State) : Out3 :=
  if !mailboxOpen s then .next s
  else if op = 1 then
    let b := infoPayload s
    .next (mailboxEntry q 1 1 tag 0 (b.drop 48) (mailboxEntry q 1 1 tag 0 (b.take 48) s))
  else .next (mailboxEntry q 1 op tag 2 [] s)

/-- MAILBOX_UNKNOWN_SERVICE (R352). -/
def execMailboxUnknownService (q service op : Nat) (tag : W32) (s : State) : Out3 :=
  if mailboxOpen s then .next (mailboxEntry q service op tag 1 [] s) else .next s

/-- An image in a context (R40, R153): every persistent register is 0, then the image's CTXCFG, parcels and entry. -/
def imageCtx (i : Image) (c : Nat) (x : Reed) : Reed :=
  let y := if x.running = some c then discardRun c x.drop
    else discardRun c { x with preempted := x.preempted.filter (· != c) }
  let k := y.ctxOf c
  y.setCtx c { k with regs := { cfg := i.cfg, pd := (List.range i.parcels.length).zip i.parcels }
                      run := {}
                      page := { k.page with cfgNext := i.cfg, entry := i.entry, pdNext := [] }
                      image := true }

/-- An image's syllables in a reed's IM (R49). -/
def imageMem (i : Image) (r : Nat) (m : List Host.Cell) : List Host.Cell :=
  (i.im.foldl (fun (a : Nat × List Host.Cell) (v : W32) =>
    let w := reedBase r + 0x20000 + 2 * (a.1 % 0x10000)
    (a.1 + 1, memSetWord (memSetWord a.2 w (v.setWidth 16)) (w + 1) ((v >>> (16 : Nat)).setWidth 16))) (i.imOff, m)).2

/-- An image is put into context `c` of physical reed `r`. -/
def putImage (i : Image) (r c : Nat) (s : State) : State :=
  setReed r (imageCtx i c (reedOf s r)) { s with mem := imageMem i r s.mem }

/-- Measurement 5 grows with an image load (R349). -/
def extendE (l c : Nat) (bytes : List Byte) (s : State) : State :=
  let b (v : BitVec 512) : List Byte := leBytes 64 v.toNat
  let e := Config.shake256 (b (Tab.get 0 s.sec.meas 5) ++ b (Config.shake256 bytes) ++ leBytes 2 l ++ leBytes 1 c)
  setSec { s.sec with meas := Tab.set s.sec.meas 5 e } s

/-- The status with which a load is answered (R352). -/
def loadStatus (s : State) (l : Nat) : Nat :=
  if s.glb.state ≠ .test ∧ s.glb.state ≠ .service ∧ s.glb.state ≠ .recovery then 3
  else if s.spr.phase ≠ .idle ∧ s.spr.phase ≠ .hostWait ∧ s.spr.now.lreed = l then 4
  else match physOf s l with
    | none => 3
    | some p => match s.tst.running with
      | some (proc, t) => if (proc = 1 ∨ proc = 5) ∧ t = p then 4 else 0
      | none => 0

/-- MAILBOX_LOAD_IMAGE (R352): the image for context `c` of logical reed `l`, as firmware takes it apart, with its bytes. -/
def execMailboxLoadImage (q op : Nat) (tag : W32) (l c : Nat) (cfg : W32) (entry : W16) (parcels : List W128) (imOff : Nat)
    (im : List W32) (bytes : List Byte) (s : State) : Out3 :=
  if 512 ≤ l ∨ 8 ≤ c then .refused .noSuchUnit
  else if !mailboxOpen s then .next s
  else
    let st := loadStatus s l
    let i : Image := { cfg := cfg, entry := entry, parcels := parcels, imOff := imOff, im := im }
    let s1 := match st, physOf s l with
      | 0, some p =>
        let t := extendE l c bytes (putImage i p c s)
        { t with spr := { t.spr with images := Tab.set t.spr.images (8 * l + c) i } }
      | _, _ => s
    .next (mailboxEntry q 2 op tag st [] s1)

/-! ### Boundary scan (R351, R381) -/

/-- BOUNDARY_SCAN (R381): operation 0 reads IDCODE, whose manufacturer bits the spec does not give; 1 is EXTEST, which
drives no pin unless TST.CTRL bit 0 is set and changes no state; 2 is a debug read of a memory word, answered only while
debug access is open. -/
def execBoundaryScan (op addr : Nat) (s : State) : Out3 :=
  if s.glb.state = .off then .next s
  else match op with
    | 0 =>
      let f := takeFree s
      .next (send (.readData (BitVec.ofNat 32 (2 ^ 28 + 0x9144 * 2 ^ 12 + f.1.toNat % 2 ^ 11 * 2 + 1))) f.2)
    | 2 =>
      if s.sec.dbgOpen then match (placeOf s 0 addr).word with
        | some w => .next (send (.readData ((memWord s.mem w).setWidth 32)) s)
        | none => .next s
      else .next s
    | _ => .next s

end Sys2Proof.Machine
end

