-- ==== Sys2Proof/Machine/Spare.lean ====
section
/-! DEFINITION. Sys2Proof/Machine/Spare.lean: sparing and test: wear monitors, migration, hard failover, the substitution of
Surveyors, engines and queue entries, and the test procedures (R366 to R385). -/

namespace Sys2Proof.Machine

/-! ### The inventory (R366, R384) -/

/-- The SPR page changed. -/
def setSpr (x : Spr) (s : State) : State := { s with spr := x }
/-- A physical reed is an idle spare. -/
def idleSpare (s : State) (p : Nat) : Bool := !s.spr.failed.contains p && (logicalOf s p).isNone
/-- The idle spare reeds, rising. -/
def idleSpares (s : State) : List Nat := (List.range 544).filter (idleSpare s)
/-- The physical Surveyor of a logical number. -/
def Spr.survOf (p : Spr) (n : Nat) : Nat := Tab.get n p.survMap n
/-- The idle Surveyors, rising. -/
def Spr.survIdle (p : Spr) : List Nat :=
  (List.range 8).filter fun k => !p.survFailed.contains k && !(List.range 6).any fun n => p.survOf n == k
/-- WEAR.PACE as it applies. -/
def Spr.pace (p : Spr) : Nat := max 1540 (fld p.wear 20 12)
/-- WEAR.CE. -/
def Spr.ceLimit (p : Spr) : Nat := fld p.wear 14 6
/-- WEAR.HBMCE as it applies. -/
def Spr.hbmCe (p : Spr) : Nat := max 1 (fld p.wear 8 6)
/-- The retry delay of R372 in ticks. -/
def Spr.retryTicks (p : Spr) : Nat := fld p.wear 0 8 * 2 ^ 20

/-- The bed of a physical reed. -/
def bedAt (p : Nat) : Nat := p / 17
/-- The hops between two beds of the mesh (R180). -/
def meshHops (a b : Nat) : Nat := (max (a % 8) (b % 8) - min (a % 8) (b % 8)) + (max (a / 8) (b / 8) - min (a / 8) (b / 8))

/-- The spare for a worn reed: its own bed's, else that of the nearest bed, the lower number first (R370). -/
def spareFor (s : State) (worn : Nat) : Option Nat :=
  (idleSpares s).foldl (fun best p =>
    match best with
    | some b => if meshHops (bedAt p) (bedAt worn) < meshHops (bedAt b) (bedAt worn) then some p else some b
    | none => some p) none

/-- The payload of 0x0501 to 0x0505 (R383). -/
def sparePayload (worn spare l : Nat) (urgent : Bool) (xcost : Nat) : W64 :=
  payload worn (spare * 2 ^ 32 + xcost * 2 ^ 16 + l + urgent.toNat * 2 ^ 9 + (bedAt spare != bedAt worn).toNat * 2 ^ 10)

/-- A physical reed is taken out of use for good, and counted (R384, SPR.INV.RETIRED). -/
def retirePhysical (p : Nat) (s : State) : State :=
  if s.spr.failed.contains p then s
  else setSpr { s.spr with failed := insertNat p s.spr.failed, retired := satInc 0xFFFF s.spr.retired } s

/-! ### A refused retirement, and an abandoned migration (R369, R372) -/

/-- A reed's contexts stop, and it starts no more (R369). -/
def haltReed (r : Nat) (s : State) : State :=
  let x := stopCtxs (fun _ => true) (reedOf s r)
  setReed r { x with page := { x.page with runOn := false } } s

/-- No spare can take the logical reed: after an urgent retirement its contexts stop (R369). -/
def refuseRetirement (q : Retirement) (s : State) : State :=
  let s1 := irqSet 6 8 (fbRaise 0x0509 (BitVec.ofNat 64 (q.lreed + q.urgent.toNat * 2 ^ 9)) s)
  match q.urgent, physOf s1 q.lreed with
  | true, some r => setSpr { s1.spr with stopped := insertNat q.lreed s1.spr.stopped } (haltReed r s1)
  | _, _ => s1

/-- The migration in progress is abandoned: a planned one waits for its retry, an urgent one is tried again at once, and is
refused the second time (R372). -/
def abandon (s : State) : State :=
  let p := s.spr
  let q := p.now
  let s1 := irqSet 6 4 (fbRaise 0x0503 (sparePayload p.worn p.spare q.lreed q.urgent 0)
    (setSpr { p with phase := .idle, tides := 0 } s))
  if !q.urgent then
    setSpr { s1.spr with retries := s1.spr.retries ++ [{ q with notBefore := now s + p.retryTicks }] } s1
  else if q.again then refuseRetirement q s1
  else setSpr { s1.spr with queue := { q with again := true } :: s1.spr.queue } s1

/-- A monitor condemns a physical reed: its logical reed is to be retired; the spare of a migration is retired and the
migration abandoned; an idle spare is retired (R368, R373, R380). -/
def condemn (r : Nat) (urgent : Bool) (s : State) : State :=
  match logicalOf s r with
  | some l => retireReed l urgent false s
  | none =>
    let s1 := retirePhysical r s
    if (s.spr.phase == .copy || s.spr.phase == .shadow) && s.spr.spare == r then abandon s1 else s1

/-! ### Wear monitors (R368) -/

/-- PCEIL_ESTIMATE (R368): a reed's pace at 0.85 V as estimated. -/
def execPceilEstimate (r pceil : Nat) (s : State) : Out3 :=
  if 544 ≤ r then .refused .noSuchUnit
  else if s.spr.failed.contains r then .next s
  else
    let n := if pceil < s.spr.pace then Tab.get 0 s.spr.pceilLow r + 1 else 0
    let s1 := setSpr { s.spr with pceilLow := Tab.set s.spr.pceilLow r (if 8 ≤ n then 0 else n) } s
    .next (if 8 ≤ n then condemn r false (fbRaise 0x0402 (payload r (pceil % 2 ^ 16)) s1) else s1)

/-- REED_ECC_WINDOW (R368): a window of 2^30 ticks ends with the errors corrected in a reed's memories. -/
def execReedEccWindow (r ce : Nat) (s : State) : Out3 :=
  if 544 ≤ r then .refused .noSuchUnit
  else if s.spr.failed.contains r then .next s
  else
    let n := if s.spr.ceLimit ≤ ce then Tab.get 0 s.spr.ceHigh r + 1 else 0
    let s1 := setSpr { s.spr with ceHigh := Tab.set s.spr.ceHigh r (if 3 ≤ n then 0 else n) } s
    .next (if 3 ≤ n then condemn r false s1 else s1)

/-! ### Migration (R369 to R373) -/

/-- The device states in which firmware migrates reeds. -/
def sparingState (s : State) : Bool := s.sec.fw && (s.glb.state == .service || s.glb.state == .test || s.glb.state == .recovery)

/-- The contexts named by a reed's valid entries in its active banks. -/
def activeCtxs (x : Reed) : List Nat :=
  ((List.range 8).flatMap fun d => (x.page.valid d (x.page.bankOf d)).map fun e => entryCtx e.2).eraseDups

/-- The check of R370: XCOST fits the smallest slack of the reed's contexts. -/
def crossFits (s : State) (l r : Nat) : Bool :=
  let x := reedOf s r
  (activeCtxs x).all fun c => decide (Tab.get 0xFFFF s.spr.xcost l ≤ (x.ctxOf c).page.slack)

/-- A migration begins with its copy (R371). -/
def beginCopy (q : Retirement) (worn spare : Nat) (s : State) : State :=
  fbRaise 0x0501 (sparePayload worn spare q.lreed q.urgent 0)
    (setSpr { s.spr with phase := .copy, now := q, spare := spare, worn := worn, tides := 0 } s)

/-- The next retirement is taken: it is refused, waits for the host, or begins (R369, R370). -/
def takeRetirement (q : Retirement) (worn : Nat) (s : State) : State :=
  match spareFor s worn with
  | none => refuseRetirement q s
  | some sp =>
    let cross := bedAt sp != bedAt worn
    let note := fbRaise 0x0504 (sparePayload worn sp q.lreed q.urgent (Tab.get 0xFFFF s.spr.xcost q.lreed))
    if !cross then beginCopy q worn sp s
    else if q.urgent then beginCopy q worn sp (note s)
    else if q.force || crossFits s q.lreed worn then beginCopy q worn sp s
    else irqSet 6 2 (note (setSpr { s.spr with phase := .hostWait, now := q, spare := sp, worn := worn } s))

/-- MIGRATION_START (R369, R370): the Surveyor takes the next retirement that waits. -/
def execMigrationStart (s : State) : Out3 :=
  if !sparingState s || s.spr.phase == .copy || s.spr.phase == .shadow then .next s
  else
    match s.spr.queue with
    | [] => .next s
    | q :: rest =>
      let s1 := setSpr { s.spr with queue := rest } s
      .next (match physOf s q.lreed with
        | some r => takeRetirement q r s1
        | none => s1)

/-- A memory in which the spare's bytes are those of the worn reed (R371). -/
def copyReedBytes (worn spare : Nat) (m : List Host.Cell) : List Host.Cell :=
  let f := 2 * reedBase worn
  let t := 2 * reedBase spare
  let size := 0x80000
  m.filter (fun (c : Host.Cell) => decide (c.1 < t)) ++
    (m.filter fun (c : Host.Cell) => decide (f ≤ c.1 ∧ c.1 < f + size)).map (fun (c : Host.Cell) => (c.1 - f + t, c.2)) ++
    m.filter (fun (c : Host.Cell) => decide (t + size ≤ c.1))

/-- Error marks copied with the words (R371). -/
def copyReedMarks (worn spare : Nat) (b : Tab Nat) : Tab Nat :=
  let f := reedBase worn
  let t := reedBase spare
  let size := 0x40000
  b.filter (fun (c : Nat × Nat) => decide (c.1 < t)) ++
    (b.filter fun (c : Nat × Nat) => decide (f ≤ c.1 ∧ c.1 < f + size)).map (fun (c : Nat × Nat) => (c.1 - f + t, c.2)) ++
    b.filter (fun (c : Nat × Nat) => decide (t + size ≤ c.1))

/-- Every word of the spare equals the worn reed's. -/
def copyReed (worn spare : Nat) (s : State) : State :=
  { s with mem := copyReedBytes worn spare s.mem, bad := copyReedMarks worn spare s.bad }

/-- MIGRATION_COPY_COMPLETE (R371): the shadow run begins. -/
def execMigrationCopyComplete (s : State) : Out3 :=
  if s.spr.phase ≠ .copy then .next s
  else .next (setSpr { s.spr with phase := .shadow, tides := 0 } (copyReed s.spr.worn s.spr.spare s))

/-- The slowest domain with valid entries on a reed (R371). -/
def slowestDomain (s : State) (x : Reed) : Option Nat :=
  ((List.range 8).filter fun d => !(x.page.valid d (x.page.bankOf d)).isEmpty).foldl (fun best d =>
    match best with
    | some b => if (domOf s b).period < (domOf s d).period then some d else some b
    | none => some d) none

/-- The takeover conditions of R371: every context with a valid entry has ended its run, and the far stores have left. -/
def takeoverReady (x : Reed) : Bool :=
  x.stores.isEmpty && (activeCtxs x).all fun c => (x.ctxOf c).sched.phase != .started

/-- The binding of a logical reed changed. -/
def rebindReed (l p : Nat) (s : State) : State := { s with binding := Tab.set s.binding l (some p) }

/-- A reed that has been replaced: it dispatches nothing more (R371). -/
def wornReed (x : Reed) : Reed :=
  let y := stopCtxs (fun _ => true) x
  { y with page := { y.page with runOn := false } }

/-- The spare takes the worn reed's registers, contexts and flags; what the two parts of silicon measure stays with them
(R371). -/
def spareReed (worn spare : Reed) : Reed := { worn with pace := spare.pace, lateReads := spare.lateReads }

/-- Takeover (R371): the binding switches, and the worn reed is retired. -/
def takeover (s : State) : State :=
  let p := s.spr
  let x := reedOf s p.worn
  let s1 := setReed p.worn (wornReed x) (setReed p.spare (spareReed x (reedOf s p.spare)) (copyReed p.worn p.spare s))
  let s2 := retirePhysical p.worn (rebindReed p.now.lreed p.spare (setSpr { s1.spr with phase := .idle, tides := 0 } s1))
  irqSet 6 1 (fbRaise 0x0502 (sparePayload p.worn p.spare p.now.lreed p.now.urgent 0) s2)

/-- A tide boundary of domain d meets a migration in its shadow run (R371, R372). -/
def migrationBoundary (d : Nat) (ready : Bool) (s : State) : State :=
  if s.spr.phase = .shadow ∧ slowestDomain s (reedOf s s.spr.worn) = some d then
    if ready then takeover s else setSpr { s.spr with tides := s.spr.tides + 1 } s
  else s

/-- MIGRATION_ABANDON (R372): 64 tides have passed without a takeover. -/
def execMigrationAbandon (s : State) : Out3 :=
  if s.spr.phase = .shadow ∧ 64 ≤ s.spr.tides then .next (abandon s) else .next s

/-- MIGRATION_RETRY (R372): the retry delay of an abandoned migration has passed. -/
def execMigrationRetry (s : State) : Out3 :=
  match s.spr.retries with
  | q :: rest =>
    if q.notBefore ≤ now s then
      .next (setSpr { s.spr with retries := rest, queue := queueRetirement q s.spr.queue } s)
    else .next s
  | [] => .next s

/-- GO is written (R370, R384): a VACANT logical reed has nothing to retire. -/
def migGo (l : Nat) (force : Bool) (s : State) : State :=
  let s1 := setSpr { s.spr with migSel := l } s
  if (physOf s1 l).isSome then retireReed l false force s1 else s1

/-- MIG_GO (R370, R384). -/
def execMigGo (ag l : Nat) (s : State) : Out3 :=
  if 512 ≤ l then .refused .noSuchUnit else .next (atPage ag 0x6048 (migGo l false) s)

/-- MIG_GO_FORCE (R370, R384). -/
def execMigGoForce (ag l : Nat) (s : State) : Out3 :=
  if 512 ≤ l then .refused .noSuchUnit else .next (atPage ag 0x6048 (migGo l true) s)

/-! ### Hard failover (R375) -/

/-- A spare that takes over with its contexts lost: the RED page moves, RUN off until the reload. -/
def failoverReed (worn spare : Reed) : Reed :=
  { ctx := worn.ctx.map fun (e : Nat × Ctx) => (e.1, { page := { e.2.page with halted := false, skipping := false } })
    page := { worn.page with runOn := false }
    pace := spare.pace, lateReads := spare.lateReads, clock := spare.clock }

/-- Hard failover of a logical reed (R375). -/
def hardFailover (l worn : Nat) (s : State) : State :=
  let s0 := haltReed worn s
  let x := reedOf s worn
  let s1 := if s0.spr.migrates l then setSpr { s0.spr with phase := .idle, tides := 0 } s0 else s0
  match spareFor s1 worn with
  | none =>
    setSpr { s1.spr with stopped := insertNat l s1.spr.stopped }
      (irqSet 6 8 (fbRaise 0x0509 (BitVec.ofNat 64 l) (fbRaise 0x0505 (sparePayload worn worn l false 0) s1)))
  | some sp =>
    let s2 := setReed sp (failoverReed (reedOf s1 worn) (reedOf s1 sp)) s1
    let s3 := retirePhysical worn (rebindReed l sp s2)
    fbRaise 0x0505 (sparePayload worn sp l false 0)
      (setSpr { s3.spr with reload := Tab.set s3.spr.reload l x.page.runOn
                            queue := s3.spr.queue.filter (·.lreed != l), retries := s3.spr.retries.filter (·.lreed != l) } s3)

/-- HANDSHAKE_STALL (R368, R375): a dispatched context that waits on no token, far access or Q register completes no
handshake for 4,096 ticks. -/
def execHandshakeStall (r : Nat) (s : State) : Out3 :=
  if 544 ≤ r then .refused .noSuchUnit
  else
    let x := reedOf s r
    match logicalOf s r with
    | some l => if sparingState s && x.running.isSome && x.wait.isNone then .next (hardFailover l r s) else .next s
    | none => .next s

/-- No entry starts in the tides that run now; each starts at its domain's next boundary (R375). -/
def closeTides (x : Reed) : Reed := { x with progress := (List.range 8).map fun d => (d, { ended := 0xFF#8 }) }

/-- The images of a logical reed's contexts are loaded on the reed that carries it (R375). -/
def reloadImages (l r : Nat) (s : State) : State :=
  (List.range 8).foldl (fun t c => match s.spr.images.lookup (8 * l + c) with
    | some i => putImage i r c t
    | none => t) s

/-- FAILOVER_RELOAD_COMPLETE (R375): the contexts of a logical reed start at the next boundary. -/
def execFailoverReloadComplete (l : Nat) (s : State) : Out3 :=
  match s.spr.reload.lookup l, physOf s l with
  | some run, some r =>
    let s1 := reloadImages l r s
    let x := closeTides (reedOf s1 r)
    let s2 := setReed r { x with page := { x.page with runOn := run } } s1
    .next (irqSet 6 1 (setSpr { s2.spr with reload := s2.spr.reload.filter fun (e : Nat × Bool) => e.1 != l } s2))
  | _, _ => .next s

/-! ### Surveyors, engines and queue entries (R376 to R378) -/

/-- A Surveyor's stack is cleared, and what it had claimed fires once more (R376). -/
def dropClaims (n : Nat) (s : State) : State :=
  let e := Tab.get ({} : SvEvents) s.evr.sv n
  e.stack.foldl (fun t p => fireSource p.2 t) { s with evr := { s.evr with sv := Tab.set s.evr.sv n { e with stack := [] } } }

/-- SURVEYOR_WATCHDOG (R376, R10): logical Surveyor n is found unresponsive. -/
def execSurveyorWatchdog (n : Nat) (s : State) : Out3 :=
  if 6 ≤ n then .refused .noSuchUnit
  else if !s.sec.fw then .next s
  else
    let p := s.spr
    let failed := insertNat (p.survOf n) p.survFailed
    match p.survIdle with
    | k :: _ =>
      .next (fbRaise 0x0507 (BitVec.ofNat 64 (n + k * 2 ^ 4))
        (dropClaims n (setSpr { p with survMap := Tab.set p.survMap n k, survFailed := failed } s)))
    | [] => .next (trigger (.fault 1) (setSpr { p with survFailed := failed } s))

/-- Engine 32 takes over an SLC page (R195, R377). -/
def substituteEngine (b : Nat) (s : State) : State :=
  let s1 := setEngine b { engineOf s b with spareIn := true, serving := true } s
  let s2 := setEngine 32 { engineOf s1 32 with serving := true, bed := b } s1
  fbRaise 0x0506 (BitVec.ofNat 64 b) (setSpr { s2.spr with engineIdle := false } s2)

/-- ENGINE_SELFCHECK_FAIL (R368, R377, R10): the engine of page b fails its self-check; engine 32 takes over while it is
idle. -/
def execEngineSelfcheckFail (b : Nat) (s : State) : Out3 :=
  if 33 ≤ b then .refused .noSuchUnit
  else if b = 32 then
    .next (if s.spr.engineIdle then setSpr { s.spr with engineIdle := false } s
      else trigger (.fault 5) (setEngine (engineOf s 32).bed { engineOf s (engineOf s 32).bed with serving := false } s))
  else if s.spr.engineIdle then .next (substituteEngine b s)
  else .next (trigger (.fault 5) (setEngine b { engineOf s b with serving := false } s))

/-- QUEUE_TABLE_UE (R265, R378): an entry of the queue table is lost; `macro` and `row` name the SRAM row. -/
def execQueueTableUe (macroNo row : Nat) (s : State) : Out3 :=
  if s.qmg.sparesUsed < 512 then
    .next (fbRaise 0x0508 (BitVec.ofNat 64 (macroNo % 2 ^ 16 + row % 2 ^ 9 * 2 ^ 16))
      { s with qmg := { s.qmg with sparesUsed := s.qmg.sparesUsed + 1 } })
  else .next (trigger (.fault 3) s)

/-! ### Test procedures (R380, R385) -/

/-- The TST page changed. -/
def setTst (x : Tst) (s : State) : State := { s with tst := x }

/-- Streams of an engine are at work. -/
def Engine.busy (e : Engine) : Bool := e.streams.any fun x => x.2.st != .idle

/-- A test procedure may run on its target (R380). -/
def procAllowed (s : State) (proc target : Nat) : Bool :=
  let inTest := s.glb.state == .test
  let inService := s.glb.state == .service
  s.glb.target.isNone && s.tst.running.isNone &&
  (match proc with
    | 1 => decide (target < 544) &&
        ((inTest && (activeCtxs (reedOf s target)).isEmpty) || ((inTest || inService) && idleSpare s target))
    | 2 => inTest && decide (target < 32) && (bedOf s target).slots.all fun t => !t.2.en
    | 3 => (inTest || inService) && s.spr.survIdle.contains target
    | 4 => (inTest && decide (target < 33) && !(engineOf s target).busy) ||
        ((inTest || inService) && target == 32 && s.spr.engineIdle)
    | 5 => inTest && decide (target < 544) && (activeCtxs (reedOf s target)).isEmpty
    | _ => false)

/-- PSEL is written with RUN = 1 (R380, R385). -/
def testRun (ag : Nat) (v : W32) (s : State) : State :=
  let t : Tst := { s.tst with proc := fld v 16 8, target := fld v 0 10 }
  if procAllowed s t.proc t.target then
    setTst { t with running := some (t.proc, t.target), done := false, fail := false, first := 0 } s
  else refuseReg 5 ag 0x7040 (setTst { t with refused := true } s)

/-- TEST_PROC_RUN (R380, R385). -/
def execTestProcRun (ag : Nat) (v : W32) (s : State) : Out3 := .next (atPage ag 0x7040 (testRun ag v) s)

/-- Words and marks of a range of canonical words cleared to 0 with valid codes (R48, R380). -/
def clearWords (lo n : Nat) (s : State) : State :=
  { s with mem := s.mem.filter fun (c : Host.Cell) => !(decide (2 * lo ≤ c.1) && decide (c.1 < 2 * (lo + n)))
           bad := s.bad.filter fun (c : Nat × Nat) => !(decide (lo ≤ c.1) && decide (c.1 < lo + n)) }

/-- What a procedure leaves in the unit it tested (R380). -/
def procContents (proc target : Nat) (s : State) : State :=
  match proc with
  | 1 => clearWords (reedBase target) 0x40000 s
  | 2 => clearWords (poolBase target) 0x200000 s
  | 4 =>
    let e := engineOf s target
    setEngine target { e with streams := e.streams.map fun (x : Nat × Stream) => (x.1, { x.2 with st := .idle }) } s
  | _ => s

/-- A spare that fails its test is retired (R380). -/
def procFailed (proc target : Nat) (s : State) : State :=
  match proc with
  | 1 => if idleSpare s target then retirePhysical target s else s
  | 3 => setSpr { s.spr with survFailed := insertNat target s.spr.survFailed } s
  | 4 => if target = 32 then setSpr { s.spr with engineIdle := false } s else s
  | _ => s

/-- The end of a procedure as the Field Book and the Event Router see it (R383, R421). -/
def procEnd (proc : Nat) (target : Nat) (fail : Bool) (first : Nat) (s : State) : State :=
  let s1 := if fail then procFailed proc target (procContents proc target s) else procContents proc target s
  fireSource 6 (fbRaise 0x0E01 (BitVec.ofNat 64 (proc + fail.toNat * 2 ^ 8 + first % 2 ^ 16 * 2 ^ 16)) s1)

/-- TEST_PROC_END (R380, R383, R385): the procedure that runs ends, with the first failing unit where one failed. -/
def execTestProcEnd (first : Option Nat) (s : State) : Out3 :=
  match s.tst.running with
  | some (proc, target) =>
    .next (procEnd proc target first.isSome (first.getD 0)
      (setTst { s.tst with running := none, done := true, fail := first.isSome, first := first.getD 0 % 2 ^ 16 } s))
  | none => .next s

/-- SPARE_BIST_PERIODIC (R380): firmware tests every idle spare reed and engine 32; `reeds` names the spares that fail. -/
def execSpareBistPeriodic (reeds : List Nat) (engineFails : Bool) (s : State) : Out3 :=
  if !s.sec.fw || s.glb.target.isSome || !(s.glb.state == .service || s.glb.state == .test) then .next s
  else
    let idle := (idleSpares s).filter fun p =>
      !((s.spr.phase == .copy || s.spr.phase == .shadow) && s.spr.spare == p)
    let s1 := idle.foldl (fun t p => procEnd 1 p (reeds.contains p) 0 t) s
    .next (if s1.spr.engineIdle then procEnd 4 32 engineFails 0 s1 else s1)

/-! ### HBM loop-backs (R382) -/

/-- HBM.LOOP_CTRL of a pseudo-channel is written (R382). -/
def writeHbmLoop (ag p : Nat) (v : W32) (s : State) : State :=
  let x := hbmPageOf s p
  let off := 0x200028 + 0x1000 * p
  if fld v 0 2 = 0 then setHbmPage p { x with loop := loopOff x.loop v 0xFF00#32 } s
  else if s.glb.state ≠ .test then refuseReg 4 ag off s
  else setHbmPage p { x with loop := v &&& 0xFF03#32, loopEnd := now s + max 1 (fld v 8 8) * 2 ^ 20 } s

/-- HBM_LOOPBACK_START (R382). -/
def execHbmLoopbackStart (ag p : Nat) (v : W32) (s : State) : Out3 :=
  if 64 ≤ p then .refused .noSuchUnit else .next (atPage ag (0x200028 + 0x1000 * p) (writeHbmLoop ag p v) s)

/-- A pseudo-channel is left at 0 with valid codes (R382). -/
def clearChannel (p : Nat) (s : State) : State :=
  let mine (w : Nat) : Bool := decide (hbmBase ≤ w) && hbmPc (w - hbmBase) == p
  { s with mem := s.mem.filter fun (c : Host.Cell) => !mine (c.1 / 2)
           bad := s.bad.filter fun (c : Nat × Nat) => !mine c.1 }

/-- HBM_LOOPBACK_END (R382): the failing bursts or rows of depths 1 and 2 once their duration has passed, and of depth 3. -/
def execHbmLoopbackEnd (p errs : Nat) (formed : Bool) (s : State) : Out3 :=
  if 64 ≤ p then .refused .noSuchUnit
  else
    let x := hbmPageOf s p
    let d := fld x.loop 0 2
    if d = 0 ∨ (d < 3 ∧ now s < x.loopEnd) then .next s
    else
      let s1 := if d = 3 then clearChannel p s else s
      .next (setHbmPage p { x with loop := loopDone x.loop errs formed } s1)

end Sys2Proof.Machine
end

