-- ==== Sys2Proof/Machine/Power.lean ====
section
/-! DEFINITION. Sys2Proof/Machine/Power.lean: the PWR loops, thermal and rail monitors, and the Meridian's reference (R32,
R33, R395 to R398, R402, R404, R408). -/

namespace Sys2Proof.Machine

/-- The PWR page changed. -/
def setPwr (x : Pwr) (s : State) : State := { s with pwr := x }
/-- The MER page changed. -/
def setMer (x : Mer) (s : State) : State := { s with mer := x }

/-- VDD_CORE at 0.62 V, in units of 0.5 mV (R32, R402). -/
def vddMin : Nat := 1240
/-- VDD_CORE at 0.85 V. -/
def vddMax : Nat := 1700

/-- A physical reed is a healthy working reed (R32): it carries a logical reed that R369 has not stopped. -/
def healthyReed (s : State) (r : Nat) : Bool :=
  match logicalOf s r with
  | some l => !s.spr.stopped.contains l
  | none => false

/-! ### The pace loops (R32) -/

/-- Payload of 0x0302 and 0x0401 (R395). -/
def powerPayload (p : Pwr) : W64 := BitVec.ofNat 64 (p.now + p.effective * 2 ^ 16)

/-- The regular adjustment for a minimum pace (R32). -/
def Pwr.adjust (p : Pwr) (r pace : Nat) : Pwr :=
  let q := { p with minPhys := r, minPace := min pace 0xFFFF, loopNext := p.loopNext + 4096 }
  if pace < p.effective then { q with vdd := min vddMax (p.vdd + 5), tgtUnmet := decide (vddMax ≤ p.vdd) }
  else { q with vdd := if p.effective * 103 < pace * 100 then max vddMin (p.vdd - 5) else p.vdd, tgtUnmet := false }

/-- PACE_LOOP_ADJUST (R32, R395): 4,096 ticks have passed, and `r` is the healthy working reed with the lowest pace. -/
def execPaceLoopAdjust (r pace : Nat) (s : State) : Out3 :=
  if 544 ≤ r then .refused .noSuchUnit
  else if s.glb.state = .off ∨ now s < s.pwr.loopNext ∨ !healthyReed s r then .next s
  else
    let p := s.pwr.adjust r pace
    let s1 := setPwr p s
    .next (if p.tgtUnmet && !s.pwr.tgtUnmet then irqSet 2 1 (fbRaise 0x0401 (powerPayload p) s1) else s1)

/-- A fast raise, or its end (R32). -/
def Pwr.raise (p : Pwr) (tick pace : Nat) : Pwr :=
  if pace < 1530 then { p with vdd := min vddMax (p.vdd + 20), fastRaise := decide (p.vdd + 20 < vddMax), fastNext := tick + 256 }
  else { p with fastRaise := false }

/-- FAST_RAISE (R32, R368): the lowest monitored pace of the healthy working reeds, that of `r`, at most every 256 ticks; at 0.85 V it is retired
as urgent. -/
def execFastRaise (r pace : Nat) (s : State) : Out3 :=
  if 544 ≤ r then .refused .noSuchUnit
  else if s.glb.state = .off ∨ now s < s.pwr.fastNext ∨ !healthyReed s r then .next s
  else
    let s1 := setPwr (s.pwr.raise (now s) pace) s
    if pace < 1530 ∧ vddMax ≤ s.pwr.vdd then
      let s2 := condemn r true s1
      .next (if s2.spr = s1.spr then s2 else fbRaise 0x0402 (payload r pace) s2)
    else .next s1

/-- PACE_TGT is written: the value is clamped, and a target that is not lowered follows it (R32, R33). -/
def writePaceTgt (v : W32) (s : State) : State :=
  let t := min 2400 (max 1500 (fld v 0 12))
  let p := s.pwr
  setPwr { p with target := t, effective := if p.effective = p.target then t else min p.effective t } s

/-! ### The package power limit (R33) -/

/-- A window's power meets the limit (R33; log entry 29: 1 % of the target is rounded down). -/
def Pwr.window (p : Pwr) (power : Nat) : Pwr :=
  let n := min power 0xFFFF
  let q := { p with now := n, peak := max p.peak n, winNext := p.winNext + 1048576 }
  if p.limit < power then
    { q with effective := max 1500 (p.effective - p.target / 100), plimUnmet := decide (p.effective ≤ 1500) }
  else if power * 100 ≤ p.limit * 95 then
    { q with effective := min p.target (p.effective + p.target / 100), plimUnmet := false }
  else { q with plimUnmet := false }

/-- PKG_POWER_WINDOW (R33, R395): a window of 1,048,576 ticks ends with a package power in units of 0.25 W. -/
def execPkgPowerWindow (power : Nat) (s : State) : Out3 :=
  if s.glb.state = .off ∨ now s < s.pwr.winNext then .next s
  else
    let p := s.pwr.window power
    let s1 := setPwr p s
    let s2 := if p.plimUnmet then fbRaise 0x0302 (powerPayload p) s1 else s1
    .next (if p.plimUnmet && !s.pwr.plimUnmet then irqSet 2 2 s2 else s2)

/-- What a read of PWR.PKG_POWER returns, and the state after it (R387). -/
def takePkgPower (t : State) : W32 × State :=
  (BitVec.ofNat 32 (t.pwr.peak * 2 ^ 16 + t.pwr.now), setPwr { t.pwr with peak := 0 } t)

/-- PKG_POWER_READ (R395): PEAK is returned and cleared. -/
def execPkgPowerRead (ag : Nat) (s : State) : Out3 :=
  .next (readPage ag 0x204C takePkgPower s)

/-! ### Temperature and rails (R395, R404, R408) -/

/-- A record that carries the sheet in payload bits [63:48]. -/
def sheetPayload (s : State) (v : Nat) : W64 := payload s.glb.sheet v

/-- A temperature as eight bits of two's complement. -/
def tempByte (t : Int) : Nat := (wrap 8 t).toNat

/-- THERMAL_WARNING (R395): the hottest junction sensor shows a temperature. -/
def execThermalWarning (tj : Int) (s : State) : Out3 :=
  if s.glb.state = .off then .next s
  else
    let hot := decide ((s.pwr.twarn : Int) ≤ tj)
    let s1 := setPwr { s.pwr with tj := tj, therm := hot } s
    let s2 := if hot && !s.pwr.therm then irqSet 2 4 s1 else s1
    .next (if 105 < tj then fbRaise 0x0303 (BitVec.ofNat 64 (tempByte tj)) s2 else s2)

/-- THERMTRIP (R408): a sensor shows a temperature of 120 °C or more. -/
def execThermtrip (t : Int) (s : State) : Out3 :=
  if s.glb.state = .off ∨ t < 120 then .next s
  else .next (fbRaise 0x0305 (sheetPayload s (tempByte t)) (setPwr { s.pwr with thermtrip := true } s))

/-- RAIL_EXCURSION (R404): a rail of R401 has stayed outside its limits for 1 µs. -/
def execRailExcursion (rail : Nat) (s : State) : Out3 :=
  if 10 ≤ rail then .refused .noSuchUnit
  else if s.glb.state = .off then .next s
  else .next (fbRaise 0x0304 (sheetPayload s rail) s)

/-! ### The Meridian's reference (R396, R397, R399) -/

/-- FAMILY and REF are a valid pair (R396). -/
def validRef (v : W32) : Bool :=
  let family := fld v 0 1
  let ref := fld v 1 2
  ref == family || ref == 2

/-- A domain is active (R18). -/
def anyActive (s : State) : Bool := s.mer.doms.any fun d => d.2.active

/-- MER.CFG is written (R396). -/
def writeMerCfg (ag : Nat) (v : W32) (s : State) : State :=
  if anyActive s then refuseReg 4 ag 0x3040 s
  else if !validRef v then refuseReg 5 ag 0x3040 s
  else setMer { s.mer with cfg := v &&& 0x7F#32, refLock := false, lost := false } s

/-- MER_CFG_WRITE (R396). -/
def execMerCfgWrite (ag : Nat) (v : W32) (s : State) : Out3 := .next (atPage ag 0x3040 (writeMerCfg ag v) s)

/-- Payload of 0x0820 and 0x0821 (R397). -/
def refPayload (s : State) : W64 := sheetPayload s (fld s.mer.cfg 1 2)

/-- REF_LOCK (R396): the tick locks to the reference. -/
def execRefLock (s : State) : Out3 :=
  if s.glb.state = .off ∨ s.mer.lost then .next s else .next (setMer { s.mer with refLock := true } s)

/-- REF_LOSS (R397, R416): the reference shows no edge for its window. -/
def execRefLoss (s : State) : Out3 :=
  if s.glb.state = .off ∨ s.mer.lost then .next s
  else .next (irqSet 3 2 (fbRaise 0x0820 (refPayload s) (setMer { s.mer with refLock := false, refLoss := true, lost := true } s)))

/-- REF_RETURN (R397): the reference returns, and the Meridian locks to it again. -/
def execRefReturn (s : State) : Out3 :=
  if s.glb.state = .off ∨ !s.mer.lost then .next s
  else .next (irqSet 3 4 (fbRaise 0x0821 (refPayload s) (setMer { s.mer with refLock := true, lost := false } s)))

/-- PPS_CAPTURE (R399): the synchroniser shows a rising PPS edge. -/
def execPpsCapture (s : State) : Out3 :=
  if s.glb.state = .off then .next s else .next (irqSet 3 8 (setMer { s.mer with ppsAt := now s, pps := true } s))

/-- The word clock output (R399): high for floor(PINT ÷ 2) ticks from each tide boundary of WCODOM. -/
def wordClock (s : State) : Bool :=
  let d := domOf s (fld s.mer.cfg 4 3)
  bitOf s.mer.cfg 3 && d.active && d.begun && decide (now s < d.tideTick d.tide + d.pint / 2)

end Sys2Proof.Machine
end

