-- ==== Sys2Proof/Machine/Bed.lean ====
section
/-! DEFINITION. Sys2Proof/Machine/Bed.lean: commands of the BED and HBM pages and of HBM: token slot configuration, patrol
scrubs, refresh, snoop answers, page retirement, and the registers that a read clears (R171 to R194). -/

namespace Sys2Proof.Machine

/-- The BAR0 byte offset of a register of a BED page (R392). -/
def bedOff (b o : Nat) : Nat := 0x400000 + 0x1000 * b + o
/-- The BAR0 byte offset of a register of an HBM page (R392). -/
def hbmOff (p o : Nat) : Nat := 0x200000 + 0x1000 * p + o

/-! ### Token slots (R174) -/

/-- TS_CFG is written for the slot that TS_SEL names: at once, or for the next boundary of the slot's present domain
(R174). -/
def writeTsCfg (b : Nat) (v : W32) (s : State) : State :=
  let i := (bedOf s b).sel
  let t := tokenSlot s b i
  let w := v &&& 0xFFFFC000#32
  setTokenSlot b i (if t.en then { t with next := some w } else { t with cfg := w }) s

/-- TS_CFG_WRITE (R174). -/
def execTsCfgWrite (ag b : Nat) (v : W32) (s : State) : Out3 :=
  if 32 ≤ b then .refused .noSuchUnit else .next (atPage ag (bedOff b 0x48) (writeTsCfg b v) s)

/-- A token slot at a boundary of its domain: EMPTY, with a configuration that waited (R174, R175). -/
def TokenSlot.atTide (d : Nat) (t : TokenSlot) : TokenSlot :=
  if t.en ∧ t.dom = d then { t with full := false, cfg := t.next.getD t.cfg, next := none } else t

/-- Every pool takes a boundary of domain d (R175). -/
def poolBoundary (d : Nat) (s : State) : State :=
  { s with beds := s.beds.map fun (e : Nat × Bed) =>
      (e.1, { e.2 with slots := e.2.slots.map fun (t : Nat × TokenSlot) => (t.1, t.2.atTide d) }) }

/-! ### Patrol scrubs (R171, R183, R193, R194) -/

/-- The device state keeps pools and HBM pages at work. -/
def scrubState (s : State) : Bool := s.glb.state != .off && s.glb.state != .dormant

/-- A scrub pass has come due: EN, and PERIOD units of `unit` ticks since the last one. -/
def scrubDue (s : State) (cfg : W32) (last unit : Nat) : Bool :=
  scrubState s && bitOf cfg 31 && decide (last + max 1 (fld cfg 0 16) * unit ≤ now s)

/-- The units of a range of canonical words that hold an uncorrectable error, as pool or HBM places. -/
def badPlaces (s : State) (p : Nat → Option Place) : List Place :=
  (s.bad.filter fun (e : Nat × Nat) => e.2 != 0).filterMap fun (e : Nat × Nat) => p e.1

/-- POOL_SCRUB (R193): a full pass over a bed's pool ends, with `ce` errors corrected. -/
def execPoolScrub (b ce : Nat) (s : State) : Out3 :=
  if 32 ≤ b then .refused .noSuchUnit
  else
    let x := bedOf s b
    if !scrubDue s x.scrub x.scrubbed (2 ^ 20) then .next s
    else
      let mine (w : Nat) : Option Place :=
        if poolBase b ≤ w ∧ w < poolBase b + 0x200000 then some (.pool b (w - poolBase b)) else none
      .next ((badPlaces s mine).foldl (fun t pl => noteUe pl t)
        (setBed b { x with ce := min 0xFFFF (x.ce + ce), scrubbed := now s } s))

/-- HBM_SCRUB (R183, R194): a full pass over a pseudo-channel ends, with `ce` errors corrected. -/
def execHbmScrub (p ce : Nat) (s : State) : Out3 :=
  if 64 ≤ p then .refused .noSuchUnit
  else
    let x := hbmPageOf s p
    if !scrubDue s x.scrub x.scrubbed (2 ^ 30) then .next s
    else
      let mine (w : Nat) : Option Place :=
        if hbmBase ≤ w ∧ hbmPc (w - hbmBase) = p then some (.hbm (w - hbmBase)) else none
      .next ((badPlaces s mine).foldl (fun t pl => noteUe pl t)
        (setHbmPage p { x with ce := min 0xFFFFFFFF (x.ce + ce), scrubbed := now s } s))

/-! ### Refresh (R184) -/

/-- PC_STAT.REFRATE for a stack temperature (R184). -/
def refreshRate (temp : Nat) : Nat := if temp ≤ 85 then 0 else if temp ≤ 95 then 1 else 2

/-- Every pseudo-channel of a stack changed. -/
def mapStack (k : Nat) (f : HbmPage → HbmPage) (s : State) : State :=
  (List.range 32).foldl (fun t i => setHbmPage (32 * k + i) (f (hbmPageOf t (32 * k + i))) t) s

/-- A stack's temperature is found (R184): a higher rate is recorded as it is entered, and 4× raises the stack's event. -/
def refresh (k temp : Nat) (s : State) : State :=
  let old := (hbmPageOf s (32 * k)).refRate
  let rate := refreshRate temp
  let s1 := mapStack k (fun x => { x with temp := min temp 255, refRate := rate }) s
  if old < rate then
    let s2 := fbRaise 0x0310 (payload (32 * k) rate) s1
    if rate = 2 then fireSource (0x500 + 32 * k) s2 else s2
  else s1

/-- REFRESH_RATE_RAISED (R184). -/
def execRefreshRateRaised (stack temp : Nat) (s : State) : Out3 :=
  if 2 ≤ stack then .refused .noSuchUnit else if s.glb.state = .off then .next s else .next (refresh stack temp s)

/-- SELF_REFRESH_ENTRY (R184): 1 ms has passed in Dormant with no request. -/
def execSelfRefreshEntry (s : State) : Out3 :=
  if s.glb.state = .dormant ∧ s.hbm.lastUse + tickHz s / 1000 ≤ now s then
    .next (mapStack 1 (fun x => { x with selfRef := true }) (mapStack 0 (fun x => { x with selfRef := true }) s))
  else .next s

/-! ### Back-invalidate snoops (R187) -/

/-- The words of a line that bytes name, by canonical byte address; of two bytes at one address the later counts. -/
def lineStore (line : Nat) (bytes : List (Nat × Byte)) : List PlacedWord :=
  let rb := bytes.reverse
  (List.range 32).filterMap fun k =>
    let w := hbmBase + 32 * line + k
    let lo := rb.lookup (2 * w)
    let hi := rb.lookup (2 * w + 1)
    if lo.isNone && hi.isNone then none
    else some (.hbm (32 * line + k),
      { addr := w, value := (hi.getD 0 ++ lo.getD 0 : BitVec 16), lo := lo.isSome, hi := hi.isSome })

/-- A line's snoop is answered: the host's dirty data are written, then each write that waited, oldest first (R187). -/
def snoopAnswer (line : Nat) (dirty : Option (List Byte)) (s : State) : State :=
  let mine := s.hbm.snoops.filter (·.line == line)
  let s1 : State := { s with hbm := { s.hbm with snoops := s.hbm.snoops.filter (·.line != line) } }
  let s2 := match dirty with
    | some bs => writePlaced (lineStore line ((bs.take 64).zipIdx.map fun p => (2 * (hbmBase + 32 * line) + p.2, p.1))) s1
    | none => s1
  serveWaiting line (mine.foldl (fun t w => writePlaced (lineStore line w.bytes) t) s2)

/-- BISNP_RESPONSE (R187): the host answers the snoop of an HBM line, with its dirty data where it had any. -/
def execBisnpResponse (line : Nat) (dirty : Option (List Byte)) (s : State) : Out3 :=
  if s.hbm.snoops.any (·.line == line) then .next (snoopAnswer line dirty s) else .next s

/-! ### Page retirement (R189, R368) -/

/-- HBM_ECC_WINDOW (R368): a window of 2^30 ticks ends with the errors corrected in a 2 MiB page. -/
def execHbmEccWindow (page ce : Nat) (s : State) : Out3 :=
  if 65536 ≤ page then .refused .noSuchUnit
  else if scrubState s && decide (4 * s.spr.hbmCe ≤ ce) then .next (retirePage page s)
  else .next s

/-- PAGE_REBACK (R189): the copy of a retired page ends. -/
def execPageReback (page : Nat) (s : State) : Out3 :=
  if 65536 ≤ page then .refused .noSuchUnit
  else match backOf s page with
    | .copying r =>
      .next (fbRaise 0x0621 (payload page r) { s with hbm := { s.hbm with back := Tab.set s.hbm.back page (.backed r) } })
    | _ => .next s

/-! ### Registers that a read clears (R36, R62, R193, R194) -/

/-- What a read of BED.TOK_CNT returns, and the state after it (R387). -/
def takeTokCnt (b : Nat) (t : State) : W32 × State :=
  let x := bedOf t b
  (BitVec.ofNat 32 (x.late * 2 ^ 16 + x.dbl), setBed b { x with late := 0, dbl := 0 } t)

/-- TOK_CNT_READ (R193). -/
def execTokCntRead (ag b : Nat) (s : State) : Out3 :=
  if 32 ≤ b then .refused .noSuchUnit
  else .next (readPage ag (bedOff b 0x50) (takeTokCnt b) s)

/-- What a read of BED.POOL_ECC returns, and the state after it (R387). -/
def takePoolEcc (b : Nat) (t : State) : W32 × State :=
  let x := bedOf t b
  (BitVec.ofNat 32 (x.ce * 2 ^ 16 + x.ue), setBed b { x with ce := 0, ue := 0 } t)

/-- POOL_ECC_READ (R193). -/
def execPoolEccRead (ag b : Nat) (s : State) : Out3 :=
  if 32 ≤ b then .refused .noSuchUnit
  else .next (readPage ag (bedOff b 0x54) (takePoolEcc b) s)

/-- What a read of HBM.ECC_CE returns, and the state after it (R387). -/
def takeHbmEccCe (p : Nat) (t : State) : W32 × State :=
  let x := hbmPageOf t p
  (BitVec.ofNat 32 x.ce, setHbmPage p { x with ce := 0 } t)

/-- HBM_ECC_CE_READ (R194). -/
def execHbmEccCeRead (ag p : Nat) (s : State) : Out3 :=
  if 64 ≤ p then .refused .noSuchUnit
  else .next (readPage ag (hbmOff p 0x44) (takeHbmEccCe p) s)

/-- What a read of HBM.ECC_UE returns, and the state after it (R387). -/
def takeHbmEccUe (p : Nat) (t : State) : W32 × State :=
  let x := hbmPageOf t p
  (BitVec.ofNat 32 x.ue, setHbmPage p { x with ue := 0 } t)

/-- HBM_ECC_UE_READ (R194). -/
def execHbmEccUeRead (ag p : Nat) (s : State) : Out3 :=
  if 64 ≤ p then .refused .noSuchUnit
  else .next (readPage ag (hbmOff p 0x48) (takeHbmEccUe p) s)

/-- What a read of HBM.SF_STAT returns, and the state after it (R387). -/
def takeSfStat (p : Nat) (t : State) : W32 × State :=
  let x := hbmPageOf t p
  (BitVec.ofNat 32 x.bisnp, setHbmPage p { x with bisnp := 0 } t)

/-- SF_STAT_READ (R194). -/
def execSfStatRead (ag p : Nat) (s : State) : Out3 :=
  if 64 ≤ p then .refused .noSuchUnit
  else .next (readPage ag (hbmOff p 0x54) (takeSfStat p) s)

/-- CTXn_OVR as it reads (R36). -/
def CtxPage.ovr (p : CtxPage) : W32 :=
  BitVec.ofNat 32 (p.halted.toNat * 2 ^ 19 + p.skipping.toNat * 2 ^ 18 + p.ovrCause * 2 ^ 16 + p.ovrCount)

/-- What a read of RED.CTXn_OVR returns, and the state after it (R387). -/
def takeOvrCount (r n : Nat) (t : State) : W32 × State :=
  let x := reedOf t r
  let k := x.ctxOf n
  (k.page.ovr, setReed r (x.setCtx n { k with page := { k.page with ovrCount := 0 } }) t)

/-- OVR_COUNT_READ (R36). -/
def execOvrCountRead (ag r n : Nat) (s : State) : Out3 :=
  if 544 ≤ r ∨ 8 ≤ n then .refused .noSuchUnit
  else .next (readPage ag (redOff r (0x480 + 4 * n)) (takeOvrCount r n) s)

/-- What a read of RED.FAR_STAT returns, and the state after it (R387). -/
def takeFarLate (r : Nat) (t : State) : W32 × State :=
  let x := reedOf t r
  (BitVec.ofNat 32 (x.page.werr.toNat * 2 ^ 16 + x.page.late), setReed r { x with page := { x.page with late := 0 } } t)

/-- FAR_LATE_READ (R62). -/
def execFarLateRead (ag r : Nat) (s : State) : Out3 :=
  if 544 ≤ r then .refused .noSuchUnit
  else .next (readPage ag (redOff r 0xE4) (takeFarLate r) s)

end Sys2Proof.Machine
end

