-- ==== Sys2Proof/Machine/Boundary.lean ====
section
/-! DEFINITION. Sys2Proof/Machine/Boundary.lean: domains starting and stopping, and what the device does at a tide boundary
(R16 to R19, R399, R419). -/

namespace Sys2Proof.Machine

/-! ### Start and stop (R16 to R19, R399) -/

/-- The least and the greatest period of a domain, in ticks (R16). -/
def periodBounds (s : State) : Nat × Nat := if bitOf s.mer.cfg 0 then (1176, 3612672) else (1280, 3932160)

/-- The period lies in the range of R16. -/
def periodOk (s : State) (d : Domain) : Bool :=
  decide ((periodBounds s).1 * 65536 ≤ d.period) && decide (d.period ≤ (periodBounds s).2 * 65536)

/-- What stops with a domain (R19). -/
def stopBlocks (d : Nat) (s : State) : State := sluiceDomainStop d (mapAsp (Asp.domainStop d) s)

/-- A domain stops being active. -/
def stopDomain (d : Nat) (s : State) : State :=
  stopBlocks d (setDom d { domOf s d with active := false, clearing := false, begun := false } s)

/-- A domain becomes active at tick `u`: its first tide begins at S, or 1,024 ticks on where S has passed (R17, R399). -/
def startDomain (d u : Nat) (s : State) : State :=
  let x := domOf s d
  let late := decide (x.start < u)
  let s1 := setDom d { x with active := true, clearing := false, begun := false, tide := 0
                              first := if late then u + 1024 else x.start } s
  let s2 := mapAsp (Asp.domainStart d u) s1
  if late then irqSet 3 1 (setMer { s2.mer with lateStart := true } s2) else s2

/-- One bit of TD_EN applies at tick `u` (R16 to R18, R399). -/
def applyEn (ag u : Nat) (v : W32) (s : State) (d : Nat) : State :=
  let x := domOf s d
  if bitOf v d then
    if x.active then setDom d { x with clearing := false } s
    else if periodOk s x then startDomain d u s
    else refuseReg 5 ag 0x304C s
  else if x.active then
    if x.begun then setDom d { x with clearing := true, clearFrom := u } s else stopDomain d s
  else s

/-- TD_EN is written: it applies at the first tick after it arrives (R399). -/
def writeTdEn (ag : Nat) (v : W32) (s : State) : State :=
  (List.range 8).foldl (applyEn ag (now s + 1) v) (setMer { s.mer with en := v.setWidth 8 } s)

/-- TD_EN_WRITE (R399). -/
def execTdEnWrite (ag : Nat) (v : W32) (s : State) : Out3 := .next (atPage ag 0x304C (writeTdEn ag v) s)

/-! ### Boundaries (R419) -/

/-- Domain `a` takes its boundary before domain `b`: by tick, then by period, then by number (R419). -/
def earlier (s : State) (a b : Nat) : Bool :=
  let x := domOf s a
  let y := domOf s b
  decide (x.nextTick < y.nextTick) ||
    (x.nextTick == y.nextTick && (decide (x.period < y.period) || (x.period == y.period && decide (a < b))))

/-- The domain whose boundary comes next, among those whose boundary tick has been reached. -/
def nextBoundary (s : State) : Option Nat :=
  ((List.range 8).filter fun d => (domOf s d).active && decide ((domOf s d).nextTick ≤ now s)).foldl (fun best d =>
    match best with
    | some b => if earlier s d b then some d else some b
    | none => some d) none

/-- The reeds in order of number. -/
def reedNumbers (s : State) : List Nat := s.reeds.map fun (e : Nat × Reed) => e.1
/-- The audio ports in order of number. -/
def aspNumbers (s : State) : List Nat := s.asp.map fun (e : Nat × Asp) => e.1
/-- The sensor ports in order of number. -/
def sspNumbers (s : State) : List Nat := s.ssp.map fun (e : Nat × Ssp) => e.1

/-- The tide that ends: overruns on every reed, and slips of slave ports (R28, R29, R228). -/
def closeTide (d : Nat) (s : State) : State :=
  (aspNumbers s).foldl (fun t n => aspEndTide d n t) ((reedNumbers s).foldl (fun t r => endTide r d t) s)

/-- The next tide of a domain, or its first (R17). -/
def Domain.advance (x : Domain) : Domain := if x.begun then { x with tide := x.tide + 1 } else { x with begun := true }

/-- The tide that begins: pools, then reeds, streams, sensor ports and buses (R22, R175, R204, R244, R317, R328). -/
def openTide (d : Nat) (s : State) : State :=
  let s1 := poolBoundary d (setDom d (domOf s d).advance s)
  let s2 := (reedNumbers s1).foldl (fun t r => newTide r d t) s1
  let s3 := sluiceBoundary d s2
  let s4 := (sspNumbers s3).foldl (fun t n => sspFlag d n t) s3
  busSubstitution d (applyBusCommits d s4)

/-- Bundles held at a boundary are tried again: what they wait for may have gone (R176, R178). -/
def retryHeld (s : State) : State :=
  (reedNumbers s).foldl (fun t r => if (reedOf t r).wait = some .held then tryIssue r t else t) s

/-- A boundary of domain d: the clear of R17 ends the domain, else its next tide begins. -/
def tideBoundary (d : Nat) (s : State) : State :=
  let x := domOf s d
  let s1 := if x.begun then closeTide d s else s
  if x.clearing ∧ x.clearFrom ≤ x.nextTick then stopDomain d s1
  else retryHeld (migrationBoundary d (takeoverReady (reedOf s1 s1.spr.worn)) (openTide d s1))

/-- TIDE_BOUNDARY (R419): the next boundary whose tick has been reached is taken. -/
def execTideBoundary (s : State) : Out3 :=
  match nextBoundary s with
  | some d => .next (tideBoundary d s)
  | none => .next s

/-- One tick of the Meridian: the tide counter and the wall time go on, in every state but Off (R13, R15, R358, R403; log
entry 3). -/
def idleTick (s : State) : State :=
  if s.glb.state = .off then s
  else { s with mer := { s.mer with ticks := s.mer.ticks + 1 }, fbk := Fbk.tick (tickHz s) s.fbk }

end Sys2Proof.Machine
end

