-- ==== Sys2Proof/Machine/PageRead.lean ====
section
/-! DEFINITION. Sys2Proof/Machine/PageRead.lean: the register pages as they read: the directory, the page header and every
block's registers (R386 to R400, R421, and the register rules of each chapter). -/

namespace Sys2Proof.Machine

/-! ### The directory (R392) -/

/-- The blocks, in the order of the directory. -/
inductive Blk where
  | glb | pwr | mer | fbk | sec | spr | tst | evr | qmg | tcu | asp | ssp | cwl | atl | hbm | slc | bed | red
deriving DecidableEq, Repr

/-- The directory's rows: block, code, first BAR0 page and number of pages. -/
def directory : List (Blk × Nat × Nat × Nat) :=
  [(.glb, 0x01, 0x1, 1), (.pwr, 0x02, 0x2, 1), (.mer, 0x03, 0x3, 1), (.fbk, 0x04, 0x4, 1), (.sec, 0x05, 0x5, 1),
   (.spr, 0x06, 0x6, 1), (.tst, 0x07, 0x7, 1), (.evr, 0x08, 0x10, 16), (.qmg, 0x09, 0x20, 16), (.tcu, 0x0A, 0x30, 8),
   (.asp, 0x0B, 0x100, 96), (.ssp, 0x0C, 0x180, 32), (.cwl, 0x0D, 0x1C0, 16), (.atl, 0x0E, 0x1D0, 1),
   (.hbm, 0x0F, 0x200, 64), (.slc, 0x10, 0x300, 33), (.bed, 0x11, 0x400, 32), (.red, 0x12, 0x1000, 544)]

/-- The block of a BAR0 page, with its code and the page's number within the block. -/
def blockOf (pg : Nat) : Option (Blk × Nat × Nat) :=
  (directory.find? fun e => decide (e.2.2.1 ≤ pg) && decide (pg < e.2.2.1 + e.2.2.2)).map fun e =>
    (e.1, e.2.1, pg - e.2.2.1)

/-- The directory page as it reads. -/
def directoryRead (o : Nat) : W32 :=
  if o = 0 then 0x5A441201#32
  else if o = 4 then 64
  else if o < 0x10 then 0
  else match directory[(o - 0x10) / 8]? with
    | some e => BitVec.ofNat 32 (if o % 8 = 0 then e.2.2.1 * 2 ^ 12 else e.2.1 * 2 ^ 24 + e.2.2.2 * 2 ^ 12 + 1)
    | none => 0

/-! ### The page header (R386 to R388, R421) -/

/-- The IRQ_STAT bits that a block defines. -/
def irqMask : Blk → W32
  | .glb => 3
  | .pwr | .sec | .ssp => 7
  | .mer | .fbk | .spr => 0xF#32
  | .tcu => 0xFFFF#32
  | .asp | .cwl => 0x1F#32
  | .atl => 0x3F#32
  | _ => 0

/-- LOOP_CTRL selects a loop-back on the block's pages. -/
def loops (b : Blk) : Bool := b == .glb || b == .asp || b == .ssp || b == .cwl || b == .hbm
/-- ERR_INFO and ERR_ADDR are defined for the block. -/
def reportsErr (b : Blk) : Bool := b == .asp || b == .hbm || b == .bed || b == .red
/-- SPARE_STAT is defined for the page. -/
def spares (b : Blk) (p : Nat) : Bool :=
  b == .fbk || b == .cwl || b == .hbm || b == .bed || (b == .qmg && p == 0) || (b == .slc && p == 32)

/-- PAGE_FEAT (R387, R421). -/
def pageFeat (b : Blk) (p : Nat) : W32 :=
  BitVec.ofNat 32 ((reportsErr b).toNat * 8 + (spares b p).toNat * 4 + (loops b).toNat * 2 + (irqMask b != 0).toNat)

/-- PAGE_ID (R387): the instance is the page of a block with one page for each instance. -/
def pageId (b : Blk) (code p : Nat) : W32 :=
  let paged := b == .evr || b == .qmg || b == .tcu
  BitVec.ofNat 32 (code * 2 ^ 24 + (if paged then 0 else p) * 2 ^ 12 + (if paged then p else 0) * 2 ^ 8 + 1)

/-- EVT_ROUTE (R387). -/
def evtRoute (pg : Nat) : W32 := match pageSource pg with
  | some n => BitVec.ofNat 32 (2 ^ 31 + n)
  | none => 0

/-- SPARE_STAT: the spare units available and in use (R387). -/
def spareStat (s : State) (b : Blk) (p : Nat) : W32 :=
  let v : Nat × Nat := match b with
    | .bed => (((idleSpares s).filter fun r => r / 17 == p).length, (logicalOf s (17 * p + 16)).isSome.toNat)
    | .cwl =>
      let m := (linkOf s p).lmap
      ((fld m 15 3 != 7).toNat, ((List.range 4).any fun i => fld m (3 * i) 3 == 4).toNat)
    | .hbm => ((hbmPageOf s p).pprLeft, (hbmPageOf s p).pprUsed)
    | .slc => if p = 32 then (s.spr.engineIdle.toNat, ((List.range 32).any fun k => (engineOf s k).spareIn).toNat) else (0, 0)
    | .fbk => ((!s.fbk.onBackup && !s.fbk.bkFail && !s.fbk.dead).toNat, s.fbk.onBackup.toNat)
    | .qmg => if p = 0 then (512 - s.qmg.sparesUsed, s.qmg.sparesUsed) else (0, 0)
    | _ => (0, 0)
  BitVec.ofNat 32 (min 255 v.1 * 256 + min 255 v.2)

/-- CTRL of a page. -/
def ctrlRead (s : State) (b : Blk) (p : Nat) : W32 := match b with
  | .fbk => BitVec.ofNat 32 s.fbk.miren.toNat
  | .tst => BitVec.ofNat 32 s.sec.extest.toNat
  | .asp =>
    let a := aspOf s p
    BitVec.ofNat 32 (a.txen.toNat * 4 + a.rxen.toNat * 2 + a.en.toNat)
  | .ssp => BitVec.ofNat 32 (sspOf s p).en.toNat
  | .cwl => BitVec.ofNat 32 (linkOf s p).en.toNat
  | .atl => BitVec.ofNat 32 s.atl.en.toNat
  | _ => 0

/-- STAT of a page (R365, R395, R399). -/
def statRead (s : State) (b : Blk) : W32 := match b with
  | .pwr =>
    let w := s.pwr
    BitVec.ofNat 32 (w.therm.toNat * 8 + w.fastRaise.toNat * 4 + w.plimUnmet.toNat * 2 + w.tgtUnmet.toNat)
  | .mer =>
    let m := s.mer
    BitVec.ofNat 32 (m.pps.toNat * 8 + m.refLoss.toNat * 4 + m.refLock.toNat * 2 + m.lateStart.toNat)
  | .fbk =>
    let f := s.fbk
    BitVec.ofNat 32 (f.dead.toNat * 2 ^ 31 + f.onBackup.toNat * 2 ^ 30 + f.repairing.toNat * 2 ^ 29 + f.bkFail.toNat * 2 ^ 28)
  | _ => 0

/-- LOOP_CTRL of a page (R238, R251, R307, R331, R382). -/
def loopRead (s : State) (b : Blk) (p : Nat) : W32 := match b with
  | .glb => s.cxl.loop
  | .asp => BitVec.ofNat 32 (aspOf s p).loop
  | .ssp => BitVec.ofNat 32 (sspOf s p).loop
  | .cwl => (linkOf s p).loop
  | .hbm => (hbmPageOf s p).loop
  | _ => 0

/-- A page's header as it reads (R386 to R388). -/
def headerRead (s : State) (b : Blk) (code pg p o : Nat) : W32 :=
  let h := hdrOf s pg
  match o with
  | 0x00 => pageId b code p
  | 0x04 => pageFeat b p
  | 0x08 => ctrlRead s b p
  | 0x0C => statRead s b
  | 0x10 => h.irqStat
  | 0x14 => h.irqEn
  | 0x1C => h.errInfo
  | 0x20 => BitVec.ofNat 32 h.errAddr
  | 0x24 => BitVec.ofNat 32 (h.errAddr / 2 ^ 32)
  | 0x28 => loopRead s b p
  | 0x2C => spareStat s b p
  | 0x30 => evtRoute pg
  | _ => 0

/-! ### Device pages -/

/-- One half of a 64-bit value. -/
def half (v : Nat) (hi : Bool) : W32 := BitVec.ofNat 32 (if hi then v / 2 ^ 32 else v)

/-- The GLB page (R393, R394). -/
def glbRead (s : State) (o : Nat) : W32 :=
  let g := s.glb
  match o with
  | 0x40 => BitVec.ofNat 32 (0x91441000 + g.sheet)
  | 0x44 => BitVec.ofNat 32 (g.target.isSome.toNat * 2 ^ 8 + (g.target.map DevState.code).getD 0 * 2 ^ 4 + g.state.code)
  | 0x50 => if g.state = .tussock then BitVec.ofNat 32 g.tussock else 0
  | 0x54 =>
    BitVec.ofNat 32 (g.errV.toNat * 2 ^ 31 + g.errOvf.toNat * 2 ^ 30 + g.errAgent * 2 ^ 27 + g.errCause * 2 ^ 24 + g.errIndex)
  | 0x5C => BitVec.ofNat 32 (g.recActive.toNat * 2 ^ 31 + g.recReason)
  | _ => 0

/-- The PWR page (R395). -/
def pwrRead (s : State) (o : Nat) : W32 :=
  let w := s.pwr
  match o with
  | 0x40 => BitVec.ofNat 32 w.target
  | 0x44 => BitVec.ofNat 32 w.effective
  | 0x48 => BitVec.ofNat 32 w.limit
  | 0x50 => BitVec.ofNat 32 (w.vdd / 2)
  | 0x54 => BitVec.ofNat 32 (w.twarn * 2 ^ 16 + tempByte w.tj)
  | 0x58 => BitVec.ofNat 32 (w.minPhys * 2 ^ 16 + w.minPace)
  | _ => 0

/-- TD_EN.ACT (R18). -/
def actBits (s : State) : Nat := ((List.range 8).map fun d => (domOf s d).active.toNat * 2 ^ d).sum

/-- The MER page (R396 to R399). -/
def merRead (s : State) (o : Nat) : W32 :=
  let m := s.mer
  if o = 0x40 then m.cfg
  else if o = 0x44 then m.wcin
  else if o = 0x48 then m.trim
  else if o = 0x4C then BitVec.ofNat 32 (actBits s * 2 ^ 8 + m.en.toNat)
  else if o = 0x50 ∨ o = 0x54 then half m.ticks (o == 0x54)
  else if o = 0x58 ∨ o = 0x5C then half m.ppsAt (o == 0x5C)
  else if 0x80 ≤ o ∧ o < 0x100 then
    let d := domOf s ((o - 0x80) / 16)
    match o % 16 with
    | 0 => BitVec.ofNat 32 d.pint
    | 4 => BitVec.ofNat 32 d.pfrac
    | 8 => half d.start false
    | _ => half d.start true
  else if 0x100 ≤ o ∧ o < 0x140 then half (domOf s ((o - 0x100) / 8)).tide (o % 8 == 4)
  else 0

/-- The FBK page (R365). -/
def fbkRead (s : State) (o : Nat) : W32 :=
  let f := s.fbk
  if 0x50 ≤ o ∧ o < 0x70 then f.buffer.words.getD ((o - 0x50) / 4) 0
  else match o with
    | 0x40 => half f.next false
    | 0x44 => half f.next true
    | 0x48 => half f.rdSel false
    | 0x4C => half f.rdSel true
    | 0x70 => half f.wall false
    | 0x74 => half f.wall true
    | 0x78 => BitVec.ofNat 32 f.epoch
    | 0x7C => BitVec.ofNat 32 (f.refill * 2 ^ 16 + f.burst)
    | 0x80 => BitVec.ofNat 32 f.mirq
    | 0x84 => half f.mirSeq false
    | 0x88 => half f.mirSeq true
    | _ => 0

/-- The SEC page (R354). -/
def secRead (s : State) (o : Nat) : W32 :=
  let x := s.sec
  let t := x.otp
  if 0x60 ≤ o ∧ o < 0x80 then
    let k := keySlot x ((o - 0x60) / 4)
    BitVec.ofNat 32 (k.v.toNat * 2 ^ 31 + k.revoked.toNat * 2 ^ 30 + k.stages)
  else if 0xA0 ≤ o ∧ o < 0xB0 then BitVec.ofNat 32 (leField t.devId (o - 0xA0) 4)
  else match o with
    | 0x40 =>
      BitVec.ofNat 32 (x.count * 2 ^ 29 + t.threshold * 2 ^ 26 + t.bootSrc * 2 ^ 24 + x.lastFail * 2 ^ 16 +
        (x.waitPush != 0).toNat * 2 ^ 15 + x.s1Src * 2 ^ 13 + x.s2Src * 2 ^ 11 + x.step)
    | 0x44 => BitVec.ofNat 32 x.forceHost.toNat
    | 0x48 => BitVec.ofNat 32 (x.done.toNat * 2 ^ 31 + x.err.toNat * 2 ^ 30 + x.kind * 2 ^ 28 + x.len)
    | 0x80 => BitVec.ofNat 32 (x.svn1 * 2 ^ 16 + t.floor1)
    | 0x84 => BitVec.ofNat 32 (x.svn2 * 2 ^ 16 + t.floor2)
    | 0x88 => BitVec.ofNat 32 (x.otpOk.toNat * 2 ^ 31 + t.custLock.toNat * 2 ^ 30 + t.dbgPol)
    | 0x8C => BitVec.ofNat 32 (x.lkek.isSome.toNat * 2 ^ 31 + x.lkekGen % 2 ^ 31)
    | 0x90 => BitVec.ofNat 32 x.dbgOpen.toNat
    | _ => 0

/-- MIG_STAT.PHASE of a phase (R384). -/
def MigPhase.code : MigPhase → Nat
  | .idle => 0 | .copy => 1 | .shadow => 2 | .hostWait => 3

/-- LR_MAP of the logical reed that LR_SEL names (R384). -/
def lrMap (s : State) : W32 :=
  let l := s.spr.lrSel
  let bound := physOf s l
  let st := if s.spr.stopped.contains l then 3 else match bound with
    | some p => if p / 17 = l / 16 then 0 else 1
    | none => 2
  BitVec.ofNat 32 (Tab.get 0xFFFF s.spr.xcost l * 2 ^ 16 + st * 2 ^ 14 + bound.getD 0x3FF)

/-- The SPR page (R384). -/
def sprRead (s : State) (o : Nat) : W32 :=
  let p := s.spr
  match o with
  | 0x40 =>
    let vacant := (List.range 512).filter fun l => (physOf s l).isNone
    BitVec.ofNat 32 ((idleSpares s).length % 64 * 2 ^ 26 + vacant.length % 64 * 2 ^ 20 + p.survIdle.length % 8 * 2 ^ 17 +
      p.engineIdle.toNat * 2 ^ 16 + p.retired % 2 ^ 16)
  | 0x44 => p.wear
  | 0x48 => BitVec.ofNat 32 p.migSel
  | 0x4C =>
    let queued := min 511 (p.queue.length + p.retries.length)
    if p.phase = .idle then BitVec.ofNat 32 queued
    else BitVec.ofNat 32 (p.phase.code * 2 ^ 29 + p.now.urgent.toNat * 2 ^ 28 + p.now.lreed * 2 ^ 19 +
      (if p.phase = .hostWait then 0 else p.spare) * 2 ^ 9 + queued)
  | 0x50 => BitVec.ofNat 32 p.lrSel
  | 0x54 => lrMap s
  | _ => 0

/-- The TST page (R385). -/
def tstRead (s : State) (o : Nat) : W32 :=
  let t := s.tst
  match o with
  | 0x40 => BitVec.ofNat 32 (t.proc * 2 ^ 16 + t.target)
  | 0x44 => BitVec.ofNat 32 (t.done.toNat * 2 ^ 31 + t.fail.toNat * 2 ^ 30 + t.refused.toNat * 2 ^ 29 + t.first)
  | _ => 0

/-! ### Events, queues and ports -/

/-- The EVR pages (R283). -/
def evrRead (s : State) (p o : Nat) : W32 :=
  if p = 0 then
    let n := s.evr.srcSel
    let x := srcOf s n
    if o = 0x40 then BitVec.ofNat 32 n
    else if o = 0x44 then (if sourceNamed n then x.cfg else 0)
    else if o = 0x48 then
      BitVec.ofNat 32 ((x.count != 0).toNat * 2 ^ 31 + x.sat.toNat * 2 ^ 30 + x.badq.toNat * 2 ^ 29 + x.count)
    else if 0x400 ≤ o ∧ o < 0x800 then
      let k := (o - 0x400) / 4
      BitVec.ofNat 32 ((List.range 32).map fun i => ((srcOf s (32 * k + i)).count != 0).toNat * 2 ^ i).sum
    else 0
  else if p ≤ 6 then
    let v := svOf s (p - 1)
    if o = 0x48 then
      BitVec.ofNat 32 (v.psf.toNat * 2 ^ 31 + v.stack.length * 2 ^ 16 + (bestOffer s (p - 1)).isSome.toNat * 2 ^ 4 +
        (v.stack.head?.map (·.1)).getD 0)
    else if 0x80 ≤ o ∧ o < 0xC0 then
      match v.stack.reverse[(o - 0x80) / 4]? with
      | some e => BitVec.ofNat 32 (2 ^ 31 + e.1 * 2 ^ 16 + e.2)
      | none => 0
    else 0
  else 0

/-- The QMG pages (R284). -/
def qmgPageRead (s : State) (p o : Nat) : W32 :=
  if p ≠ 0 then 0
  else if o = 0x40 then BitVec.ofNat 32 s.qmg.qsel
  else if o = 0x48 then BitVec.ofNat 32 s.qmg.cmtErr
  else if 0x80 ≤ o ∧ o < 0xA0 then Tab.get 0 s.qmg.qdata ((o - 0x80) / 4)
  else 0

/-- The TCU pages (R264). -/
def tcuRead (s : State) (p o : Nat) : W32 :=
  if 0x100 ≤ o ∧ o < 0x300 then
    let x := chanOf s (16 * p + (o - 0x100) / 0x20)
    match o % 0x20 with
    | 0x00 => x.cfg
    | 0x04 => x.count
    | 0x08 => x.cmp
    | 0x0C => x.cap
    | 0x10 => BitVec.ofNat 32 (x.run.toNat * 2 ^ 31 + x.stat.toNat)
    | 0x14 => BitVec.ofNat 32 (x.ie.toNat * 2 ^ 4)
    | _ => 0
  else if p = 0 ∧ 0x400 ≤ o ∧ o < 0x500 then (capOf s ((o - 0x400) / 4)).sel
  else if p = 0 ∧ (o = 0x500 ∨ o = 0x504) then
    let k := (o - 0x500) * 8
    BitVec.ofNat 32 ((List.range 32).map fun i => (capOf s (k + i)).level.toNat * 2 ^ i).sum
  else 0

/-- The ASP pages (R240). -/
def aspRead (s : State) (p o : Nat) : W32 :=
  let a := aspOf s p
  if 0x40 ≤ o ∧ o < 0xC0 then Tab.get 0 a.slots ((o - 0x40) / 4)
  else if 0xC0 ≤ o ∧ o < 0x140 then Tab.get 0 a.outs ((o - 0xC0) / 4)
  else match o with
    | 0x140 => a.cfg
    | 0x144 => a.timing
    | 0x148 => a.pstat
    | _ => 0

/-- SSP.PINS (R250, R251): a pin that something outside drives has a free level. -/
def takePins (n : Nat) (t : State) : W32 × State :=
  let f := takeFree t
  let p := sspOf t n
  (BitVec.ofNat 32 ((List.range 32).map fun i => ((p.pinLevel t i).getD (bitOf f.1 i)).toNat * 2 ^ i).sum, f.2)

/-- The SSP pages (R263). -/
def sspRead (s : State) (n o : Nat) : W32 :=
  let p := sspOf s n
  if 0x60 ≤ o ∧ o < 0x70 then Tab.get 0 p.scan ((o - 0x60) / 4)
  else if 0x400 ≤ o ∧ o < 0x800 then Tab.get 0 p.smap ((o - 0x400) / 4)
  else match o with
    | 0x40 => p.cfg
    | 0x44 => p.timing
    | 0x48 => p.adc
    | 0x50 => p.pstat
    | 0x58 => p.loopVal
    | _ => 0

/-! ### Causeway, HBM, engines, beds and reeds -/

/-- The CWL pages (R333). -/
def cwlRead (s : State) (l o : Nat) : W32 :=
  let x := linkOf s l
  if 0x60 ≤ o ∧ o < 0x74 then BitVec.ofNat 32 (Tab.get 0 x.margin ((o - 0x60) / 4) % 256)
  else match o with
    | 0x40 => BitVec.ofNat 32 (x.state.code * 2 ^ 29 + x.peerSheet * 2 ^ 16 + x.peerLink * 2 ^ 8 + x.lanes)
    | 0x44 => x.lmap
    | 0x48 => BitVec.ofNat 32 x.thr
    | 0x54 => x.delay
    | _ => 0

/-- The ATL page (R334). -/
def atlRead (s : State) (o : Nat) : W32 :=
  let a := s.atl
  if 0x80 ≤ o ∧ o < 0xA4 then BitVec.ofNat 32 (ageField s ((o - 0x80) / 4))
  else match o with
    | 0x40 => a.cfg
    | 0x48 => BitVec.ofNat 32 (a.epoch % 2 ^ 16 * 2 ^ 16 + curTmOf s * 2 ^ 8 + a.tm)
    | 0x4C => a.succ0
    | 0x50 => a.succ1
    | 0x54 =>
      BitVec.ofNat 32 (a.locked.toNat * 2 ^ 31 + a.holdover.toNat * 2 ^ 30 + a.partition.toNat * 2 ^ 29 +
        a.tmaster.toNat * 2 ^ 28 + a.slewing.toNat * 2 ^ 27 + a.hops % 16)
    | 0x58 => a.phase
    | 0x5C => half a.offset.toNat false
    | 0x60 => half a.offset.toNat true
    | 0x6C => BitVec.ofNat 32 (a.result * 2 ^ 16 + a.maxErr)
    | 0x70 => BitVec.ofNat 32 a.busSel
    | 0x74 => (busOf s a.busSel).w0
    | 0x78 => (busOf s a.busSel).w1
    | _ => 0

/-- RB_MAP of the page that RB_QUERY names (R194). -/
def rbMap (s : State) : W32 := match backOf s s.hbm.query with
  | .inHbm => 0
  | .copying r => BitVec.ofNat 32 (2 ^ 30 + r)
  | .backed r => BitVec.ofNat 32 (2 * 2 ^ 30 + r)
  | .lost => BitVec.ofNat 32 (3 * 2 ^ 30)

/-- The HBM pages (R194). -/
def hbmRead (s : State) (p o : Nat) : W32 :=
  let x := hbmPageOf s p
  let b := s.hbm
  match o with
  | 0x40 => BitVec.ofNat 32 (x.trained.toNat * 2 ^ 31 + x.selfRef.toNat * 2 ^ 30 + x.refRate * 2 ^ 28 + x.temp * 2 ^ 12)
  | 0x4C => BitVec.ofNat 32 (x.pprUsed * 2 ^ 8 + x.pprLeft)
  | 0x50 => x.scrub
  | _ =>
    if p ≠ 0 then 0
    else match o with
      | 0x80 => half b.rbBase false
      | 0x84 => half b.rbBase true
      | 0x88 => BitVec.ofNat 32 b.rbSize
      | 0x8C => BitVec.ofNat 32 (b.exhausted.toNat * 2 ^ 31 + b.reserve.length)
      | 0x90 => BitVec.ofNat 32 b.query
      | 0x94 => rbMap s
      | _ => 0

/-- ENG_STAT (R223). -/
def engStat (s : State) (b : Nat) : W32 :=
  let e := engineOf s b
  let active := (e.streams.filter fun (x : Nat × Stream) => x.2.st != .idle).length
  if b = 32 then
    let serving := (List.range 32).find? fun k => (engineOf s k).spareIn
    BitVec.ofNat 32 (serving.isSome.toNat * 2 ^ 31 + serving.getD 0 * 2 ^ 24 + active)
  else BitVec.ofNat 32 (e.serving.toNat * 2 ^ 31 + e.spareIn.toNat * 2 ^ 30 + b * 2 ^ 24 + active)

/-- The SLC pages (R223). -/
def slcRead (s : State) (b o : Nat) : W32 :=
  let e := engineOf s b
  let x := Tab.get {} e.streams e.sel
  if 0x80 ≤ o ∧ o < 0xC0 then x.d ((o - 0x80) / 4)
  else match o with
    | 0x40 => engStat s b
    | 0x44 => e.queues
    | 0x48 => e.tmo
    | 0x4C => BitVec.ofNat 32 (min 1024 (fld e.slotCfg 0 11))
    | 0x50 => BitVec.ofNat 32 (e.ringHeld * 2 ^ 16 + e.held.length)
    | 0x54 => BitVec.ofNat 32 e.sel
    | 0x58 => BitVec.ofNat 32 (x.st.code * 2 ^ 30 + e.heldBy e.sel * 2 ^ 16 + e.cmtErr * 2 ^ 12 + x.last * 2 ^ 4)
    | _ => 0

/-- The BED pages (R193). -/
def bedRead (s : State) (b o : Nat) : W32 :=
  let x := bedOf s b
  let t := tokenSlot s b x.sel
  if 0x80 ≤ o ∧ o < 0x100 then
    let k := (o - 0x80) / 4
    BitVec.ofNat 32 ((List.range 32).map fun i => (tokenSlot s b (32 * k + i)).full.toNat * 2 ^ i).sum
  else match o with
    | 0x40 =>
      let spare := (List.range 17).find? fun j => idleSpare s (17 * b + j)
      BitVec.ofNat 32 (spare.getD 31 * 2 ^ 17 + ((List.range 17).map fun j => (logicalOf s (17 * b + j)).isSome.toNat * 2 ^ j).sum)
    | 0x44 => BitVec.ofNat 32 x.sel
    | 0x48 => t.next.getD t.cfg
    | 0x4C => BitVec.ofNat 32 (t.full.toNat * 2 ^ 31 + t.dbl.toNat * 2 ^ 30 + t.tag)
    | 0x58 => x.scrub
    | _ => 0

/-- The tide-table entry that TT_ADDR names, in the inactive bank (R36). -/
def RedPage.addressed (p : RedPage) : W64 := p.entryOf (fld p.ttAddr 3 3) (!p.bankOf (fld p.ttAddr 3 3)) (fld p.ttAddr 0 3)

/-- The descriptor that PD_SEL names and that applies at the context's next start (R53, R62). -/
def nextParcel (x : Reed) : W128 :=
  let k := x.ctxOf (fld x.page.pdSel 4 3)
  (Tab.get none k.page.pdNext (fld x.page.pdSel 0 4)).getD (k.regs.pdOf (fld x.page.pdSel 0 4))

/-- A register of a context, by its offset within the RED page's per-context groups (R36, R62, R169). -/
def ctxRead (x : Reed) (o : Nat) : W32 :=
  let k (base : Nat) : Ctx := x.ctxOf ((o - base) / 4)
  if 0x80 ≤ o ∧ o < 0xA0 then (k 0x80).page.cfgNext
  else if 0xA0 ≤ o ∧ o < 0xC0 then (k 0xA0).page.entry.setWidth 32
  else if 0x100 ≤ o ∧ o < 0x120 then (k 0x100).page.xvec
  else if 0x120 ≤ o ∧ o < 0x140 then (k 0x120).page.xrec
  else if 0x140 ≤ o ∧ o < 0x160 then BitVec.ofNat 32 (k 0x140).page.step.toNat
  else if 0x160 ≤ o ∧ o < 0x180 then BitVec.ofNat 32 (k 0x160).run.frames.length
  else if 0x180 ≤ o ∧ o < 0x200 then
    let p := (x.ctxOf ((o - 0x180) / 16)).page
    match o % 16 with
    | 0 => p.esc0
    | 4 => p.esc1
    | 8 => p.esc2
    | _ => p.esc3
  else if 0x420 ≤ o ∧ o < 0x440 then BitVec.ofNat 32 (k 0x420).page.beatsLast
  else if 0x440 ≤ o ∧ o < 0x460 then BitVec.ofNat 32 (k 0x440).page.wmark
  else if 0x460 ≤ o ∧ o < 0x480 then BitVec.ofNat 32 (k 0x460).page.slack
  else 0

/-- The RED pages (R36, R62, R169). -/
def redRead (s : State) (r o : Nat) : W32 :=
  let x := reedOf s r
  let p := x.page
  if 0x40 ≤ o ∧ o < 0x50 then featOf s r ((o - 0x40) / 4)
  else if 0xC4 ≤ o ∧ o < 0xD4 then BitVec.ofNat 32 (fld (nextParcel x) (8 * (o - 0xC4)) 32)
  else match o with
    | 0xC0 => p.pdSel
    | 0xE0 => p.farTmo
    | 0x200 => p.discard
    | 0x400 => BitVec.ofNat 32 (p.runOn.toNat * 2 ^ 8 + p.swap.toNat)
    | 0x404 => BitVec.ofNat 32 (p.errCode * 2 ^ 12 + p.errDom * 2 ^ 9 + p.swapErr.toNat * 2 ^ 8 + p.bank.toNat)
    | 0x408 => p.ttAddr
    | 0x40C => half p.addressed.toNat false
    | 0x410 => half p.addressed.toNat true
    | 0x418 => p.dbl ++ p.tk
    | 0x4A0 => BitVec.ofNat 32 (p.paceMin * 2 ^ 16 + p.paceNow)
    | _ => ctxRead x o

/-! ### A read of a register (R14, R289, R387) -/

/-- A block's own registers, without side effects. -/
def plainRead (s : State) (b : Blk) (p o : Nat) : W32 := match b with
  | .glb => glbRead s o
  | .pwr => pwrRead s o
  | .mer => merRead s o
  | .fbk => fbkRead s o
  | .sec => secRead s o
  | .spr => sprRead s o
  | .tst => tstRead s o
  | .evr => evrRead s p o
  | .qmg => qmgPageRead s p o
  | .tcu => tcuRead s p o
  | .asp => aspRead s p o
  | .ssp => sspRead s p o
  | .cwl => cwlRead s p o
  | .atl => atlRead s o
  | .hbm => hbmRead s p o
  | .slc => slcRead s p o
  | .bed => bedRead s p o
  | .red => redRead s p o

/-- The registers whose read has a side effect or takes a free value. -/
def effectRead (b : Blk) (p o : Nat) : Option (State → W32 × State) :=
  match b, o with
  | .glb, 0x58 => some takeGlbErrCnt
  | .pwr, 0x4C => some takePkgPower
  | .fbk, 0x50 => some (takeFbLatch false)
  | .fbk, 0x8C => some takeFbkLost
  | .evr, 0x40 => if 1 ≤ p ∧ p ≤ 6 then some (claim (p - 1)) else none
  | .qmg, 0x4C => if p = 0 then some takeQmgDrop else none
  | .asp, 0x14C => some (takeAspCntA p)
  | .asp, 0x150 => some (takeAspCntB p)
  | .ssp, 0x54 => some (takePins p)
  | .ssp, 0x5C => some (takeSspCnt p)
  | .cwl, 0x4C => some (takeCwlCntCrc p)
  | .cwl, 0x50 => some (takeCwlCntReplay p)
  | .atl, 0x7C => some takeAtlCnt
  | .hbm, 0x44 => some (takeHbmEccCe p)
  | .hbm, 0x48 => some (takeHbmEccUe p)
  | .hbm, 0x54 => some (takeSfStat p)
  | .slc, 0x5C => some (takeSlcCntA p)
  | .slc, 0x60 => some (takeSlcCntB p)
  | .slc, 0x64 => some (takeSlcLoad p)
  | .bed, 0x50 => some (takeTokCnt p)
  | .bed, 0x54 => some (takePoolEcc p)
  | .red, 0xE4 => some (takeFarLate p)
  | .red, o => if 0x480 ≤ o ∧ o < 0x4A0 then some (takeOvrCount p ((o - 0x480) / 4)) else none
  | _, _ => none

/-- A 32-bit read by an agent at a BAR0 byte offset that is a multiple of 4 (R289, R386, R387, R392). -/
def regRead (ag off : Nat) (s : State) : W32 × State :=
  let pg := off / 4096
  let o := off % 4096
  if pg = 0 then (directoryRead o, s)
  else match blockOf pg with
    | none => (0, glbErr 2 (agentOf ag) (off / 4) s)
    | some (b, code, p) =>
      if !pageOpen s ag pg then (0, glbErr 3 (agentOf ag) (off / 4) s)
      else if o < 0x40 then (headerRead s b code pg p o, s)
      else match effectRead b p o with
        | some f => f s
        | none => (plainRead s b p o, s)

end Sys2Proof.Machine
end

