-- ==== Sys2Proof/Machine/PageWrite.lean ====
section
/-! DEFINITION. Sys2Proof/Machine/PageWrite.lean: writes of the register pages, of the doorbells, of the MSI-X table and of
the configuration registers, by their access codes, locks and refusals (R14, R289, R306, R386 to R400, and the register
rules of each chapter). -/

namespace Sys2Proof.Machine

/-! ### The page header (R386 to R388) -/

/-- A flag that a write of 1 clears (R387). -/
def clearOn (v : W32) (i : Nat) (b : Bool) : Bool := b && !bitOf v i

/-- A header register common to every page is written. -/
def headerWrite (b : Blk) (pg o : Nat) (v : W32) (s : State) : State :=
  let h := hdrOf s pg
  let m := irqMask b
  match o with
  | 0x10 => setHdr pg { h with irqStat := h.irqStat &&& ~~~v } s
  | 0x14 => setHdr pg { h with irqEn := v &&& m } s
  | 0x18 => irqSet pg (v &&& m) s
  | 0x1C => setHdr pg { h with errInfo := h.errInfo &&& ~~~(v &&& 0xC0000000#32) } s
  | _ => s

/-! ### Device pages -/

/-- GLB.STATE_REQ is written (R8, R394): a REQ that the table does not list is refused under R8. -/
def writeStateReq (ag : Nat) (v : W32) (s : State) : State :=
  if fld v 16 16 ≠ 0x5354 then refuseReg 5 ag 0x1048 s
  else match fld v 0 4 with
    | 1 => trigger (.request .startup) s
    | 2 => trigger (.request .test) s
    | 3 => trigger (.request .service) s
    | 4 => trigger (.request .recovery) s
    | 5 => trigger (.request .tussock) s
    | 6 => trigger (.request .dormant) s
    | _ => refuseReg 6 ag 0x1048 s

/-- The GLB page (R394). -/
def glbWrite (ag o : Nat) (v : W32) (s : State) : State :=
  match o with
  | 0x28 => startHostLoop ag v s
  | 0x48 => writeStateReq ag v s
  | 0x4C => bootAck ag s
  | 0x54 => { s with glb := { s.glb with errV := clearOn v 31 s.glb.errV, errOvf := clearOn v 30 s.glb.errOvf } }
  | _ => s

/-- PWR.TEMP is written: a lower TWARN may raise THERM at once (R395; log entry 31). -/
def writeTemp (v : W32) (s : State) : State :=
  let w := { s.pwr with twarn := min 105 (fld v 16 8) }
  let hot := decide ((w.twarn : Int) ≤ w.tj)
  let s1 := setPwr { w with therm := hot } s
  if hot && !s.pwr.therm then irqSet 2 4 s1 else s1

/-- The PWR page (R395). -/
def pwrWrite (o : Nat) (v : W32) (s : State) : State :=
  match o with
  | 0x40 => writePaceTgt v s
  | 0x48 => setPwr { s.pwr with limit := min 0x320 (fld v 0 16) } s
  | 0x54 => writeTemp v s
  | _ => s

/-- PERIOD and START of a domain (R16, R390, R399): the write of HI commits. -/
def domWrite (ag o : Nat) (v : W32) (s : State) : State :=
  let n := (o - 0x80) / 16
  let d := domOf s n
  if d.active then refuseReg 4 ag (0x3000 + o) s
  else match o % 16 with
    | 0 => setDom n { d with periodLo := v &&& 0x3FFFFF#32 } s
    | 4 => setDom n { d with pint := d.periodLo.toNat, pfrac := fld v 0 16 } s
    | 8 => setDom n { d with startLo := v } s
    | _ => setDom n { d with start := (v ++ d.startLo).toNat } s

/-- The MER page (R396 to R399). -/
def merWrite (ag o : Nat) (v : W32) (s : State) : State :=
  let m := s.mer
  if 0x80 ≤ o ∧ o < 0x100 then domWrite ag o v s
  else match o with
    | 0x0C =>
      setMer { m with pps := clearOn v 3 m.pps, refLoss := clearOn v 2 m.refLoss, lateStart := clearOn v 0 m.lateStart } s
    | 0x40 => writeMerCfg ag v s
    | 0x44 => if anyActive s then refuseReg 4 ag 0x3044 s else setMer { m with wcin := v &&& 0x3FFFFF#32 } s
    | 0x48 => setMer { m with trim := v } s
    | 0x4C => writeTdEn ag v s
    | _ => s

/-- FBK.CTRL is written (R362, R363). -/
def fbkCtrl (ag : Nat) (v : W32) (s : State) : State :=
  let f := s.fbk
  let s1 := if bitOf v 0 then
      (if f.miren then s else setFbk { f with miren := true, mirSeq := f.oldest, updates := [] } s)
    else setFbk { f with miren := false } s
  if bitOf v 1 then fbRepair ag s1 else s1

/-- The FBK page (R365). -/
def fbkWrite (ag o : Nat) (v : W32) (s : State) : State :=
  let f := s.fbk
  match o with
  | 0x08 => fbkCtrl ag v s
  | 0x48 => setFbk { f with rdSelLo := v } s
  | 0x4C => setFbk { f with rdSel := fld v 0 16 * 2 ^ 32 + f.rdSelLo.toNat } s
  | 0x70 => setFbk { f with wallLo := v } s
  | 0x74 => writeWall v s
  | 0x7C => writeRlCfg v s
  | 0x80 => if f.miren then s else setFbk { f with mirq := fld v 0 14 } s
  | _ => s

/-- SEC.PUSH_CTRL is written; without GO, KIND and LEN are set while no push is open (R338). -/
def pushCtrl (ag : Nat) (v : W32) (s : State) : State :=
  if bitOf v 27 then pushGo ag v s
  else if s.sec.push = .idle then setSec { s.sec with kind := fld v 28 2, len := fld v 0 25 } s
  else s

/-- The SEC page (R354). -/
def secWrite (ag o : Nat) (v : W32) (s : State) : State :=
  match o with
  | 0x08 =>
    let s1 := if bitOf v 1 then svnCommit ag s else s
    if bitOf v 0 then zeroise s1 else s1
  | 0x44 => setSec { s.sec with forceHost := bitOf v 0 } s
  | 0x48 => pushCtrl ag v s
  | 0x4C => pushData ag v s
  | _ => s

/-- The SPR page (R384). -/
def sprWrite (o : Nat) (v : W32) (s : State) : State :=
  let p := s.spr
  match o with
  | 0x44 => setSpr { p with wear := v } s
  | 0x48 => if bitOf v 31 then migGo (fld v 0 9) (bitOf v 30) s else setSpr { p with migSel := fld v 0 9 } s
  | 0x50 => setSpr { p with lrSel := fld v 0 9 } s
  | 0x54 => setSpr { p with xcost := Tab.set p.xcost p.lrSel (fld v 16 16) } s
  | _ => s

/-- The TST page (R380, R381, R385). -/
def tstWrite (ag o : Nat) (v : W32) (s : State) : State :=
  match o with
  | 0x08 => if s.glb.state = .service then refuseReg 4 ag 0x7008 s else setSec { s.sec with extest := bitOf v 0 } s
  | 0x40 => if bitOf v 31 then testRun ag v s else setTst { s.tst with proc := fld v 16 8, target := fld v 0 10 } s
  | 0x44 => setTst { s.tst with refused := clearOn v 29 s.tst.refused } s
  | _ => s

/-! ### Events, queues, timers and ports -/

/-- The EVR pages (R283). -/
def evrWrite (ag p o : Nat) (v : W32) (s : State) : State :=
  if p = 0 then
    let n := s.evr.srcSel
    match o with
    | 0x40 => { s with evr := { s.evr with srcSel := fld v 0 13 } }
    | 0x44 => writeSrcCfg v s
    | 0x48 => setSrc n { srcOf s n with sat := clearOn v 30 (srcOf s n).sat, badq := clearOn v 29 (srcOf s n).badq } s
    | 0x4C => swTrig ag v s
    | _ => s
  else if p ≤ 6 then
    match o with
    | 0x44 => if bitOf v 31 then forceService (p - 1) s else endService (p - 1) (fld v 0 4) s
    | 0x48 => setSv (p - 1) { svOf s (p - 1) with psf := clearOn v 31 (svOf s (p - 1)).psf } s
    | _ => s
  else s

/-- The QMG pages (R267, R284). -/
def qmgPageWrite (ag p o : Nat) (v : W32) (s : State) : State :=
  let m := s.qmg
  if p ≠ 0 then s
  else if 0x80 ≤ o ∧ o < 0xA0 then { s with qmg := { m with qdata := Tab.set m.qdata ((o - 0x80) / 4) v } }
  else match o with
    | 0x40 => { s with qmg := { m with qsel := fld v 0 14 } }
    | 0x44 =>
      match fld v 0 3 with
      | 1 => qmgCommit ag s
      | 2 => qmgDisable s
      | 3 => qmgRead s
      | 4 => qmgAdvance ag s
      | _ => refuseReg 5 ag qcmdOff s
    | 0x48 => if fld v 0 4 = 0xF then { s with qmg := { m with cmtErr := 0 } } else s
    | _ => s

/-- A TCU channel's registers (R252, R253, R264). -/
def chanWrite (ag c o : Nat) (v : W32) (s : State) : State :=
  let x := chanOf s c
  let u := now s + 1
  match o with
  | 0x00 => writeTcuCfg ag c v s
  | 0x04 => tcuPost c u (.setCnt v) s
  | 0x08 => tcuPost c u (.setCmp v) s
  | 0x10 => setChan c { x with stat := x.stat &&& ~~~(v.setWidth 4) } s
  | 0x14 =>
    let s1 := setChan c { x with ie := BitVec.ofNat 3 (fld v 4 3) } s
    let s2 := if bitOf v 2 then tcuPostRun c u .stop s1 else s1
    let s3 := if bitOf v 1 then tcuPostRun c u .start s2 else s2
    if bitOf v 0 then tcuPost c u .reset s3 else s3
  | _ => s

/-- The TCU pages (R264); the level of a capture source that lies outside is a free value. -/
def tcuWrite (ag p o : Nat) (v : W32) (s : State) : State :=
  if 0x100 ≤ o ∧ o < 0x300 then chanWrite ag (16 * p + (o - 0x100) / 0x20) (o % 0x20) v s
  else if p = 0 ∧ 0x400 ≤ o ∧ o < 0x500 then
    let f := takeFree s
    writeCapsel ag ((o - 0x400) / 4) v (bitOf f.1 0) f.2
  else s

/-- The ASP pages (R226, R240). -/
def aspWrite (ag n o : Nat) (v : W32) (s : State) : State :=
  let a := aspOf s n
  if 0x40 ≤ o ∧ o < 0xC0 then writeSlotmap ag n ((o - 0x40) / 4) v s
  else if 0xC0 ≤ o ∧ o < 0x140 then writeOslotmap ag n ((o - 0xC0) / 4) v s
  else match o with
    | 0x08 => aspCtrl ag n v s
    | 0x28 => setAsp n { a with loop := fld v 0 2 } s
    | 0x140 => if a.en then refuseReg 4 ag (aspOff n o) s else setAsp n { a with cfg := v &&& 0x1FFFC00#32 } s
    | 0x144 => if a.en then refuseReg 4 ag (aspOff n o) s else setAsp n { a with timing := v } s
    | _ => s

/-- The SSP pages (R242, R263). -/
def sspWrite (ag n o : Nat) (v : W32) (s : State) : State :=
  let p := sspOf s n
  let locked (x : Ssp) : State := if p.en then refuseReg 4 ag (sspOff n o) s else setSsp n x s
  if 0x60 ≤ o ∧ o < 0x70 then locked { p with scan := Tab.set p.scan ((o - 0x60) / 4) v }
  else if 0x400 ≤ o ∧ o < 0x800 then writeSmap ag n ((o - 0x400) / 4) v s
  else match o with
    | 0x08 => if bitOf v 0 then sspEnable ag n s else setSsp n { p.idle with en := false } s
    | 0x28 => writeSspLoop ag n (fld v 0 2) s
    | 0x40 => locked { p with cfg := v &&& 0x3FFFFF3#32 }
    | 0x44 => locked { p with timing := v }
    | 0x48 => locked { p with adc := v &&& 0xFFFFFF3F#32 }
    | 0x4C => writeMidiTx n (v.setWidth 8) s
    | 0x58 => setSsp n { p with loopVal := v } s
    | _ => s

/-! ### Causeway, HBM, engines, beds and reeds -/

/-- The CWL pages (R310, R331, R333). -/
def cwlWrite (ag l o : Nat) (v : W32) (s : State) : State :=
  match o with
  | 0x08 =>
    let s1 := if bitOf v 0 then enableLink l s else disableLink l s
    if bitOf v 1 then retrainLink l s1 else s1
  | 0x28 => startCwlLoop ag l v s
  | 0x48 => setLink l { linkOf s l with thr := fld v 0 8 } s
  | _ => s

/-- ATL.CTRL is written (R308, R329): the tidemaster of the other part and the phase error against it, which a rejoin
measures, are free values. -/
def atlCtrl (v : W32) (s : State) : State :=
  let s1 := if bitOf v 0 then joinAtlas s else leaveAtlas s
  if bitOf v 1 then
    let f := takeFree s1
    rejoin (fld f.1 0 6) (fld f.1 6 16) f.2
  else s1

/-- The ATL page (R308, R317, R334). -/
def atlWrite (ag o : Nat) (v : W32) (s : State) : State :=
  let a := s.atl
  let open' (x : Atlas) : State := if a.en then s else setAtl x s
  match o with
  | 0x08 => atlCtrl v s
  | 0x40 => open' { a with cfg := v &&& 0xFFFFCFFF#32 }
  | 0x48 => open' { a with tm := fld v 0 6 }
  | 0x4C => open' { a with succ0 := v }
  | 0x50 => open' { a with succ1 := v }
  | 0x6C => setAtl { a with maxErr := fld v 0 10 } s
  | 0x70 => setAtl { a with busSel := fld v 0 12, busW0 := none } s
  | 0x74 => setAtl { a with busW0 := some v } s
  | 0x78 => busCommit ag v s
  | _ => s

/-- The reserve's registers (R194). -/
def reserveWrite (ag o : Nat) (v : W32) (s : State) : State :=
  let b := s.hbm
  let used := b.back.any fun (e : Nat × PageBack) => match e.2 with
    | .copying _ | .backed _ => true
    | _ => false
  match o with
  | 0x80 => if used then refuseReg 4 ag 0x200080 s else { s with hbm := { b with rbBaseLo := v } }
  | 0x84 =>
    if used then refuseReg 4 ag 0x200084 s
    else if fld b.rbBaseLo 0 20 ≠ 0 then refuseReg 5 ag 0x200084 s
    else { s with hbm := { b with rbBase := (v ++ b.rbBaseLo).toNat } }
  | 0x88 =>
    if fld v 0 16 < b.reserve.length then refuseReg 5 ag 0x200088 s
    else { s with hbm := { b with rbSize := fld v 0 16 } }
  | 0x90 => { s with hbm := { b with query := fld v 0 16 } }
  | _ => s

/-- The HBM pages (R194, R382). -/
def hbmWrite (ag p o : Nat) (v : W32) (s : State) : State :=
  match o with
  | 0x28 => writeHbmLoop ag p v s
  | 0x50 => setHbmPage p { hbmPageOf s p with scrub := v &&& 0x8000FFFF#32 } s
  | _ => if p = 0 then reserveWrite ag o v s else s

/-- The SLC pages (R200, R223); page 32 has no streams of its own. -/
def slcWrite (ag b o : Nat) (v : W32) (s : State) : State :=
  let e := engineOf s b
  if 0x80 ≤ o ∧ o < 0xBC then setEngine b { e with data := Tab.set e.data ((o - 0x80) / 4) v } s
  else match o with
    | 0x44 => setEngine b { e with queues := v &&& 0x3FFF3FFF#32 } s
    | 0x48 => setEngine b { e with tmo := v } s
    | 0x4C => setEngine b { e with slotCfg := v &&& 0x7FF#32 } s
    | 0x54 => setEngine b { e with sel := fld v 0 11 } s
    | 0x58 => if fld v 12 4 = 0xF then setEngine b { e with cmtErr := 0 } s else s
    | 0xBC => if b < 32 then sdCommit ag b v s else s
    | _ => s

/-- The BED pages (R174, R193). -/
def bedWrite (b o : Nat) (v : W32) (s : State) : State :=
  let x := bedOf s b
  match o with
  | 0x44 => setBed b { x with sel := fld v 0 10 } s
  | 0x48 => writeTsCfg b v s
  | 0x4C =>
    let t := tokenSlot s b x.sel
    setTokenSlot b x.sel { t with dbl := clearOn v 30 t.dbl } s
  | 0x58 => setBed b { x with scrub := v &&& 0x8000FFFF#32 } s
  | _ => s

/-- A write of RED.PD_DATA3 commits the staged descriptor as pending for the context's next start; an invalid one is stored
with V = 0 and logged (R51, R53). -/
def commitParcel (ag r : Nat) (v : W32) (s : State) : State :=
  let x := reedOf s r
  let c := fld x.page.pdSel 4 3
  let k := x.ctxOf c
  let w (i : Nat) : W32 := Tab.get 0 x.page.pdData i
  let d : W128 := v ++ w 2 ++ w 1 ++ w 0
  let priv := bitOf k.page.cfgNext 1
  let pd := Tab.set k.page.pdNext (fld x.page.pdSel 0 4) (some (pdStored priv d))
  let s1 := setReed r (x.setCtx c { k with page := { k.page with pdNext := pd } }) s
  if pdValid priv d then s1 else refuseReg 5 ag (redOff r 0xD0) s1

/-- PD_DATA3_WRITE (R51, R53). -/
def execPdData3Write (ag r : Nat) (v : W32) (s : State) : Out3 :=
  if 544 ≤ r then .refused .noSuchUnit else .next (atRed ag r 0xD0 (commitParcel ag r v) s)

/-- A register of a context of a RED page is written (R43, R62, R169). -/
def ctxWrite (o : Nat) (v : W32) (x : Reed) : Reed :=
  let at' (base : Nat) (f : CtxPage → CtxPage) : Reed :=
    let c := (o - base) / 4
    let k := x.ctxOf c
    x.setCtx c { k with page := f k.page }
  if 0x80 ≤ o ∧ o < 0xA0 then at' 0x80 fun p => { p with cfgNext := v &&& 0x3F#32 }
  else if 0xA0 ≤ o ∧ o < 0xC0 then at' 0xA0 fun p => { p with entry := v.setWidth 16 }
  else if 0x100 ≤ o ∧ o < 0x120 then at' 0x100 fun p => { p with xvec := v }
  else if 0x120 ≤ o ∧ o < 0x140 then at' 0x120 fun p => { p with xrec := v &&& 0x8000FFC0#32 }
  else if 0x140 ≤ o ∧ o < 0x160 then at' 0x140 fun p => { p with step := bitOf v 0 }
  else if 0x180 ≤ o ∧ o < 0x200 ∧ o % 16 = 0 then
    let c := (o - 0x180) / 16
    let k := x.ctxOf c
    x.setCtx c { k with page := { k.page with esc0 := k.page.esc0 &&& ~~~(v &&& 0xC0000000#32) } }
  else x

/-- RED.TT_CTRL is written (R22, R24, R36). -/
def ttCtrl (r : Nat) (v : W32) (s : State) : State :=
  let s1 := (setBits 8 v.toNat).foldl (fun t d => requestSwap r d t) (setRun r (bitOf v 8) s)
  if bitOf v 9 then setReed r (clearMarks (reedOf s1 r)) s1 else s1

/-- The RED pages (R36, R62, R169). -/
def redWrite (ag r o : Nat) (v : W32) (s : State) : State :=
  let x := reedOf s r
  let p := x.page
  let set (q : RedPage) : State := setReed r { x with page := q } s
  match o with
  | 0xC0 => set { p with pdSel := v &&& 0x7F#32 }
  | 0xC4 => set { p with pdData := Tab.set p.pdData 0 v }
  | 0xC8 => set { p with pdData := Tab.set p.pdData 1 v }
  | 0xCC => set { p with pdData := Tab.set p.pdData 2 v }
  | 0xD0 => commitParcel ag r v s
  | 0xE0 => set { p with farTmo := v }
  | 0xE4 => set { p with werr := clearOn v 16 p.werr }
  | 0x200 => set { p with discard := v }
  | 0x400 => ttCtrl r v s
  | 0x404 => set { p with swapErr := clearOn v 8 p.swapErr }
  | 0x408 => set { p with ttAddr := v &&& 0x3F#32 }
  | 0x40C => set { p with ttLo := v }
  | 0x410 => setReed r (commitEntry v x) s
  | 0x414 => setReed r ((setBits 8 v.toNat).foldl (fun y n => restartCtx n y) x) s
  | 0x418 => set { p with dbl := p.dbl &&& ~~~((v >>> (16 : Nat)).setWidth 16) }
  | _ => setReed r (ctxWrite o v x) s

/-! ### A write of a register (R14, R289, R387) -/

/-- A write on a page of a block. -/
def blockWrite (ag : Nat) (b : Blk) (p o : Nat) (v : W32) (s : State) : State := match b with
  | .glb => glbWrite ag o v s
  | .pwr => pwrWrite o v s
  | .mer => merWrite ag o v s
  | .fbk => fbkWrite ag o v s
  | .sec => secWrite ag o v s
  | .spr => sprWrite o v s
  | .tst => tstWrite ag o v s
  | .evr => evrWrite ag p o v s
  | .qmg => qmgPageWrite ag p o v s
  | .tcu => tcuWrite ag p o v s
  | .asp => aspWrite ag p o v s
  | .ssp => sspWrite ag p o v s
  | .cwl => cwlWrite ag p o v s
  | .atl => atlWrite ag o v s
  | .hbm => hbmWrite ag p o v s
  | .slc => slcWrite ag p o v s
  | .bed => bedWrite p o v s
  | .red => redWrite ag p o v s

/-- A header register that every page has alike: IRQ_STAT, IRQ_EN, IRQ_FORCE, ERR_INFO. -/
def commonHeader (o : Nat) : Bool := o == 0x10 || o == 0x14 || o == 0x18 || o == 0x1C

/-- A 32-bit write by an agent at a BAR0 byte offset that is a multiple of 4 (R289, R373, R386, R387, R392). -/
def regWrite (ag off : Nat) (v : W32) (s : State) : State :=
  let pg := off / 4096
  let o := off % 4096
  if pg = 0 then refuseReg 2 ag off s
  else match blockOf pg with
    | none => refuseReg 2 ag off s
    | some (b, _, p) =>
      if !pageOpen s ag pg then refuseReg 3 ag off s
      else if b = .red ∧ s.spr.failed.contains p then refuseReg 7 ag off s
      else if commonHeader o then headerWrite b pg o v s
      else blockWrite ag b p o v s

/-- A write of BAR0 of any size: one that is not 32 bits wide, or not at a multiple of 4, is ignored and logged (R14). -/
def bar0Write (ag off len : Nat) (v : W32) (s : State) : State :=
  if len ≠ 4 ∨ off % 4 ≠ 0 then refuseReg 1 ag off s else regWrite ag off v s

/-- A write of BAR2 (R269). -/
def bar2Write (off len : Nat) (v : W32) (s : State) : State :=
  if len ≠ 4 ∨ off % 4 ≠ 0 then refuseReg 1 0 off s
  else if off % 64 = 0 ∧ off < 2 ^ 20 then doorbell (off / 64) v s
  else s

/-- A write of BAR4: the MSI-X table; the PBA and the rest ignore it (R274, R288, R298). -/
def bar4Write (off len : Nat) (v : W32) (s : State) : State :=
  let k := off / 4
  let n := k / 4
  if len ≠ 4 ∨ off % 4 ≠ 0 ∨ 0x8000 ≤ off then s
  else if k % 4 ≠ 3 then { s with cxl := { s.cxl with table := Tab.set s.cxl.table k v } }
  else if bitOf v 0 then { s with cxl := { s.cxl with unmasked := s.cxl.unmasked.filter (· != n) } }
  else clearMask (some n) s

/-- A write of the Ecval DVSEC (R306). -/
def ecvWrite (off len : Nat) (v : W32) (s : State) : State :=
  let c := s.cxl
  let set (x : Cxl) : State := { s with cxl := x }
  if len ≠ 4 then s
  else if 0x1C ≤ off ∧ off < 0x3C ∧ off % 4 = 0 then
    set { c with peers := Tab.set c.peers ((off - 0x1C) / 4) (v &&& 0x8FFF0FFF#32) }
  else match off with
    | 0x10 => set { c with hostBase := (c.hostBase >>> (32 : Nat)).setWidth 32 ++ (v &&& 0xC0000000#32) }
    | 0x14 => set { c with hostBase := v ++ (c.hostBase.setWidth 32 : W32) }
    | 0x18 => set { c with hostSize := v &&& 0x1FFF#32 }
    | _ => s

/-- A configuration register is written (R273, R274, R285, R298 to R305). -/
def configWrite (r : CfgReg) (v : W32) (s : State) : State :=
  let c := s.cxl
  let on := bitOf v 0
  match r with
  | .bar i hi =>
    let old : W64 := Tab.get 0 c.bars i
    let new : W64 := if hi then v ++ (old.setWidth 32 : W32) else ((old >>> (32 : Nat)).setWidth 32 : W32) ++ v
    { s with cxl := { c with bars := Tab.set c.bars i new } }
  | .busMaster => sendPending { s with cxl := { c with bme := on } }
  | .aspm => { s with cxl := { c with aspm := on } }
  | .msixEnable => if on then hostReturns { s with cxl := { c with msixEn := true } } else { s with cxl := { c with msixEn := false } }
  | .functionMask => if on then { s with cxl := { c with funcMask := true } } else clearMask none s
  | .pmeEn => { s with cxl := { c with pmeEn := on } }
  | .pmeStatus => { s with cxl := { c with pmeStatus := clearOn v 0 c.pmeStatus } }
  | .cacheEnable => hostChange (fun x => { x with cacheEn := on }) s
  | .memEnable => { s with cxl := { c with memEn := on } }
  | .viralEnable => { s with cxl := { c with viralEn := on } }

/-- A register access by an agent lands in its space. -/
def spaceWrite (sp : Space) (ag off len : Nat) (v : W32) (s : State) : State :=
  if s.glb.state = .off then s
  else match sp with
    | .bar0 => bar0Write ag off len v s
    | .bar2 => bar2Write off len v s
    | .bar4 => bar4Write off len v s
    | .ecv => ecvWrite off len v s
    | .config r => configWrite r v s

/-- REGISTER_WRITE (R387): a write of `len` bytes at a byte offset, by an agent. -/
def execRegisterWrite (sp : Space) (ag off len : Nat) (v : W32) (s : State) : Out3 := .next (spaceWrite sp ag off len v s)

/-- IRQ_FORCE (R388): a write of IRQ_FORCE on BAR0 page `pg`. -/
def execIrqForce (ag pg : Nat) (v : W32) (s : State) : Out3 :=
  match blockOf pg with
  | none => .refused .noSuchUnit
  | some _ => .next (if s.glb.state = .off then s else regWrite ag (pg * 4096 + 0x18) v s)

end Sys2Proof.Machine
end

