-- ==== Sys2Proof/Machine/FarAccess.lean ====
section
/-! DEFINITION. Sys2Proof/Machine/FarAccess.lean: far reads that complete, time out or come late, and posted far stores that
arrive, time out or fail (R59 to R61, R173, R175, R190, R292, R324). -/

namespace Sys2Proof.Machine

/-! ### Reads (R60) -/

/-- The place lies across the host interface or the Causeway. -/
def remotePlace : Place → Bool
  | .host _ | .atlas _ _ => true
  | _ => false

/-- The place lies in a re-backed HBM page (R190). -/
def rebacked (s : State) : Place → Bool
  | .hbm a => match backOf s (a / 2 ^ 20) with
    | .backed _ => true
    | _ => false
  | _ => false

/-- The BAR0 byte offset of a byte address in the register pages (R49, R288). -/
def pageByte (a : Nat) : Nat := a - 2 * 0x40000000

/-- A far read of a register: 32 bits at a multiple of 4, or all ones and a report (R14). -/
def readSysPage (f : Far) (s : State) : Nat × State :=
  let off := pageByte f.byte
  if f.len = 4 ∧ off % 4 = 0 then
    let p := regRead 2 off s
    (p.1.toNat, p.2)
  else (2 ^ (8 * f.len) - 1, refuseReg 1 2 off s)

/-- The data of a far read within the device: what memory holds, or the first word whose read fails (R60, R162, R190). A
VACANT reed's range holds nothing, and what its read gives is free. -/
def localRead (r : Nat) (f : Far) (s : State) : Except Nat Nat × State :=
  let ws := touched f.byte f.len
  match placeOf s r (f.byte / 2) with
  | .page _ => let p := readSysPage f s; (.ok p.1, p.2)
  | .reserved => let p := takeFree s; (.ok p.1.toNat, p.2)
  | _ =>
    match ws.find? fun w => rebacked s (placeOf s r w) || placeBad s (placeOf s r w) with
    | some w => (.error w, s)
    | none => (.ok (bytesAt s r f.byte f.len), s)

/-- The data of the far read that a reed waits on arrive: `data` from the host or another sheet, with `ok` false where they
are poisoned or failed; what the device's own memories and registers hold from the others (R60, R292, R324). -/
def farArrives (r : Nat) (f : Far) (data : W64) (ok : Bool) (s : State) : State :=
  let charge := farCharge s r f.tgt (f.byte / 2)
  if (touched f.byte f.len).any fun w => remotePlace (placeOf s r w) then
    if ok then resumeBundle r (some data.toNat) charge (endFarRead r s)
    else failFarRead r 4 (f.byte / 2) (endFarRead r s)
  else
    match localRead r f s with
    | (.ok v, t) => resumeBundle r (some v) charge t
    | (.error w, t) => failFarRead r 4 w t

/-- FAR_READ_DATA (R60). -/
def execFarReadData (r : Nat) (data : W64) (ok : Bool) (s : State) : Out3 :=
  if 544 ≤ r then .refused .noSuchUnit
  else match waitingRead s r with
    | some f => .next (farArrives r f data ok s)
    | none => .next s

/-- The timeout of a target space in ticks; none where the space has none (R60 to R62). -/
def farTimeout (x : Reed) (tgt : Nat) : Option Nat :=
  if tgt = 4 then some (16 * max 1 (fld x.page.farTmo 0 16))
  else if tgt = 5 then some (16 * max 1 (fld x.page.farTmo 16 16))
  else none

/-- A timeout has run out since a tick. -/
def timedOut (s : State) (x : Reed) (tgt since : Nat) : Bool := match farTimeout x tgt with
  | some n => decide (since + n ≤ now s)
  | none => false

/-- FAR_READ_TIMEOUT (R60): the timeout of a HOST or ATLAS read wins. -/
def execFarReadTimeout (r : Nat) (s : State) : Out3 :=
  if 544 ≤ r then .refused .noSuchUnit
  else
    let x := reedOf s r
    match waitingRead s r, x.wait with
    | some f, some (.farRead since) =>
      if timedOut s x f.tgt since then
        .next (failFarRead r 3 (f.byte / 2) (lateFarRead r (setReed r { x with lateReads := x.lateReads + 1 } s)))
      else .next s
    | _, _ => .next s

/-- The oldest late request of a reed leaves its list. -/
def dropLateRead (r : Nat) (s : State) : State :=
  match s.cxl.reqs.find? fun q => q.late && q.from' == .reed r with
  | some q => dropReq q s
  | none =>
    match s.atl.reads.find? fun q => q.late && q.agent == r with
    | some q => setAtl { s.atl with reads := s.atl.reads.erase q } s
    | none => s

/-- FAR_READ_LATE (R60). -/
def execFarReadLate (r : Nat) (s : State) : Out3 :=
  if 544 ≤ r then .refused .noSuchUnit
  else .next (if (reedOf s r).lateReads = 0 then s else countLate r (dropLateRead r s))

/-! ### Stores (R61) -/

/-- The oldest store leaves the buffer, and the next one reaches its head. -/
def popStore (r : Nat) (s : State) : State :=
  let x := reedOf s r
  setReed r { x with stores := match x.stores.tail with
    | [] => []
    | e :: rest => { e with since := now s } :: rest } s

/-- A place in the buffer has come free: a bundle that waits for it completes (R61). -/
def storeLeft (r : Nat) (s : State) : State :=
  match (reedOf s r).wait with
  | some (.storeFull charge) => resumeBundle r none charge s
  | _ => s

/-- A store to a register: 32 bits at a multiple of 4, or ignored with a report (R14). -/
def storeSysPage (ws : List StoreWord) (s : State) : State :=
  match ws with
  | [lo, hi] =>
    let off := pageByte (2 * lo.addr)
    if off % 4 = 0 ∧ lo.lo ∧ lo.hi ∧ hi.lo ∧ hi.hi then regWrite 2 off (hi.value ++ lo.value) s else refuseReg 1 2 off s
  | w :: _ => refuseReg 1 2 (pageByte (2 * w.addr)) s
  | [] => s

/-- The MEMWR flits of the words of a store that lie in one line of another sheet (R312). -/
def memWrFlits (s : State) (t line : Nat) (ws : List (Nat × StoreWord)) : List Flit :=
  let mine := ws.filter fun p => p.1 - p.1 % 32 == line
  let bytes : List Byte := (List.range 64).map fun i =>
    match mine.find? fun p => p.1 % 32 == i / 2 with
    | some p => if i % 2 = 0 then p.2.value.setWidth 8 else (p.2.value >>> (8 : Nat)).setWidth 8
    | none => 0
  let on (i : Nat) : Bool := mine.any fun p => p.1 % 32 == i / 2 && (if i % 2 = 0 then p.2.lo else p.2.hi)
  let mask := ((List.range 64).map fun i => (on i).toNat * 2 ^ i).sum
  let h := s.glb.sheet * 2 ^ 10 + t
  [mkFlit 6 h (leBytes 6 (atlasAddr t line) ++ [0, 0] ++ bytes.take 48),
   mkFlit 6 (h + 2 ^ 9) (bytes.drop 48 ++ leBytes 8 mask)]

/-- A store reaches another sheet: a MEMWR for each line it touches (R316, R324). -/
def storeAtlas (ws : List StoreWord) (r : Nat) (s : State) : State :=
  let pl := ws.filterMap fun w => match placeOf s r w.addr with
    | .atlas t a => some (t, a, w)
    | _ => none
  (pl.map fun p => (p.1, p.2.1 - p.2.1 % 32)).eraseDups.foldl (fun t la =>
    match routeTo t la.1 with
    | some l =>
      sendOn l (memWrFlits t la.1 la.2 ((pl.filter fun p => p.1 == la.1).map fun p => (p.2.1, p.2.2))) t
    | none => t) s

/-- A store of a reed has written words of reeds' banks: what their own stores would trigger follows (R231, R318). -/
def afterSysStore (ws : List PlacedWord) (s : State) : State :=
  ws.foldl (fun t p => match p.1 with
    | .bank w => afterLocalStore ((w - 0x1000000) / 0x40000) [{ p.2 with addr := (w - 0x1000000) % 0x40000 }] t
    | _ => t) s

/-- A store cannot reach its target: host memory outside the window or out of reach, also as the reserve of a re-backed
page, or another sheet with no route (R190, R292, R299, R324). -/
def storeUnsent (s : State) (r : Nat) (w : StoreWord) : Bool :=
  let pl := placeOf s r w.addr
  farUnsent s pl || (rebacked s pl && !hostReachable s)

/-- A posted far store reaches its target (R61, R173, R175, R292, R324). -/
def storeArrives (r : Nat) (e : FarStore) (s : State) : State :=
  match e.words with
  | [] => s
  | w :: _ =>
    if e.words.any (storeUnsent s r) then storeFailed r w.addr s
    else
      match placeOf s r w.addr with
      | .host _ => hostWrite (e.words.map fun x => (x.addr - 0x20000000000, x)) s
      | .atlas _ _ => storeAtlas e.words r s
      | .page _ => storeSysPage e.words s
      | _ => afterSysStore (placed s r e.words) (reedStore r e.tags e.words s)

/-- FAR_STORE_ARRIVAL (R61): the target of the oldest store has accepted it. -/
def execFarStoreArrival (r : Nat) (s : State) : Out3 :=
  if 544 ≤ r then .refused .noSuchUnit
  else match (reedOf s r).stores with
    | [] => .next s
    | e :: _ => .next (retryHeld (storeLeft r (storeArrives r e (popStore r s))))

/-- FAR_STORE_TIMEOUT (R61): a HOST or ATLAS store is not acknowledged within its timeout. -/
def execFarStoreTimeout (r : Nat) (s : State) : Out3 :=
  if 544 ≤ r then .refused .noSuchUnit
  else match (reedOf s r).stores with
    | [] => .next s
    | e :: _ =>
      if timedOut s (reedOf s r) e.tgt e.since then
        .next (storeLeft r (storeFailed r ((e.words.head?.map (·.addr)).getD 0) (popStore r s)))
      else .next s

/-- FAR_STORE_FAIL (R61): a store fails after it has left the reed; one still at the buffer's head leaves it. -/
def execFarStoreFail (r addr : Nat) (s : State) : Out3 :=
  if 544 ≤ r ∨ 2 ^ 48 ≤ addr then .refused .noSuchUnit
  else match (reedOf s r).stores with
    | e :: _ =>
      if e.words.any fun w => w.addr == addr then .next (storeLeft r (storeFailed r addr (popStore r s)))
      else .next (storeFailed r addr s)
    | [] => .next (storeFailed r addr s)

end Sys2Proof.Machine
end

