-- ==== Sys2Proof/Machine/FloatSyl.lean ====
section
/-! DEFINITION. Sys2Proof/Machine/FloatSyl.lean: the V-slot syllables (R74 to R76). Each fetches its word into the bundle of its
reed; what the word does there is `evalOp`. -/

namespace Sys2Proof.Machine

/-- FADD (R131): The FADD syllable adds two floating-point values. -/
def execFadd (r : Nat) (w : W32) (s : State) : Out3 := sylStep (some (.fp .fadd)) r w s

/-- FSUB (R131): The FSUB syllable subtracts two floating-point values. -/
def execFsub (r : Nat) (w : W32) (s : State) : Out3 := sylStep (some (.fp .fsub)) r w s

/-- FMUL (R132): The FMUL syllable multiplies two floating-point values. -/
def execFmul (r : Nat) (w : W32) (s : State) : Out3 := sylStep (some (.fp .fmul)) r w s

/-- FMA (R133): The FMA syllable computes FD + FA × FB with one rounding. -/
def execFma (r : Nat) (w : W32) (s : State) : Out3 := sylStep (some (.fp .fma)) r w s

/-- FMS (R133): The FMS syllable computes FD − FA × FB with one rounding. -/
def execFms (r : Nat) (w : W32) (s : State) : Out3 := sylStep (some (.fp .fms)) r w s

/-- FNEG (R134): The FNEG syllable inverts the sign of FA. -/
def execFneg (r : Nat) (w : W32) (s : State) : Out3 := sylStep (some (.fp .fneg)) r w s

/-- FABS (R134): The FABS syllable clears the sign of FA. -/
def execFabs (r : Nat) (w : W32) (s : State) : Out3 := sylStep (some (.fp .fabs)) r w s

/-- FMIN (R134): The FMIN syllable returns the lesser operand. -/
def execFmin (r : Nat) (w : W32) (s : State) : Out3 := sylStep (some (.fp .fmin)) r w s

/-- FMAX (R134): The FMAX syllable returns the greater operand. -/
def execFmax (r : Nat) (w : W32) (s : State) : Out3 := sylStep (some (.fp .fmax)) r w s

/-- FCEQ (R135): The FCEQ syllable writes a predicate for FA = FB. -/
def execFceq (r : Nat) (w : W32) (s : State) : Out3 := sylStep (some (.fp .fceq)) r w s

/-- FCLT (R135): The FCLT syllable writes a predicate for FA < FB. -/
def execFclt (r : Nat) (w : W32) (s : State) : Out3 := sylStep (some (.fp .fclt)) r w s

/-- FCLE (R135): The FCLE syllable writes a predicate for FA ≤ FB. -/
def execFcle (r : Nat) (w : W32) (s : State) : Out3 := sylStep (some (.fp .fcle)) r w s

/-- FCUN (R135): The FCUN syllable writes a predicate that is true when either operand is NaN. -/
def execFcun (r : Nat) (w : W32) (s : State) : Out3 := sylStep (some (.fp .fcun)) r w s

/-- FCVTD2S (R136): The FCVTD2S syllable converts binary64 to binary32. -/
def execFcvtd2s (r : Nat) (w : W32) (s : State) : Out3 := sylStep (some (.fp .fcvtd2s)) r w s

/-- FCVTS2D (R136): The FCVTS2D syllable converts binary32 to binary64. -/
def execFcvts2d (r : Nat) (w : W32) (s : State) : Out3 := sylStep (some (.fp .fcvts2d)) r w s

/-- FCVTH2S (R136): The FCVTH2S syllable converts binary16 to binary32. -/
def execFcvth2s (r : Nat) (w : W32) (s : State) : Out3 := sylStep (some (.fp .fcvth2s)) r w s

/-- FCVTS2H (R136): The FCVTS2H syllable converts binary32 to binary16. -/
def execFcvts2h (r : Nat) (w : W32) (s : State) : Out3 := sylStep (some (.fp .fcvts2h)) r w s

/-- FCVTF2I (R137): The FCVTF2I syllable converts a floating-point value to int32. -/
def execFcvtf2i (r : Nat) (w : W32) (s : State) : Out3 := sylStep (some (.fp .fcvtf2i)) r w s

/-- FCVTI2F (R137): The FCVTI2F syllable converts an int32 to floating point. -/
def execFcvti2f (r : Nat) (w : W32) (s : State) : Out3 := sylStep (some (.fp .fcvti2f)) r w s

/-- FMOVF2S (R74): The FMOVF2S syllable moves FA[31:0] to an S register. -/
def execFmovf2s (r : Nat) (w : W32) (s : State) : Out3 := sylStep (some (.fp .fmovf2s)) r w s

/-- FMOVS2F (R74): The FMOVS2F syllable moves a zero-extended S register to an F register. -/
def execFmovs2f (r : Nat) (w : W32) (s : State) : Out3 := sylStep (some (.fp .fmovs2f)) r w s

/-- FMOVQ (R110): The FMOVQ syllable moves a Q register to an F register once its tag is valid. -/
def execFmovq (r : Nat) (w : W32) (s : State) : Out3 := sylStep (some (.fp .fmovq)) r w s

/-- FMOV (R74): The FMOV syllable copies all 64 bits of an F register. -/
def execFmov (r : Nat) (w : W32) (s : State) : Out3 := sylStep (some (.fp .fmov)) r w s

/-- VADD (R141): The VADD syllable adds two vectors lane by lane. -/
def execVadd (r : Nat) (w : W32) (s : State) : Out3 := sylStep (some (.vec .vadd)) r w s

/-- VSUB (R141): The VSUB syllable subtracts two vectors lane by lane. -/
def execVsub (r : Nat) (w : W32) (s : State) : Out3 := sylStep (some (.vec .vsub)) r w s

/-- VMUL (R141): The VMUL syllable multiplies two vectors lane by lane. -/
def execVmul (r : Nat) (w : W32) (s : State) : Out3 := sylStep (some (.vec .vmul)) r w s

/-- VFMA (R141): The VFMA syllable computes a fused multiply-add on each binary32 lane. -/
def execVfma (r : Nat) (w : W32) (s : State) : Out3 := sylStep (some (.vec .vfma)) r w s

/-- VMIN (R141): The VMIN syllable takes the minimum of each lane. -/
def execVmin (r : Nat) (w : W32) (s : State) : Out3 := sylStep (some (.vec .vmin)) r w s

/-- VMAX (R141): The VMAX syllable takes the maximum of each lane. -/
def execVmax (r : Nat) (w : W32) (s : State) : Out3 := sylStep (some (.vec .vmax)) r w s

/-- VAND (R75): The VAND syllable ANDs the integer lanes. -/
def execVand (r : Nat) (w : W32) (s : State) : Out3 := sylStep (some (.vec .vand)) r w s

/-- VOR (R75): The VOR syllable ORs the integer lanes. -/
def execVor (r : Nat) (w : W32) (s : State) : Out3 := sylStep (some (.vec .vor)) r w s

/-- VXOR (R75): The VXOR syllable XORs the integer lanes. -/
def execVxor (r : Nat) (w : W32) (s : State) : Out3 := sylStep (some (.vec .vxor)) r w s

/-- VDUP (R75): The VDUP syllable copies one lane of VA to every lane of VD. -/
def execVdup (r : Nat) (w : W32) (s : State) : Out3 := sylStep (some (.vec .vdup)) r w s

/-- FLD_W (R76): The FLD.W syllable loads a double into F[31:0]. -/
def execFldW (r : Nat) (w : W32) (s : State) : Out3 := sylStep (some (.vmem .fldW)) r w s

/-- FLD_Q (R76): The FLD.Q syllable loads a quad into an F register. -/
def execFldQ (r : Nat) (w : W32) (s : State) : Out3 := sylStep (some (.vmem .fldQ)) r w s

/-- VLD (R76): The VLD syllable loads 8 words into a V register. -/
def execVld (r : Nat) (w : W32) (s : State) : Out3 := sylStep (some (.vmem .vld)) r w s

/-- FST_W (R76): The FST.W syllable stores F[31:0] as a double. -/
def execFstW (r : Nat) (w : W32) (s : State) : Out3 := sylStep (some (.vmem .fstW)) r w s

/-- FST_Q (R76): The FST.Q syllable stores an F register as a quad. -/
def execFstQ (r : Nat) (w : W32) (s : State) : Out3 := sylStep (some (.vmem .fstQ)) r w s

/-- VST (R76): The VST syllable stores a V register as 8 words. -/
def execVst (r : Nat) (w : W32) (s : State) : Out3 := sylStep (some (.vmem .vst)) r w s

/-- CLD (R146): The CLD syllable checks a Contour block and decodes four of its samples into a V register. -/
def execCld (r : Nat) (w : W32) (s : State) : Out3 := sylStep (some (.vmem .cld)) r w s

/-- CST (R147): The CST syllable encodes 16 samples as a 17-word Contour block. -/
def execCst (r : Nat) (w : W32) (s : State) : Out3 := sylStep (some (.vmem .cst)) r w s

/-- LVCPY (R143): The LVCPY syllable copies up to 256 32-bit elements between parcels in one atomic bundle. -/
def execLvcpy (r : Nat) (w : W32) (s : State) : Out3 := sylStep (some (.vmem .lvcpy)) r w s

/-- LVADDF (R143): The LVADDF syllable adds up to 256 binary32 elements into a destination in one atomic bundle. -/
def execLvaddf (r : Nat) (w : W32) (s : State) : Out3 := sylStep (some (.vmem .lvaddf)) r w s

end Sys2Proof.Machine
end

