-- ==== Sys2Proof/Machine/FlowSyl.lean ====
section
/-! DEFINITION. Sys2Proof/Machine/FlowSyl.lean: the C-slot syllables (R85 to R87), and words the opcode map leaves undefined (R64, R67). Each fetches its word into the bundle of its
reed; what the word does there is `evalOp`. -/

namespace Sys2Proof.Machine

/-- BR (R85): The BR syllable branches to a relative target. -/
def execBr (r : Nat) (w : W32) (s : State) : Out3 := sylStep (some (.br .br)) r w s

/-- CALL (R153): The CALL syllable pushes the return address and branches. -/
def execCall (r : Nat) (w : W32) (s : State) : Out3 := sylStep (some (.br .call)) r w s

/-- BRI (R85): The BRI syllable branches to the address in Sa. -/
def execBri (r : Nat) (w : W32) (s : State) : Out3 := sylStep (some (.br .bri)) r w s

/-- CALLI (R153): The CALLI syllable pushes the return address and branches to the address in Sa. -/
def execCalli (r : Nat) (w : W32) (s : State) : Out3 := sylStep (some (.br .calli)) r w s

/-- RET (R153): The RET syllable pops the return stack and branches to the popped address. -/
def execRet (r : Nat) (w : W32) (s : State) : Out3 := sylStep (some (.br .ret)) r w s

/-- RFE (R163): The RFE syllable restores the top exception frame, pops it and continues at EPC. -/
def execRfe (r : Nat) (w : W32) (s : State) : Out3 := sylStep (some (.br .rfe)) r w s

/-- LOOP (R154): The LOOP syllable sets up a hardware loop level. -/
def execLoop (r : Nat) (w : W32) (s : State) : Out3 := sylStep (some (.loop .loop)) r w s

/-- REP (R156): The REP syllable repeats the next bundle without preemption. -/
def execRep (r : Nat) (w : W32) (s : State) : Out3 := sylStep (some (.loop .rep)) r w s

/-- REPI (R156): The REPI syllable repeats the next bundle, preemptible between repetitions. -/
def execRepi (r : Nat) (w : W32) (s : State) : Out3 := sylStep (some (.loop .repi)) r w s

/-- NOP (R87): The NOP syllable does nothing. -/
def execNop (r : Nat) (w : W32) (s : State) : Out3 := sylStep (some (.ctl .nop)) r w s

/-- TEND (R168): TEND waits for LOU drain, empties the latency shadow, discards the frames and ends the context's run
for the tide. -/
def execTend (r : Nat) (w : W32) (s : State) : Out3 := sylStep (some (.ctl .tend)) r w s

/-- FLUSHI (R158): The FLUSHI syllable discards the prefetched bundle, invalidates the loop buffer and refetches from
IM. -/
def execFlushi (r : Nat) (w : W32) (s : State) : Out3 := sylStep (some (.ctl .flushi)) r w s

/-- BCHK (R87): The BCHK syllable traps when an index is at or above its bound. -/
def execBchk (r : Nat) (w : W32) (s : State) : Out3 := sylStep (some (.ctl .bchk)) r w s

/-- BREAK (R166): The BREAK syllable traps after its bundle completes, recording its CODE. -/
def execBreak (r : Nat) (w : W32) (s : State) : Out3 := sylStep (some (.ctl .break)) r w s

/-- UNDEFINED_OPCODE (R67): A bundle holding a syllable with an undefined major or minor opcode, such as the
BIST-cleared word 0x0000_0000, raises a precise ILL exception with subcode 0x01 or 0x02. -/
def execUndefinedOpcode (r : Nat) (w : W32) (s : State) : Out3 := sylStep none r w s

end Sys2Proof.Machine
end

