-- ==== Sys2Proof/Machine/LaneSyl.lean ====
section
/-! DEFINITION. Sys2Proof/Machine/LaneSyl.lean: the M-slot syllables (R72, R73). Each fetches its word into the bundle of its
reed; what the word does there is `evalOp`. -/

namespace Sys2Proof.Machine

/-- MAC_S (R90): The MAC.S syllable adds a 16×16 product of the X and Y fetches to An. -/
def execMacS (r : Nat) (w : W32) (s : State) : Out3 := sylStep (some (.mac .macS)) r w s

/-- MAC_D (R90): The MAC.D syllable adds a 32×32 product of the X and Y fetches to An. -/
def execMacD (r : Nat) (w : W32) (s : State) : Out3 := sylStep (some (.mac .macD)) r w s

/-- MSU_S (R90): The MSU.S syllable subtracts a 16×16 product from An. -/
def execMsuS (r : Nat) (w : W32) (s : State) : Out3 := sylStep (some (.mac .msuS)) r w s

/-- MSU_D (R90): The MSU.D syllable subtracts a 32×32 product from An. -/
def execMsuD (r : Nat) (w : W32) (s : State) : Out3 := sylStep (some (.mac .msuD)) r w s

/-- MPA_S (R90): The MPA.S syllable sets An to a 16×16 product. -/
def execMpaS (r : Nat) (w : W32) (s : State) : Out3 := sylStep (some (.mac .mpaS)) r w s

/-- MPA_D (R90): The MPA.D syllable sets An to a 32×32 product. -/
def execMpaD (r : Nat) (w : W32) (s : State) : Out3 := sylStep (some (.mac .mpaD)) r w s

/-- DMAC (R90): The DMAC syllable adds a dual 16×16 product sum to An. -/
def execDmac (r : Nat) (w : W32) (s : State) : Out3 := sylStep (some (.mac .dmac)) r w s

/-- DMSU (R90): The DMSU syllable subtracts a dual 16×16 product sum from An. -/
def execDmsu (r : Nat) (w : W32) (s : State) : Out3 := sylStep (some (.mac .dmsu)) r w s

/-- DMPA (R90): The DMPA syllable sets An to a dual 16×16 product sum. -/
def execDmpa (r : Nat) (w : W32) (s : State) : Out3 := sylStep (some (.mac .dmpa)) r w s

/-- MUL (R96): The MUL syllable forms a signed 32×32 product in Mn. -/
def execMul (r : Nat) (w : W32) (s : State) : Out3 := sylStep (some (.acc .mul)) r w s

/-- MULU (R96): The MULU syllable forms an unsigned 32×32 product in Mn. -/
def execMulu (r : Nat) (w : W32) (s : State) : Out3 := sylStep (some (.acc .mulu)) r w s

/-- ACLR (R96): The ACLR syllable clears An. -/
def execAclr (r : Nat) (w : W32) (s : State) : Out3 := sylStep (some (.acc .aclr)) r w s

/-- ALD (R96): The ALD syllable loads An with a sign-extended S register pair. -/
def execAld (r : Nat) (w : W32) (s : State) : Out3 := sylStep (some (.acc .ald)) r w s

/-- AMOV (R96): The AMOV syllable sets An to sign-extended Mn. -/
def execAmov (r : Nat) (w : W32) (s : State) : Out3 := sylStep (some (.acc .amov)) r w s

/-- AADD (R96): The AADD syllable adds sign-extended Mn to An. -/
def execAadd (r : Nat) (w : W32) (s : State) : Out3 := sylStep (some (.acc .aadd)) r w s

/-- ASUB (R96): The ASUB syllable subtracts sign-extended Mn from An. -/
def execAsub (r : Nat) (w : W32) (s : State) : Out3 := sylStep (some (.acc .asub)) r w s

/-- ANEG (R96): The ANEG syllable negates An. -/
def execAneg (r : Nat) (w : W32) (s : State) : Out3 := sylStep (some (.acc .aneg)) r w s

/-- ASHL (R97): The ASHL syllable shifts An left by an immediate count. -/
def execAshl (r : Nat) (w : W32) (s : State) : Out3 := sylStep (some (.acc .ashl)) r w s

/-- ASHR (R97): The ASHR syllable shifts An right arithmetically by an immediate count. -/
def execAshr (r : Nat) (w : W32) (s : State) : Out3 := sylStep (some (.acc .ashr)) r w s

/-- ALSR (R97): The ALSR syllable shifts An right logically by an immediate count. -/
def execAlsr (r : Nat) (w : W32) (s : State) : Out3 := sylStep (some (.acc .alsr)) r w s

/-- ACC_ASH (R96): The M-ACC ASH syllable shifts An by the signed count in SA. -/
def execAccAsh (r : Nat) (w : W32) (s : State) : Out3 := sylStep (some (.acc .ash)) r w s

end Sys2Proof.Machine
end

