-- ==== Sys2Proof/Machine/Long.lean ====
section
/-! DEFINITION. Sys2Proof/Machine/Long.lean: the Long-Operation Unit at work: retirement, its flags and traps, and the
delivery of held traps (R105 to R114). -/

namespace Sys2Proof.Machine

/-- A reed that goes on issuing bundles has not reached the beat (R107). -/
def tooEarly (x : Reed) (beat : Nat) : Bool := x.running.isSome && x.wait.isNone && decide (x.clock < beat)

/-- An operation retires: its beats of waiting are charged to a context that waits for the LOU, its station frees, and a
held bundle comes to its boundary again (R26, R106, R107). -/
def retire (r u : Nat) (t : Station) (s : State) : State :=
  let x := reedOf s r
  let beat := retireBeat x u t
  let x1 := match waitsLou s r x with
    | some c => addBeats c (beat - x.clock) x
    | none => { x with clock := max x.clock beat }
  let x2 := retireStation u t x1
  if x.wait = some .held then tryIssue r (setReed r { x2 with wait := none } s) else setReed r x2 s

/-- LOU_RETIRE (R107): the operation that unit `u` of a reed works on retires. -/
def execLouRetire (r u : Nat) (s : State) : Out3 :=
  if 544 ≤ r ∨ 5 ≤ u then .refused .noSuchUnit
  else
    let x := reedOf s r
    match unitOp x u with
    | some t =>
      if tooEarly x (retireBeat x u t) || budgetFirst s r x (retireBeat x u t) then .next s else .next (retire r u t s)
    | none => .next s

/-- The exception of a held trap (R112, R162). -/
def HeldTrap.exc (h : HeldTrap) : Exc := { cause := causeLOU, sub := 5, lop := h.lop, qd := h.qd }

/-- The oldest held trap is delivered before the next bundle (R112, R160). -/
def deliverHeld (r c : Nat) (h : HeldTrap) (s : State) : State :=
  let x := reedOf s r
  let k := x.ctxOf c
  let x1 := { x.setCtx c { k with run := { k.run with held := k.run.held.tail } } with latch := [], wait := none }
  takeExc r c h.exc k.run.pc h.fpc k.run.pc (setReed r x1 s)

/-- LOU_TRAP_DELIVERY (R112): a held trap is delivered at a bundle boundary of its running context with no frame in use;
an overrun that is due is taken first (R165). -/
def execLouTrapDelivery (r : Nat) (s : State) : Out3 :=
  if 544 ≤ r then .refused .noSuchUnit
  else
    let x := reedOf s r
    match x.running with
    | none => .next s
    | some c =>
      let k := x.ctxOf c
      match k.run.held with
      | [] => .next s
      | h :: _ =>
        if trapReady k && atBoundary x && !(!holdsOff k && budgetSpent k (bundleAt s r x k.run.pc)) then
          .next (deliverHeld r c h s)
        else .next s

end Sys2Proof.Machine
end

