-- ==== Sys2Proof/Machine/LongSyl.lean ====
section
/-! DEFINITION. Sys2Proof/Machine/LongSyl.lean: the Q-slot syllables (R77). Each fetches its word into the bundle of its
reed; what the word does there is `evalOp`. -/

namespace Sys2Proof.Machine

/-- LMUL (R116): The LMUL syllable issues a signed 32×32 multiply to the LOU. -/
def execLmul (r : Nat) (w : W32) (s : State) : Out3 := sylStep (some (.lou .lmul)) r w s

/-- LMULU (R116): The LMULU syllable issues an unsigned 32×32 multiply to the LOU. -/
def execLmulu (r : Nat) (w : W32) (s : State) : Out3 := sylStep (some (.lou .lmulu)) r w s

/-- LMUL64 (R116): The LMUL64 syllable issues a multiply for the low 64 bits of a 64×64 product. -/
def execLmul64 (r : Nat) (w : W32) (s : State) : Out3 := sylStep (some (.lou .lmul64)) r w s

/-- LMULH64 (R116): The LMULH64 syllable issues a multiply for the high 64 bits of a 64×64 product. -/
def execLmulh64 (r : Nat) (w : W32) (s : State) : Out3 := sylStep (some (.lou .lmulh64)) r w s

/-- LDIV (R117): The LDIV syllable issues a signed divide to the LOU. -/
def execLdiv (r : Nat) (w : W32) (s : State) : Out3 := sylStep (some (.lou .ldiv)) r w s

/-- LDIVU (R117): The LDIVU syllable issues an unsigned divide to the LOU. -/
def execLdivu (r : Nat) (w : W32) (s : State) : Out3 := sylStep (some (.lou .ldivu)) r w s

/-- FDIV (R138): The FDIV syllable issues a floating-point divide to the LOU. -/
def execFdiv (r : Nat) (w : W32) (s : State) : Out3 := sylStep (some (.lou .fdiv)) r w s

/-- FSQRT (R138): The FSQRT syllable issues a floating-point square root to the LOU. -/
def execFsqrt (r : Nat) (w : W32) (s : State) : Out3 := sylStep (some (.lou .fsqrt)) r w s

/-- EXP2 (R139): The EXP2 syllable issues 2^A to the LOU. -/
def execExp2 (r : Nat) (w : W32) (s : State) : Out3 := sylStep (some (.lou .exp2)) r w s

/-- LOG2 (R139): The LOG2 syllable issues log2(A) to the LOU. -/
def execLog2 (r : Nat) (w : W32) (s : State) : Out3 := sylStep (some (.lou .log2)) r w s

/-- SIN2PI (R139): The SIN2PI syllable issues sin(2πA) to the LOU. -/
def execSin2pi (r : Nat) (w : W32) (s : State) : Out3 := sylStep (some (.lou .sin2pi)) r w s

/-- TANH (R139): The TANH syllable issues tanh(A) to the LOU. -/
def execTanh (r : Nat) (w : W32) (s : State) : Out3 := sylStep (some (.lou .tanh)) r w s

/-- RSQRT (R139): The RSQRT syllable issues a reciprocal square root to the LOU. -/
def execRsqrt (r : Nat) (w : W32) (s : State) : Out3 := sylStep (some (.lou .rsqrt)) r w s

/-- BCDADD (R119): The BCDADD syllable issues an 8-digit packed-BCD add to the LOU. -/
def execBcdadd (r : Nat) (w : W32) (s : State) : Out3 := sylStep (some (.lou .bcdadd)) r w s

/-- BCDSUB (R119): The BCDSUB syllable issues an 8-digit packed-BCD subtract to the LOU. -/
def execBcdsub (r : Nat) (w : W32) (s : State) : Out3 := sylStep (some (.lou .bcdsub)) r w s

/-- LBAR (R113): The LBAR bundle issues only when every LOU operation of its context has retired. -/
def execLbar (r : Nat) (w : W32) (s : State) : Out3 := sylStep (some (.lou .lbar)) r w s

end Sys2Proof.Machine
end

