-- ==== Sys2Proof/Machine/ScalarSyl.lean ====
section
/-! DEFINITION. Sys2Proof/Machine/ScalarSyl.lean: the S-slot syllables (R78 to R82). Each fetches its word into the bundle of its
reed; what the word does there is `evalOp`. -/

namespace Sys2Proof.Machine

/-- LD_S (R78): The LD.S syllable loads a sign-extended single. -/
def execLdS (r : Nat) (w : W32) (s : State) : Out3 := sylStep (some (.smem .ldS)) r w s

/-- LD_SU (R78): The LD.SU syllable loads a zero-extended single. -/
def execLdSu (r : Nat) (w : W32) (s : State) : Out3 := sylStep (some (.smem .ldSu)) r w s

/-- LD_D (R78): The LD.D syllable loads a double into an S register. -/
def execLdD (r : Nat) (w : W32) (s : State) : Out3 := sylStep (some (.smem .ldD)) r w s

/-- LD_Q (R78): The LD.Q syllable loads a quad into an S register pair. -/
def execLdQ (r : Nat) (w : W32) (s : State) : Out3 := sylStep (some (.smem .ldQ)) r w s

/-- ST_S (R78): The ST.S syllable stores a single. -/
def execStS (r : Nat) (w : W32) (s : State) : Out3 := sylStep (some (.smem .stS)) r w s

/-- ST_D (R78): The ST.D syllable stores a double. -/
def execStD (r : Nat) (w : W32) (s : State) : Out3 := sylStep (some (.smem .stD)) r w s

/-- ST_Q (R78): The ST.Q syllable stores an S register pair as a quad. -/
def execStQ (r : Nat) (w : W32) (s : State) : Out3 := sylStep (some (.smem .stQ)) r w s

/-- STA_S (R94): The STA.S syllable stores An shifted and saturated to 16 bits. -/
def execStaS (r : Nat) (w : W32) (s : State) : Out3 := sylStep (some (.smem .staS)) r w s

/-- STA_D (R94): The STA.D syllable stores An shifted and saturated to 32 bits. -/
def execStaD (r : Nat) (w : W32) (s : State) : Out3 := sylStep (some (.smem .staD)) r w s

/-- LDB (R78): The LDB syllable loads a sign-extended byte. -/
def execLdb (r : Nat) (w : W32) (s : State) : Out3 := sylStep (some (.svy .ldb)) r w s

/-- LDBU (R78): The LDBU syllable loads a zero-extended byte. -/
def execLdbu (r : Nat) (w : W32) (s : State) : Out3 := sylStep (some (.svy .ldbu)) r w s

/-- LDH (R78): The LDH syllable loads a sign-extended half-word. -/
def execLdh (r : Nat) (w : W32) (s : State) : Out3 := sylStep (some (.svy .ldh)) r w s

/-- LDHU (R78): The LDHU syllable loads a zero-extended half-word. -/
def execLdhu (r : Nat) (w : W32) (s : State) : Out3 := sylStep (some (.svy .ldhu)) r w s

/-- LDW (R78): The LDW syllable loads a word. -/
def execLdw (r : Nat) (w : W32) (s : State) : Out3 := sylStep (some (.svy .ldw)) r w s

/-- STB (R78): The STB syllable stores a byte. -/
def execStb (r : Nat) (w : W32) (s : State) : Out3 := sylStep (some (.svy .stb)) r w s

/-- STH (R78): The STH syllable stores a half-word. -/
def execSth (r : Nat) (w : W32) (s : State) : Out3 := sylStep (some (.svy .sth)) r w s

/-- STW (R78): The STW syllable stores a word. -/
def execStw (r : Nat) (w : W32) (s : State) : Out3 := sylStep (some (.svy .stw)) r w s

/-- ADD (R98): The ADD syllable adds with wrap and sets OV on overflow. -/
def execAdd (r : Nat) (w : W32) (s : State) : Out3 := sylStep (some (.alu .add)) r w s

/-- SUB (R98): The SUB syllable subtracts with wrap and sets OV on overflow. -/
def execSub (r : Nat) (w : W32) (s : State) : Out3 := sylStep (some (.alu .sub)) r w s

/-- ADDS (R98): The ADDS syllable adds with saturation. -/
def execAdds (r : Nat) (w : W32) (s : State) : Out3 := sylStep (some (.alu .adds)) r w s

/-- SUBS (R98): The SUBS syllable subtracts with saturation. -/
def execSubs (r : Nat) (w : W32) (s : State) : Out3 := sylStep (some (.alu .subs)) r w s

/-- NEG (R98): The NEG syllable negates with wrap. -/
def execNeg (r : Nat) (w : W32) (s : State) : Out3 := sylStep (some (.alu .neg)) r w s

/-- NEGS (R98): The NEGS syllable negates with saturation. -/
def execNegs (r : Nat) (w : W32) (s : State) : Out3 := sylStep (some (.alu .negs)) r w s

/-- AND (R79): The AND syllable ANDs two operands. -/
def execAnd (r : Nat) (w : W32) (s : State) : Out3 := sylStep (some (.alu .and)) r w s

/-- OR (R79): The OR syllable ORs two operands. -/
def execOr (r : Nat) (w : W32) (s : State) : Out3 := sylStep (some (.alu .or)) r w s

/-- XOR (R79): The XOR syllable XORs two operands. -/
def execXor (r : Nat) (w : W32) (s : State) : Out3 := sylStep (some (.alu .xor)) r w s

/-- NOT (R79): The NOT syllable inverts an operand. -/
def execNot (r : Nat) (w : W32) (s : State) : Out3 := sylStep (some (.alu .not)) r w s

/-- LSL (R99): The LSL syllable shifts left. -/
def execLsl (r : Nat) (w : W32) (s : State) : Out3 := sylStep (some (.alu .lsl)) r w s

/-- LSR (R99): The LSR syllable shifts right logically. -/
def execLsr (r : Nat) (w : W32) (s : State) : Out3 := sylStep (some (.alu .lsr)) r w s

/-- ASR (R99): The ASR syllable shifts right arithmetically. -/
def execAsr (r : Nat) (w : W32) (s : State) : Out3 := sylStep (some (.alu .asr)) r w s

/-- ASH (R99): The S-ALU ASH syllable shifts by a signed count. -/
def execAsh (r : Nat) (w : W32) (s : State) : Out3 := sylStep (some (.alu .ash)) r w s

/-- MIN (R79): The MIN syllable takes the signed minimum. -/
def execMin (r : Nat) (w : W32) (s : State) : Out3 := sylStep (some (.alu .min)) r w s

/-- MAX (R79): The MAX syllable takes the signed maximum. -/
def execMax (r : Nat) (w : W32) (s : State) : Out3 := sylStep (some (.alu .max)) r w s

/-- MINU (R79): The MINU syllable takes the unsigned minimum. -/
def execMinu (r : Nat) (w : W32) (s : State) : Out3 := sylStep (some (.alu .minu)) r w s

/-- MAXU (R79): The MAXU syllable takes the unsigned maximum. -/
def execMaxu (r : Nat) (w : W32) (s : State) : Out3 := sylStep (some (.alu .maxu)) r w s

/-- CMPEQ (R79): The CMPEQ syllable writes a predicate for equality. -/
def execCmpeq (r : Nat) (w : W32) (s : State) : Out3 := sylStep (some (.alu .cmpeq)) r w s

/-- CMPNE (R79): The CMPNE syllable writes a predicate for inequality. -/
def execCmpne (r : Nat) (w : W32) (s : State) : Out3 := sylStep (some (.alu .cmpne)) r w s

/-- CMPLT (R79): The CMPLT syllable writes a predicate for signed less-than. -/
def execCmplt (r : Nat) (w : W32) (s : State) : Out3 := sylStep (some (.alu .cmplt)) r w s

/-- CMPGE (R79): The CMPGE syllable writes a predicate for signed greater-or-equal. -/
def execCmpge (r : Nat) (w : W32) (s : State) : Out3 := sylStep (some (.alu .cmpge)) r w s

/-- CMPLTU (R79): The CMPLTU syllable writes a predicate for unsigned less-than. -/
def execCmpltu (r : Nat) (w : W32) (s : State) : Out3 := sylStep (some (.alu .cmpltu)) r w s

/-- CMPGEU (R79): The CMPGEU syllable writes a predicate for unsigned greater-or-equal. -/
def execCmpgeu (r : Nat) (w : W32) (s : State) : Out3 := sylStep (some (.alu .cmpgeu)) r w s

/-- MOV (R79): The MOV syllable copies a register or a 6-bit immediate. -/
def execMov (r : Nat) (w : W32) (s : State) : Out3 := sylStep (some (.alu .mov)) r w s

/-- PAND (R79): The PAND syllable ANDs two predicates. -/
def execPand (r : Nat) (w : W32) (s : State) : Out3 := sylStep (some (.alu .pand)) r w s

/-- POR (R79): The POR syllable ORs two predicates. -/
def execPor (r : Nat) (w : W32) (s : State) : Out3 := sylStep (some (.alu .por)) r w s

/-- PNOT (R79): The PNOT syllable inverts a predicate. -/
def execPnot (r : Nat) (w : W32) (s : State) : Out3 := sylStep (some (.alu .pnot)) r w s

/-- MOVI (R80): The MOVI syllable loads a 16-bit immediate into all or the top half of an S register. -/
def execMovi (r : Nat) (w : W32) (s : State) : Out3 := sylStep (some (.mov .movi)) r w s

/-- MOVQ (R80): The MOVQ syllable moves half of a Q register to an S register once its tag is valid. -/
def execMovq (r : Nat) (w : W32) (s : State) : Out3 := sylStep (some (.mov .movq)) r w s

/-- MVA (R94): The MVA syllable moves An shifted and saturated to an S register. -/
def execMva (r : Nat) (w : W32) (s : State) : Out3 := sylStep (some (.mov .mva)) r w s

/-- MVM (R80): The MVM syllable moves half of Mn to an S register. -/
def execMvm (r : Nat) (w : W32) (s : State) : Out3 := sylStep (some (.mov .mvm)) r w s

/-- RDSR (R81): The RDSR syllable reads a special register. -/
def execRdsr (r : Nat) (w : W32) (s : State) : Out3 := sylStep (some (.mov .rdsr)) r w s

/-- WRSR (R81): The WRSR syllable writes a special register. -/
def execWrsr (r : Nat) (w : W32) (s : State) : Out3 := sylStep (some (.mov .wrsr)) r w s

/-- RPD (R80): The RPD syllable reads a quarter of a live parcel descriptor. -/
def execRpd (r : Nat) (w : W32) (s : State) : Out3 := sylStep (some (.mov .rpd)) r w s

/-- WPD (R82): The WPD syllable writes a quarter of the staging register and, with QW = 3, commits it to PDn. -/
def execWpd (r : Nat) (w : W32) (s : State) : Out3 := sylStep (some (.mov .wpd)) r w s

end Sys2Proof.Machine
end

