-- ==== Sys2Proof/Machine/Dispatch.lean ====
section
/-! DEFINITION. Sys2Proof/Machine/Dispatch.lean: the meaning of each command, one arm for each constructor. -/

namespace Sys2Proof.Machine

/-- The effect of a command on everything but the queue. -/
def exec (i : Instr) (s : State) : Host.Outcome State Fault Refusal :=
  match i with
  | .powerGood sheet testen => Sys2Proof.Machine.execPowerGood sheet testen s
  | .sysPwrgdFall => Sys2Proof.Machine.execSysPwrgdFall s
  | .stateReqStartup ag key => Sys2Proof.Machine.execStateReqStartup ag key s
  | .stateReqTest ag key => Sys2Proof.Machine.execStateReqTest ag key s
  | .stateReqService ag key => Sys2Proof.Machine.execStateReqService ag key s
  | .stateReqRecovery ag key => Sys2Proof.Machine.execStateReqRecovery ag key s
  | .stateReqTussock ag key => Sys2Proof.Machine.execStateReqTussock ag key s
  | .stateReqDormant ag key => Sys2Proof.Machine.execStateReqDormant ag key s
  | .stateTransitionComplete => Sys2Proof.Machine.execStateTransitionComplete s
  | .meshRouterFail => Sys2Proof.Machine.execMeshRouterFail s
  | .surveyorMemoryUe held => Sys2Proof.Machine.execSurveyorMemoryUe held s
  | .queueTableUe macroNo row => Sys2Proof.Machine.execQueueTableUe macroNo row s
  | .recActiveClear => Sys2Proof.Machine.execRecActiveClear s
  | .tdEnWrite ag v => Sys2Proof.Machine.execTdEnWrite ag v s
  | .tideBoundary => Sys2Proof.Machine.execTideBoundary s
  | .ttDataHiWrite ag r v => Sys2Proof.Machine.execTtDataHiWrite ag r v s
  | .swapRequest ag r d => Sys2Proof.Machine.execSwapRequest ag r d s
  | .runSet ag r => Sys2Proof.Machine.execRunSet ag r s
  | .runClear ag r => Sys2Proof.Machine.execRunClear ag r s
  | .wmclr ag r => Sys2Proof.Machine.execWmclr ag r s
  | .ctxRestart ag r n => Sys2Proof.Machine.execCtxRestart ag r n s
  | .contextStart r d => Sys2Proof.Machine.execContextStart r d s
  | .contextResume r => Sys2Proof.Machine.execContextResume r s
  | .overrunBudget r => Sys2Proof.Machine.execOverrunBudget r s
  | .overrunDeadline r c => Sys2Proof.Machine.execOverrunDeadline r c s
  | .overrunStart r d j => Sys2Proof.Machine.execOverrunStart r d j s
  | .entryPassedOver r d j => Sys2Proof.Machine.execEntryPassedOver r d j s
  | .paceWindow r pace => Sys2Proof.Machine.execPaceWindow r pace s
  | .paceLoopAdjust r pace => Sys2Proof.Machine.execPaceLoopAdjust r pace s
  | .fastRaise r pace => Sys2Proof.Machine.execFastRaise r pace s
  | .pkgPowerWindow power => Sys2Proof.Machine.execPkgPowerWindow power s
  | .pdData3Write ag r v => Sys2Proof.Machine.execPdData3Write ag r v s
  | .farReadData r data ok => Sys2Proof.Machine.execFarReadData r data ok s
  | .farReadTimeout r => Sys2Proof.Machine.execFarReadTimeout r s
  | .farReadLate r => Sys2Proof.Machine.execFarReadLate r s
  | .farStoreArrival r => Sys2Proof.Machine.execFarStoreArrival r s
  | .farStoreTimeout r => Sys2Proof.Machine.execFarStoreTimeout r s
  | .farStoreFail r addr => Sys2Proof.Machine.execFarStoreFail r addr s
  | .macS r w => Sys2Proof.Machine.execMacS r w s
  | .macD r w => Sys2Proof.Machine.execMacD r w s
  | .msuS r w => Sys2Proof.Machine.execMsuS r w s
  | .msuD r w => Sys2Proof.Machine.execMsuD r w s
  | .mpaS r w => Sys2Proof.Machine.execMpaS r w s
  | .mpaD r w => Sys2Proof.Machine.execMpaD r w s
  | .dmac r w => Sys2Proof.Machine.execDmac r w s
  | .dmsu r w => Sys2Proof.Machine.execDmsu r w s
  | .dmpa r w => Sys2Proof.Machine.execDmpa r w s
  | .mul r w => Sys2Proof.Machine.execMul r w s
  | .mulu r w => Sys2Proof.Machine.execMulu r w s
  | .aclr r w => Sys2Proof.Machine.execAclr r w s
  | .ald r w => Sys2Proof.Machine.execAld r w s
  | .amov r w => Sys2Proof.Machine.execAmov r w s
  | .aadd r w => Sys2Proof.Machine.execAadd r w s
  | .asub r w => Sys2Proof.Machine.execAsub r w s
  | .aneg r w => Sys2Proof.Machine.execAneg r w s
  | .ashl r w => Sys2Proof.Machine.execAshl r w s
  | .ashr r w => Sys2Proof.Machine.execAshr r w s
  | .alsr r w => Sys2Proof.Machine.execAlsr r w s
  | .accAsh r w => Sys2Proof.Machine.execAccAsh r w s
  | .fadd r w => Sys2Proof.Machine.execFadd r w s
  | .fsub r w => Sys2Proof.Machine.execFsub r w s
  | .fmul r w => Sys2Proof.Machine.execFmul r w s
  | .fma r w => Sys2Proof.Machine.execFma r w s
  | .fms r w => Sys2Proof.Machine.execFms r w s
  | .fneg r w => Sys2Proof.Machine.execFneg r w s
  | .fabs r w => Sys2Proof.Machine.execFabs r w s
  | .fmin r w => Sys2Proof.Machine.execFmin r w s
  | .fmax r w => Sys2Proof.Machine.execFmax r w s
  | .fceq r w => Sys2Proof.Machine.execFceq r w s
  | .fclt r w => Sys2Proof.Machine.execFclt r w s
  | .fcle r w => Sys2Proof.Machine.execFcle r w s
  | .fcun r w => Sys2Proof.Machine.execFcun r w s
  | .fcvtd2s r w => Sys2Proof.Machine.execFcvtd2s r w s
  | .fcvts2d r w => Sys2Proof.Machine.execFcvts2d r w s
  | .fcvth2s r w => Sys2Proof.Machine.execFcvth2s r w s
  | .fcvts2h r w => Sys2Proof.Machine.execFcvts2h r w s
  | .fcvtf2i r w => Sys2Proof.Machine.execFcvtf2i r w s
  | .fcvti2f r w => Sys2Proof.Machine.execFcvti2f r w s
  | .fmovf2s r w => Sys2Proof.Machine.execFmovf2s r w s
  | .fmovs2f r w => Sys2Proof.Machine.execFmovs2f r w s
  | .fmovq r w => Sys2Proof.Machine.execFmovq r w s
  | .fmov r w => Sys2Proof.Machine.execFmov r w s
  | .vadd r w => Sys2Proof.Machine.execVadd r w s
  | .vsub r w => Sys2Proof.Machine.execVsub r w s
  | .vmul r w => Sys2Proof.Machine.execVmul r w s
  | .vfma r w => Sys2Proof.Machine.execVfma r w s
  | .vmin r w => Sys2Proof.Machine.execVmin r w s
  | .vmax r w => Sys2Proof.Machine.execVmax r w s
  | .vand r w => Sys2Proof.Machine.execVand r w s
  | .vor r w => Sys2Proof.Machine.execVor r w s
  | .vxor r w => Sys2Proof.Machine.execVxor r w s
  | .vdup r w => Sys2Proof.Machine.execVdup r w s
  | .fldW r w => Sys2Proof.Machine.execFldW r w s
  | .fldQ r w => Sys2Proof.Machine.execFldQ r w s
  | .vld r w => Sys2Proof.Machine.execVld r w s
  | .fstW r w => Sys2Proof.Machine.execFstW r w s
  | .fstQ r w => Sys2Proof.Machine.execFstQ r w s
  | .vst r w => Sys2Proof.Machine.execVst r w s
  | .cld r w => Sys2Proof.Machine.execCld r w s
  | .cst r w => Sys2Proof.Machine.execCst r w s
  | .lvcpy r w => Sys2Proof.Machine.execLvcpy r w s
  | .lvaddf r w => Sys2Proof.Machine.execLvaddf r w s
  | .lmul r w => Sys2Proof.Machine.execLmul r w s
  | .lmulu r w => Sys2Proof.Machine.execLmulu r w s
  | .lmul64 r w => Sys2Proof.Machine.execLmul64 r w s
  | .lmulh64 r w => Sys2Proof.Machine.execLmulh64 r w s
  | .ldiv r w => Sys2Proof.Machine.execLdiv r w s
  | .ldivu r w => Sys2Proof.Machine.execLdivu r w s
  | .fdiv r w => Sys2Proof.Machine.execFdiv r w s
  | .fsqrt r w => Sys2Proof.Machine.execFsqrt r w s
  | .exp2 r w => Sys2Proof.Machine.execExp2 r w s
  | .log2 r w => Sys2Proof.Machine.execLog2 r w s
  | .sin2pi r w => Sys2Proof.Machine.execSin2pi r w s
  | .tanh r w => Sys2Proof.Machine.execTanh r w s
  | .rsqrt r w => Sys2Proof.Machine.execRsqrt r w s
  | .bcdadd r w => Sys2Proof.Machine.execBcdadd r w s
  | .bcdsub r w => Sys2Proof.Machine.execBcdsub r w s
  | .lbar r w => Sys2Proof.Machine.execLbar r w s
  | .louRetire r u => Sys2Proof.Machine.execLouRetire r u s
  | .louTrapDelivery r => Sys2Proof.Machine.execLouTrapDelivery r s
  | .ldS r w => Sys2Proof.Machine.execLdS r w s
  | .ldSu r w => Sys2Proof.Machine.execLdSu r w s
  | .ldD r w => Sys2Proof.Machine.execLdD r w s
  | .ldQ r w => Sys2Proof.Machine.execLdQ r w s
  | .stS r w => Sys2Proof.Machine.execStS r w s
  | .stD r w => Sys2Proof.Machine.execStD r w s
  | .stQ r w => Sys2Proof.Machine.execStQ r w s
  | .staS r w => Sys2Proof.Machine.execStaS r w s
  | .staD r w => Sys2Proof.Machine.execStaD r w s
  | .ldb r w => Sys2Proof.Machine.execLdb r w s
  | .ldbu r w => Sys2Proof.Machine.execLdbu r w s
  | .ldh r w => Sys2Proof.Machine.execLdh r w s
  | .ldhu r w => Sys2Proof.Machine.execLdhu r w s
  | .ldw r w => Sys2Proof.Machine.execLdw r w s
  | .stb r w => Sys2Proof.Machine.execStb r w s
  | .sth r w => Sys2Proof.Machine.execSth r w s
  | .stw r w => Sys2Proof.Machine.execStw r w s
  | .add r w => Sys2Proof.Machine.execAdd r w s
  | .sub r w => Sys2Proof.Machine.execSub r w s
  | .adds r w => Sys2Proof.Machine.execAdds r w s
  | .subs r w => Sys2Proof.Machine.execSubs r w s
  | .neg r w => Sys2Proof.Machine.execNeg r w s
  | .negs r w => Sys2Proof.Machine.execNegs r w s
  | .and r w => Sys2Proof.Machine.execAnd r w s
  | .or r w => Sys2Proof.Machine.execOr r w s
  | .xor r w => Sys2Proof.Machine.execXor r w s
  | .not r w => Sys2Proof.Machine.execNot r w s
  | .lsl r w => Sys2Proof.Machine.execLsl r w s
  | .lsr r w => Sys2Proof.Machine.execLsr r w s
  | .asr r w => Sys2Proof.Machine.execAsr r w s
  | .ash r w => Sys2Proof.Machine.execAsh r w s
  | .min r w => Sys2Proof.Machine.execMin r w s
  | .max r w => Sys2Proof.Machine.execMax r w s
  | .minu r w => Sys2Proof.Machine.execMinu r w s
  | .maxu r w => Sys2Proof.Machine.execMaxu r w s
  | .cmpeq r w => Sys2Proof.Machine.execCmpeq r w s
  | .cmpne r w => Sys2Proof.Machine.execCmpne r w s
  | .cmplt r w => Sys2Proof.Machine.execCmplt r w s
  | .cmpge r w => Sys2Proof.Machine.execCmpge r w s
  | .cmpltu r w => Sys2Proof.Machine.execCmpltu r w s
  | .cmpgeu r w => Sys2Proof.Machine.execCmpgeu r w s
  | .mov r w => Sys2Proof.Machine.execMov r w s
  | .pand r w => Sys2Proof.Machine.execPand r w s
  | .por r w => Sys2Proof.Machine.execPor r w s
  | .pnot r w => Sys2Proof.Machine.execPnot r w s
  | .movi r w => Sys2Proof.Machine.execMovi r w s
  | .movq r w => Sys2Proof.Machine.execMovq r w s
  | .mva r w => Sys2Proof.Machine.execMva r w s
  | .mvm r w => Sys2Proof.Machine.execMvm r w s
  | .rdsr r w => Sys2Proof.Machine.execRdsr r w s
  | .wrsr r w => Sys2Proof.Machine.execWrsr r w s
  | .rpd r w => Sys2Proof.Machine.execRpd r w s
  | .wpd r w => Sys2Proof.Machine.execWpd r w s
  | .br r w => Sys2Proof.Machine.execBr r w s
  | .call r w => Sys2Proof.Machine.execCall r w s
  | .bri r w => Sys2Proof.Machine.execBri r w s
  | .calli r w => Sys2Proof.Machine.execCalli r w s
  | .ret r w => Sys2Proof.Machine.execRet r w s
  | .rfe r w => Sys2Proof.Machine.execRfe r w s
  | .loop r w => Sys2Proof.Machine.execLoop r w s
  | .rep r w => Sys2Proof.Machine.execRep r w s
  | .repi r w => Sys2Proof.Machine.execRepi r w s
  | .nop r w => Sys2Proof.Machine.execNop r w s
  | .tend r w => Sys2Proof.Machine.execTend r w s
  | .flushi r w => Sys2Proof.Machine.execFlushi r w s
  | .bchk r w => Sys2Proof.Machine.execBchk r w s
  | .break r w => Sys2Proof.Machine.execBreak r w s
  | .tsCfgWrite ag b v => Sys2Proof.Machine.execTsCfgWrite ag b v s
  | .poolScrub b ce => Sys2Proof.Machine.execPoolScrub b ce s
  | .hbmScrub p ce => Sys2Proof.Machine.execHbmScrub p ce s
  | .refreshRateRaised stack temp => Sys2Proof.Machine.execRefreshRateRaised stack temp s
  | .selfRefreshEntry => Sys2Proof.Machine.execSelfRefreshEntry s
  | .bisnpResponse line dirty => Sys2Proof.Machine.execBisnpResponse line dirty s
  | .hbmEccWindow page ce => Sys2Proof.Machine.execHbmEccWindow page ce s
  | .pageReback page => Sys2Proof.Machine.execPageReback page s
  | .sdCommit ag b v => Sys2Proof.Machine.execSdCommit ag b v s
  | .start b entry => Sys2Proof.Machine.execStart b entry s
  | .stop b entry => Sys2Proof.Machine.execStop b entry s
  | .resume b entry => Sys2Proof.Machine.execResume b entry s
  | .setrate b entry => Sys2Proof.Machine.execSetrate b entry s
  | .keyload b entry => Sys2Proof.Machine.execKeyload b entry s
  | .gather b entry => Sys2Proof.Machine.execGather b entry s
  | .fence b entry => Sys2Proof.Machine.execFence b entry s
  | .fenceComplete b => Sys2Proof.Machine.execFenceComplete b s
  | .badcmd b entry => Sys2Proof.Machine.execBadcmd b entry s
  | .ringWindowResident b ix => Sys2Proof.Machine.execRingWindowResident b ix s
  | .sluiceRequestIssue b ix rq line => Sys2Proof.Machine.execSluiceRequestIssue b ix rq line s
  | .sluiceRequestData b rq data ok => Sys2Proof.Machine.execSluiceRequestData b rq data ok s
  | .sluiceRequestTimeout b rq => Sys2Proof.Machine.execSluiceRequestTimeout b rq s
  | .sluiceLateArrival b k => Sys2Proof.Machine.execSluiceLateArrival b k s
  | .slcLoadWindow b load => Sys2Proof.Machine.execSlcLoadWindow b load s
  | .engineSelfcheckFail b => Sys2Proof.Machine.execEngineSelfcheckFail b s
  | .aspEnable ag n v => Sys2Proof.Machine.execAspEnable ag n v s
  | .aspDisable ag n v => Sys2Proof.Machine.execAspDisable ag n v s
  | .aspFrameStart n => Sys2Proof.Machine.execAspFrameStart n s
  | .aspSlaveFrameStart n periods => Sys2Proof.Machine.execAspSlaveFrameStart n periods s
  | .aspSlotIngress n k v => Sys2Proof.Machine.execAspSlotIngress n k v s
  | .aspSlotEmit n k => Sys2Proof.Machine.execAspSlotEmit n k s
  | .aspStagingLoad n k => Sys2Proof.Machine.execAspStagingLoad n k s
  | .aspClockLoss n => Sys2Proof.Machine.execAspClockLoss n s
  | .aspLossZeroWrite n k => Sys2Proof.Machine.execAspLossZeroWrite n k s
  | .slotmapWrite ag n k v => Sys2Proof.Machine.execSlotmapWrite ag n k v s
  | .oslotmapWrite ag n k v => Sys2Proof.Machine.execOslotmapWrite ag n k v s
  | .aspLoopCtrlWrite ag n depth => Sys2Proof.Machine.execAspLoopCtrlWrite ag n depth s
  | .sspEnable ag n => Sys2Proof.Machine.execSspEnable ag n s
  | .sspDisable ag n => Sys2Proof.Machine.execSspDisable ag n s
  | .sspMatrixStep n => Sys2Proof.Machine.execSspMatrixStep n s
  | .sspMatrixSample n vals => Sys2Proof.Machine.execSspMatrixSample n vals s
  | .sspConversionComplete n => Sys2Proof.Machine.execSspConversionComplete n s
  | .sspAdcPass n => Sys2Proof.Machine.execSspAdcPass n s
  | .sspAdcWord n v => Sys2Proof.Machine.execSspAdcWord n v s
  | .midiRxFrame n b stop tick => Sys2Proof.Machine.execMidiRxFrame n b stop tick s
  | .midiTx ag n b => Sys2Proof.Machine.execMidiTx ag n b s
  | .midiTxFrameSent n => Sys2Proof.Machine.execMidiTxFrameSent n s
  | .smapWrite ag n ix v => Sys2Proof.Machine.execSmapWrite ag n ix v s
  | .sspLoopCtrlWrite ag n depth => Sys2Proof.Machine.execSspLoopCtrlWrite ag n depth s
  | .tcuStep c => Sys2Proof.Machine.execTcuStep c s
  | .tcuMatch c => Sys2Proof.Machine.execTcuMatch c s
  | .tcuOvf c => Sys2Proof.Machine.execTcuOvf c s
  | .tcuAction c => Sys2Proof.Machine.execTcuAction c s
  | .tcuPairCarry c => Sys2Proof.Machine.execTcuPairCarry c s
  | .tcuStart ag c => Sys2Proof.Machine.execTcuStart ag c s
  | .tcuStop ag c => Sys2Proof.Machine.execTcuStop ag c s
  | .tcuReset ag c => Sys2Proof.Machine.execTcuReset ag c s
  | .tcuCntWrite ag c v => Sys2Proof.Machine.execTcuCntWrite ag c v s
  | .tcuCmpWrite ag c v => Sys2Proof.Machine.execTcuCmpWrite ag c v s
  | .capselWrite ag j v level => Sys2Proof.Machine.execCapselWrite ag j v level s
  | .captureEvent j => Sys2Proof.Machine.execCaptureEvent j s
  | .qmgCommit ag => Sys2Proof.Machine.execQmgCommit ag s
  | .qmgDisable ag => Sys2Proof.Machine.execQmgDisable ag s
  | .qmgRead ag => Sys2Proof.Machine.execQmgRead ag s
  | .qmgAdvance ag => Sys2Proof.Machine.execQmgAdvance ag s
  | .doorbellWrite q v => Sys2Proof.Machine.execDoorbellWrite q v s
  | .moderationExpiry q => Sys2Proof.Machine.execModerationExpiry q s
  | .msixMaskClear v => Sys2Proof.Machine.execMsixMaskClear v s
  | .msixEnable => Sys2Proof.Machine.execMsixEnable s
  | .swtrig ag v => Sys2Proof.Machine.execSwtrig ag v s
  | .srcCfgWrite ag v => Sys2Proof.Machine.execSrcCfgWrite ag v s
  | .eventCommit => Sys2Proof.Machine.execEventCommit s
  | .svClaim ag n => Sys2Proof.Machine.execSvClaim ag n s
  | .eoi ag n prio => Sys2Proof.Machine.execEoi ag n prio s
  | .eoiForce ag n => Sys2Proof.Machine.execEoiForce ag n s
  | .linkTrained width rate alt => Sys2Proof.Machine.execLinkTrained width rate alt s
  | .l0pWidthChange width => Sys2Proof.Machine.execL0pWidthChange width s
  | .l1Entry => Sys2Proof.Machine.execL1Entry s
  | .l2Entry => Sys2Proof.Machine.execL2Entry s
  | .perstAssert => Sys2Proof.Machine.execPerstAssert s
  | .perstDeassert => Sys2Proof.Machine.execPerstDeassert s
  | .hotReset => Sys2Proof.Machine.execHotReset s
  | .linkDown => Sys2Proof.Machine.execLinkDown s
  | .flr => Sys2Proof.Machine.execFlr s
  | .cxlReset => Sys2Proof.Machine.execCxlReset s
  | .dStateChange d => Sys2Proof.Machine.execDStateChange d s
  | .hdmCommit k base size skip ways => Sys2Proof.Machine.execHdmCommit k base size skip ways s
  | .cxlMemRead dpa keep => Sys2Proof.Machine.execCxlMemRead dpa keep s
  | .cxlMemWrite dpa data mask poison keep => Sys2Proof.Machine.execCxlMemWrite dpa data mask poison keep s
  | .uioAccess write dpa data mask => Sys2Proof.Machine.execUioAccess write dpa data mask s
  | .hostSnoop hpa => Sys2Proof.Machine.execHostSnoop hpa s
  | .hostReadCompletion k data ok => Sys2Proof.Machine.execHostReadCompletion k data ok s
  | .hostRequestTimeout k => Sys2Proof.Machine.execHostRequestTimeout k s
  | .doeRequest inst type => Sys2Proof.Machine.execDoeRequest inst type s
  | .doeAbort inst => Sys2Proof.Machine.execDoeAbort inst s
  | .spdmRequest code => Sys2Proof.Machine.execSpdmRequest code s
  | .lkekInstall key gen => Sys2Proof.Machine.execLkekInstall key gen s
  | .ideKmKey n => Sys2Proof.Machine.execIdeKmKey n s
  | .ideIntegrityFail n => Sys2Proof.Machine.execIdeIntegrityFail n s
  | .cxlLoopbackStart ag v => Sys2Proof.Machine.execCxlLoopbackStart ag v s
  | .cxlLoopbackEnd errs formed => Sys2Proof.Machine.execCxlLoopbackEnd errs formed s
  | .atlasJoin ag => Sys2Proof.Machine.execAtlasJoin ag s
  | .atlasLeave ag => Sys2Proof.Machine.execAtlasLeave ag s
  | .cwlEnable ag l => Sys2Proof.Machine.execCwlEnable ag l s
  | .cwlDisable ag l => Sys2Proof.Machine.execCwlDisable ag l s
  | .cwlRetrain ag l => Sys2Proof.Machine.execCwlRetrain ag l s
  | .cwlTrained l peerCfg psheet plink => Sys2Proof.Machine.execCwlTrained l peerCfg psheet plink s
  | .miswiredRetry l => Sys2Proof.Machine.execMiswiredRetry l s
  | .ctrlFlit l header body => Sys2Proof.Machine.execCtrlFlit l header body s
  | .nakFlit l header body => Sys2Proof.Machine.execNakFlit l header body s
  | .hbFlit l header body frac => Sys2Proof.Machine.execHbFlit l header body frac s
  | .audioFlit l header body => Sys2Proof.Machine.execAudioFlit l header body s
  | .memrdFlit l header body => Sys2Proof.Machine.execMemrdFlit l header body s
  | .memrspFlit l header body body2 => Sys2Proof.Machine.execMemrspFlit l header body body2 s
  | .memwrFlit l header body body2 => Sys2Proof.Machine.execMemwrFlit l header body body2 s
  | .mgmtFlit l header body body2 => Sys2Proof.Machine.execMgmtFlit l header body body2 s
  | .loopFlit l header body same => Sys2Proof.Machine.execLoopFlit l header body same s
  | .cwlBadFlit l reserved => Sys2Proof.Machine.execCwlBadFlit l reserved s
  | .replayTimeout l => Sys2Proof.Machine.execReplayTimeout l s
  | .laneMarginLow l lane => Sys2Proof.Machine.execLaneMarginLow l lane s
  | .laneLoss l lane => Sys2Proof.Machine.execLaneLoss l lane s
  | .hbSend => Sys2Proof.Machine.execHbSend s
  | .partition cut => Sys2Proof.Machine.execPartition cut s
  | .successorUnreachable k => Sys2Proof.Machine.execSuccessorUnreachable k s
  | .promotion => Sys2Proof.Machine.execPromotion s
  | .busCommit ag v => Sys2Proof.Machine.execBusCommit ag v s
  | .rejoin ag tm err => Sys2Proof.Machine.execRejoin ag tm err s
  | .rejoinComplete => Sys2Proof.Machine.execRejoinComplete s
  | .cwlLoopbackStart ag l v => Sys2Proof.Machine.execCwlLoopbackStart ag l v s
  | .cwlLoopbackEnd l errs formed => Sys2Proof.Machine.execCwlLoopbackEnd l errs formed s
  | .startSequence step args image => Sys2Proof.Machine.execStartSequence step args image s
  | .startupWatchdog => Sys2Proof.Machine.execStartupWatchdog s
  | .pushGo ag v => Sys2Proof.Machine.execPushGo ag v s
  | .pushData ag v => Sys2Proof.Machine.execPushData ag v s
  | .pushVerifyComplete => Sys2Proof.Machine.execPushVerifyComplete s
  | .bootAck ag => Sys2Proof.Machine.execBootAck ag s
  | .svncommit ag => Sys2Proof.Machine.execSvncommit ag s
  | .zeroize ag => Sys2Proof.Machine.execZeroize ag s
  | .mailboxInfo q op tag => Sys2Proof.Machine.execMailboxInfo q op tag s
  | .mailboxLoadImage q op tag l c cfg entry parcels imOff im bytes => Sys2Proof.Machine.execMailboxLoadImage q op tag l c cfg entry parcels imOff im bytes s
  | .mailboxUnknownService q service op tag => Sys2Proof.Machine.execMailboxUnknownService q service op tag s
  | .fbCommit ue => Sys2Proof.Machine.execFbCommit ue s
  | .fbRefill code => Sys2Proof.Machine.execFbRefill code s
  | .fbLatch ag ue => Sys2Proof.Machine.execFbLatch ag ue s
  | .wallSet ag hi => Sys2Proof.Machine.execWallSet ag hi s
  | .fbScrub main backup => Sys2Proof.Machine.execFbScrub main backup s
  | .fbRepair ag => Sys2Proof.Machine.execFbRepair ag s
  | .fbRepairComplete mac row => Sys2Proof.Machine.execFbRepairComplete mac row s
  | .mirenSet ag => Sys2Proof.Machine.execMirenSet ag s
  | .fbMirrorCopy => Sys2Proof.Machine.execFbMirrorCopy s
  | .pceilEstimate r pceil => Sys2Proof.Machine.execPceilEstimate r pceil s
  | .reedEccWindow r ce => Sys2Proof.Machine.execReedEccWindow r ce s
  | .handshakeStall r => Sys2Proof.Machine.execHandshakeStall r s
  | .failoverReloadComplete l => Sys2Proof.Machine.execFailoverReloadComplete l s
  | .migrationStart => Sys2Proof.Machine.execMigrationStart s
  | .migrationCopyComplete => Sys2Proof.Machine.execMigrationCopyComplete s
  | .migrationAbandon => Sys2Proof.Machine.execMigrationAbandon s
  | .migrationRetry => Sys2Proof.Machine.execMigrationRetry s
  | .migGo ag l => Sys2Proof.Machine.execMigGo ag l s
  | .migGoForce ag l => Sys2Proof.Machine.execMigGoForce ag l s
  | .surveyorWatchdog n => Sys2Proof.Machine.execSurveyorWatchdog n s
  | .testProcRun ag v => Sys2Proof.Machine.execTestProcRun ag v s
  | .testProcEnd first => Sys2Proof.Machine.execTestProcEnd first s
  | .spareBistPeriodic reeds engineFails => Sys2Proof.Machine.execSpareBistPeriodic reeds engineFails s
  | .hbmLoopbackStart ag p v => Sys2Proof.Machine.execHbmLoopbackStart ag p v s
  | .hbmLoopbackEnd p errs formed => Sys2Proof.Machine.execHbmLoopbackEnd p errs formed s
  | .irqForce ag pg v => Sys2Proof.Machine.execIrqForce ag pg v s
  | .merCfgWrite ag v => Sys2Proof.Machine.execMerCfgWrite ag v s
  | .refLock => Sys2Proof.Machine.execRefLock s
  | .refLoss => Sys2Proof.Machine.execRefLoss s
  | .refReturn => Sys2Proof.Machine.execRefReturn s
  | .ppsCapture => Sys2Proof.Machine.execPpsCapture s
  | .thermalWarning tj => Sys2Proof.Machine.execThermalWarning tj s
  | .thermtrip t => Sys2Proof.Machine.execThermtrip t s
  | .railExcursion rail => Sys2Proof.Machine.execRailExcursion rail s
  | .ovrCountRead ag r n => Sys2Proof.Machine.execOvrCountRead ag r n s
  | .farLateRead ag r => Sys2Proof.Machine.execFarLateRead ag r s
  | .tokCntRead ag b => Sys2Proof.Machine.execTokCntRead ag b s
  | .poolEccRead ag b => Sys2Proof.Machine.execPoolEccRead ag b s
  | .hbmEccCeRead ag p => Sys2Proof.Machine.execHbmEccCeRead ag p s
  | .hbmEccUeRead ag p => Sys2Proof.Machine.execHbmEccUeRead ag p s
  | .sfStatRead ag p => Sys2Proof.Machine.execSfStatRead ag p s
  | .slcCntARead ag b => Sys2Proof.Machine.execSlcCntARead ag b s
  | .slcCntBRead ag b => Sys2Proof.Machine.execSlcCntBRead ag b s
  | .slcLoadRead ag b => Sys2Proof.Machine.execSlcLoadRead ag b s
  | .aspCntARead ag n => Sys2Proof.Machine.execAspCntARead ag n s
  | .aspCntBRead ag n => Sys2Proof.Machine.execAspCntBRead ag n s
  | .sspCntRead ag n => Sys2Proof.Machine.execSspCntRead ag n s
  | .qmgDropRead ag => Sys2Proof.Machine.execQmgDropRead ag s
  | .fbkLostRead ag => Sys2Proof.Machine.execFbkLostRead ag s
  | .glbErrCntRead ag => Sys2Proof.Machine.execGlbErrCntRead ag s
  | .pkgPowerRead ag => Sys2Proof.Machine.execPkgPowerRead ag s
  | .cwlCntCrcRead ag l => Sys2Proof.Machine.execCwlCntCrcRead ag l s
  | .cwlCntReplayRead ag l => Sys2Proof.Machine.execCwlCntReplayRead ag l s
  | .atlCntRead ag => Sys2Proof.Machine.execAtlCntRead ag s
  | .registerWrite sp ag off len v => Sys2Proof.Machine.execRegisterWrite sp ag off len v s
  | .undefinedOpcode r w => Sys2Proof.Machine.execUndefinedOpcode r w s
  | .boundaryScan op addr => Sys2Proof.Machine.execBoundaryScan op addr s
  | .vddAonLoss => Sys2Proof.Machine.execVddAonLoss s
  | .loopbackFollower => Sys2Proof.Machine.execLoopbackFollower s

end Sys2Proof.Machine
end

