-- ==== Sys2Proof/WellFormed.lean ====
section
/-! DEFINITION. Sys2Proof/WellFormed.lean: which commands exist on this device. A command exists when every unit it names is
one the device has, when its words spell the row they stand for, and when its address lies in the memory the device has.
The machine refuses every other command, and no command that exists. -/

namespace Sys2Proof

open Sys2Proof.Machine

/-- A syllable row's operation, with the physical reed and the word that it fetched (R64); the outer `none` for the other
rows, the inner one for UNDEFINED_OPCODE. -/
def Instr.syllable : Instr → Option (Option SylOp × Nat × W32)
  | .macS r w => some (some (.mac .macS), r, w)
  | .macD r w => some (some (.mac .macD), r, w)
  | .msuS r w => some (some (.mac .msuS), r, w)
  | .msuD r w => some (some (.mac .msuD), r, w)
  | .mpaS r w => some (some (.mac .mpaS), r, w)
  | .mpaD r w => some (some (.mac .mpaD), r, w)
  | .dmac r w => some (some (.mac .dmac), r, w)
  | .dmsu r w => some (some (.mac .dmsu), r, w)
  | .dmpa r w => some (some (.mac .dmpa), r, w)
  | .mul r w => some (some (.acc .mul), r, w)
  | .mulu r w => some (some (.acc .mulu), r, w)
  | .aclr r w => some (some (.acc .aclr), r, w)
  | .ald r w => some (some (.acc .ald), r, w)
  | .amov r w => some (some (.acc .amov), r, w)
  | .aadd r w => some (some (.acc .aadd), r, w)
  | .asub r w => some (some (.acc .asub), r, w)
  | .aneg r w => some (some (.acc .aneg), r, w)
  | .ashl r w => some (some (.acc .ashl), r, w)
  | .ashr r w => some (some (.acc .ashr), r, w)
  | .alsr r w => some (some (.acc .alsr), r, w)
  | .accAsh r w => some (some (.acc .ash), r, w)
  | .fadd r w => some (some (.fp .fadd), r, w)
  | .fsub r w => some (some (.fp .fsub), r, w)
  | .fmul r w => some (some (.fp .fmul), r, w)
  | .fma r w => some (some (.fp .fma), r, w)
  | .fms r w => some (some (.fp .fms), r, w)
  | .fneg r w => some (some (.fp .fneg), r, w)
  | .fabs r w => some (some (.fp .fabs), r, w)
  | .fmin r w => some (some (.fp .fmin), r, w)
  | .fmax r w => some (some (.fp .fmax), r, w)
  | .fceq r w => some (some (.fp .fceq), r, w)
  | .fclt r w => some (some (.fp .fclt), r, w)
  | .fcle r w => some (some (.fp .fcle), r, w)
  | .fcun r w => some (some (.fp .fcun), r, w)
  | .fcvtd2s r w => some (some (.fp .fcvtd2s), r, w)
  | .fcvts2d r w => some (some (.fp .fcvts2d), r, w)
  | .fcvth2s r w => some (some (.fp .fcvth2s), r, w)
  | .fcvts2h r w => some (some (.fp .fcvts2h), r, w)
  | .fcvtf2i r w => some (some (.fp .fcvtf2i), r, w)
  | .fcvti2f r w => some (some (.fp .fcvti2f), r, w)
  | .fmovf2s r w => some (some (.fp .fmovf2s), r, w)
  | .fmovs2f r w => some (some (.fp .fmovs2f), r, w)
  | .fmovq r w => some (some (.fp .fmovq), r, w)
  | .fmov r w => some (some (.fp .fmov), r, w)
  | .vadd r w => some (some (.vec .vadd), r, w)
  | .vsub r w => some (some (.vec .vsub), r, w)
  | .vmul r w => some (some (.vec .vmul), r, w)
  | .vfma r w => some (some (.vec .vfma), r, w)
  | .vmin r w => some (some (.vec .vmin), r, w)
  | .vmax r w => some (some (.vec .vmax), r, w)
  | .vand r w => some (some (.vec .vand), r, w)
  | .vor r w => some (some (.vec .vor), r, w)
  | .vxor r w => some (some (.vec .vxor), r, w)
  | .vdup r w => some (some (.vec .vdup), r, w)
  | .fldW r w => some (some (.vmem .fldW), r, w)
  | .fldQ r w => some (some (.vmem .fldQ), r, w)
  | .vld r w => some (some (.vmem .vld), r, w)
  | .fstW r w => some (some (.vmem .fstW), r, w)
  | .fstQ r w => some (some (.vmem .fstQ), r, w)
  | .vst r w => some (some (.vmem .vst), r, w)
  | .cld r w => some (some (.vmem .cld), r, w)
  | .cst r w => some (some (.vmem .cst), r, w)
  | .lvcpy r w => some (some (.vmem .lvcpy), r, w)
  | .lvaddf r w => some (some (.vmem .lvaddf), r, w)
  | .lmul r w => some (some (.lou .lmul), r, w)
  | .lmulu r w => some (some (.lou .lmulu), r, w)
  | .lmul64 r w => some (some (.lou .lmul64), r, w)
  | .lmulh64 r w => some (some (.lou .lmulh64), r, w)
  | .ldiv r w => some (some (.lou .ldiv), r, w)
  | .ldivu r w => some (some (.lou .ldivu), r, w)
  | .fdiv r w => some (some (.lou .fdiv), r, w)
  | .fsqrt r w => some (some (.lou .fsqrt), r, w)
  | .exp2 r w => some (some (.lou .exp2), r, w)
  | .log2 r w => some (some (.lou .log2), r, w)
  | .sin2pi r w => some (some (.lou .sin2pi), r, w)
  | .tanh r w => some (some (.lou .tanh), r, w)
  | .rsqrt r w => some (some (.lou .rsqrt), r, w)
  | .bcdadd r w => some (some (.lou .bcdadd), r, w)
  | .bcdsub r w => some (some (.lou .bcdsub), r, w)
  | .lbar r w => some (some (.lou .lbar), r, w)
  | .ldS r w => some (some (.smem .ldS), r, w)
  | .ldSu r w => some (some (.smem .ldSu), r, w)
  | .ldD r w => some (some (.smem .ldD), r, w)
  | .ldQ r w => some (some (.smem .ldQ), r, w)
  | .stS r w => some (some (.smem .stS), r, w)
  | .stD r w => some (some (.smem .stD), r, w)
  | .stQ r w => some (some (.smem .stQ), r, w)
  | .staS r w => some (some (.smem .staS), r, w)
  | .staD r w => some (some (.smem .staD), r, w)
  | .ldb r w => some (some (.svy .ldb), r, w)
  | .ldbu r w => some (some (.svy .ldbu), r, w)
  | .ldh r w => some (some (.svy .ldh), r, w)
  | .ldhu r w => some (some (.svy .ldhu), r, w)
  | .ldw r w => some (some (.svy .ldw), r, w)
  | .stb r w => some (some (.svy .stb), r, w)
  | .sth r w => some (some (.svy .sth), r, w)
  | .stw r w => some (some (.svy .stw), r, w)
  | .add r w => some (some (.alu .add), r, w)
  | .sub r w => some (some (.alu .sub), r, w)
  | .adds r w => some (some (.alu .adds), r, w)
  | .subs r w => some (some (.alu .subs), r, w)
  | .neg r w => some (some (.alu .neg), r, w)
  | .negs r w => some (some (.alu .negs), r, w)
  | .and r w => some (some (.alu .and), r, w)
  | .or r w => some (some (.alu .or), r, w)
  | .xor r w => some (some (.alu .xor), r, w)
  | .not r w => some (some (.alu .not), r, w)
  | .lsl r w => some (some (.alu .lsl), r, w)
  | .lsr r w => some (some (.alu .lsr), r, w)
  | .asr r w => some (some (.alu .asr), r, w)
  | .ash r w => some (some (.alu .ash), r, w)
  | .min r w => some (some (.alu .min), r, w)
  | .max r w => some (some (.alu .max), r, w)
  | .minu r w => some (some (.alu .minu), r, w)
  | .maxu r w => some (some (.alu .maxu), r, w)
  | .cmpeq r w => some (some (.alu .cmpeq), r, w)
  | .cmpne r w => some (some (.alu .cmpne), r, w)
  | .cmplt r w => some (some (.alu .cmplt), r, w)
  | .cmpge r w => some (some (.alu .cmpge), r, w)
  | .cmpltu r w => some (some (.alu .cmpltu), r, w)
  | .cmpgeu r w => some (some (.alu .cmpgeu), r, w)
  | .mov r w => some (some (.alu .mov), r, w)
  | .pand r w => some (some (.alu .pand), r, w)
  | .por r w => some (some (.alu .por), r, w)
  | .pnot r w => some (some (.alu .pnot), r, w)
  | .movi r w => some (some (.mov .movi), r, w)
  | .movq r w => some (some (.mov .movq), r, w)
  | .mva r w => some (some (.mov .mva), r, w)
  | .mvm r w => some (some (.mov .mvm), r, w)
  | .rdsr r w => some (some (.mov .rdsr), r, w)
  | .wrsr r w => some (some (.mov .wrsr), r, w)
  | .rpd r w => some (some (.mov .rpd), r, w)
  | .wpd r w => some (some (.mov .wpd), r, w)
  | .br r w => some (some (.br .br), r, w)
  | .call r w => some (some (.br .call), r, w)
  | .bri r w => some (some (.br .bri), r, w)
  | .calli r w => some (some (.br .calli), r, w)
  | .ret r w => some (some (.br .ret), r, w)
  | .rfe r w => some (some (.br .rfe), r, w)
  | .loop r w => some (some (.loop .loop), r, w)
  | .rep r w => some (some (.loop .rep), r, w)
  | .repi r w => some (some (.loop .repi), r, w)
  | .nop r w => some (some (.ctl .nop), r, w)
  | .tend r w => some (some (.ctl .tend), r, w)
  | .flushi r w => some (some (.ctl .flushi), r, w)
  | .bchk r w => some (some (.ctl .bchk), r, w)
  | .break r w => some (some (.ctl .break), r, w)
  | .undefinedOpcode r w => some (none, r, w)
  | .powerGood _ _ => none
  | .sysPwrgdFall => none
  | .stateReqStartup _ _ => none
  | .stateReqTest _ _ => none
  | .stateReqService _ _ => none
  | .stateReqRecovery _ _ => none
  | .stateReqTussock _ _ => none
  | .stateReqDormant _ _ => none
  | .stateTransitionComplete => none
  | .meshRouterFail => none
  | .surveyorMemoryUe _ => none
  | .queueTableUe _ _ => none
  | .recActiveClear => none
  | .tdEnWrite _ _ => none
  | .tideBoundary => none
  | .ttDataHiWrite _ _ _ => none
  | .swapRequest _ _ _ => none
  | .runSet _ _ => none
  | .runClear _ _ => none
  | .wmclr _ _ => none
  | .ctxRestart _ _ _ => none
  | .contextStart _ _ => none
  | .contextResume _ => none
  | .overrunBudget _ => none
  | .overrunDeadline _ _ => none
  | .overrunStart _ _ _ => none
  | .entryPassedOver _ _ _ => none
  | .paceWindow _ _ => none
  | .paceLoopAdjust _ _ => none
  | .fastRaise _ _ => none
  | .pkgPowerWindow _ => none
  | .pdData3Write _ _ _ => none
  | .farReadData _ _ _ => none
  | .farReadTimeout _ => none
  | .farReadLate _ => none
  | .farStoreArrival _ => none
  | .farStoreTimeout _ => none
  | .farStoreFail _ _ => none
  | .louRetire _ _ => none
  | .louTrapDelivery _ => none
  | .tsCfgWrite _ _ _ => none
  | .poolScrub _ _ => none
  | .hbmScrub _ _ => none
  | .refreshRateRaised _ _ => none
  | .selfRefreshEntry => none
  | .bisnpResponse _ _ => none
  | .hbmEccWindow _ _ => none
  | .pageReback _ => none
  | .sdCommit _ _ _ => none
  | .start _ _ => none
  | .stop _ _ => none
  | .resume _ _ => none
  | .setrate _ _ => none
  | .keyload _ _ => none
  | .gather _ _ => none
  | .fence _ _ => none
  | .fenceComplete _ => none
  | .badcmd _ _ => none
  | .ringWindowResident _ _ => none
  | .sluiceRequestIssue _ _ _ _ => none
  | .sluiceRequestData _ _ _ _ => none
  | .sluiceRequestTimeout _ _ => none
  | .sluiceLateArrival _ _ => none
  | .slcLoadWindow _ _ => none
  | .engineSelfcheckFail _ => none
  | .aspEnable _ _ _ => none
  | .aspDisable _ _ _ => none
  | .aspFrameStart _ => none
  | .aspSlaveFrameStart _ _ => none
  | .aspSlotIngress _ _ _ => none
  | .aspSlotEmit _ _ => none
  | .aspStagingLoad _ _ => none
  | .aspClockLoss _ => none
  | .aspLossZeroWrite _ _ => none
  | .slotmapWrite _ _ _ _ => none
  | .oslotmapWrite _ _ _ _ => none
  | .aspLoopCtrlWrite _ _ _ => none
  | .sspEnable _ _ => none
  | .sspDisable _ _ => none
  | .sspMatrixStep _ => none
  | .sspMatrixSample _ _ => none
  | .sspConversionComplete _ => none
  | .sspAdcPass _ => none
  | .sspAdcWord _ _ => none
  | .midiRxFrame _ _ _ _ => none
  | .midiTx _ _ _ => none
  | .midiTxFrameSent _ => none
  | .smapWrite _ _ _ _ => none
  | .sspLoopCtrlWrite _ _ _ => none
  | .tcuStep _ => none
  | .tcuMatch _ => none
  | .tcuOvf _ => none
  | .tcuAction _ => none
  | .tcuPairCarry _ => none
  | .tcuStart _ _ => none
  | .tcuStop _ _ => none
  | .tcuReset _ _ => none
  | .tcuCntWrite _ _ _ => none
  | .tcuCmpWrite _ _ _ => none
  | .capselWrite _ _ _ _ => none
  | .captureEvent _ => none
  | .qmgCommit _ => none
  | .qmgDisable _ => none
  | .qmgRead _ => none
  | .qmgAdvance _ => none
  | .doorbellWrite _ _ => none
  | .moderationExpiry _ => none
  | .msixMaskClear _ => none
  | .msixEnable => none
  | .swtrig _ _ => none
  | .srcCfgWrite _ _ => none
  | .eventCommit => none
  | .svClaim _ _ => none
  | .eoi _ _ _ => none
  | .eoiForce _ _ => none
  | .linkTrained _ _ _ => none
  | .l0pWidthChange _ => none
  | .l1Entry => none
  | .l2Entry => none
  | .perstAssert => none
  | .perstDeassert => none
  | .hotReset => none
  | .linkDown => none
  | .flr => none
  | .cxlReset => none
  | .dStateChange _ => none
  | .hdmCommit _ _ _ _ _ => none
  | .cxlMemRead _ _ => none
  | .cxlMemWrite _ _ _ _ _ => none
  | .uioAccess _ _ _ _ => none
  | .hostSnoop _ => none
  | .hostReadCompletion _ _ _ => none
  | .hostRequestTimeout _ => none
  | .doeRequest _ _ => none
  | .doeAbort _ => none
  | .spdmRequest _ => none
  | .lkekInstall _ _ => none
  | .ideKmKey _ => none
  | .ideIntegrityFail _ => none
  | .cxlLoopbackStart _ _ => none
  | .cxlLoopbackEnd _ _ => none
  | .atlasJoin _ => none
  | .atlasLeave _ => none
  | .cwlEnable _ _ => none
  | .cwlDisable _ _ => none
  | .cwlRetrain _ _ => none
  | .cwlTrained _ _ _ _ => none
  | .miswiredRetry _ => none
  | .ctrlFlit _ _ _ => none
  | .nakFlit _ _ _ => none
  | .hbFlit _ _ _ _ => none
  | .audioFlit _ _ _ => none
  | .memrdFlit _ _ _ => none
  | .memrspFlit _ _ _ _ => none
  | .memwrFlit _ _ _ _ => none
  | .mgmtFlit _ _ _ _ => none
  | .loopFlit _ _ _ _ => none
  | .cwlBadFlit _ _ => none
  | .replayTimeout _ => none
  | .laneMarginLow _ _ => none
  | .laneLoss _ _ => none
  | .hbSend => none
  | .partition _ => none
  | .successorUnreachable _ => none
  | .promotion => none
  | .busCommit _ _ => none
  | .rejoin _ _ _ => none
  | .rejoinComplete => none
  | .cwlLoopbackStart _ _ _ => none
  | .cwlLoopbackEnd _ _ _ => none
  | .startSequence _ _ _ => none
  | .startupWatchdog => none
  | .pushGo _ _ => none
  | .pushData _ _ => none
  | .pushVerifyComplete => none
  | .bootAck _ => none
  | .svncommit _ => none
  | .zeroize _ => none
  | .mailboxInfo _ _ _ => none
  | .mailboxLoadImage _ _ _ _ _ _ _ _ _ _ _ => none
  | .mailboxUnknownService _ _ _ _ => none
  | .fbCommit _ => none
  | .fbRefill _ => none
  | .fbLatch _ _ => none
  | .wallSet _ _ => none
  | .fbScrub _ _ => none
  | .fbRepair _ => none
  | .fbRepairComplete _ _ => none
  | .mirenSet _ => none
  | .fbMirrorCopy => none
  | .pceilEstimate _ _ => none
  | .reedEccWindow _ _ => none
  | .handshakeStall _ => none
  | .failoverReloadComplete _ => none
  | .migrationStart => none
  | .migrationCopyComplete => none
  | .migrationAbandon => none
  | .migrationRetry => none
  | .migGo _ _ => none
  | .migGoForce _ _ => none
  | .surveyorWatchdog _ => none
  | .testProcRun _ _ => none
  | .testProcEnd _ => none
  | .spareBistPeriodic _ _ => none
  | .hbmLoopbackStart _ _ _ => none
  | .hbmLoopbackEnd _ _ _ => none
  | .irqForce _ _ _ => none
  | .merCfgWrite _ _ => none
  | .refLock => none
  | .refLoss => none
  | .refReturn => none
  | .ppsCapture => none
  | .thermalWarning _ => none
  | .thermtrip _ => none
  | .railExcursion _ => none
  | .ovrCountRead _ _ _ => none
  | .farLateRead _ _ => none
  | .tokCntRead _ _ => none
  | .poolEccRead _ _ => none
  | .hbmEccCeRead _ _ => none
  | .hbmEccUeRead _ _ => none
  | .sfStatRead _ _ => none
  | .slcCntARead _ _ => none
  | .slcCntBRead _ _ => none
  | .slcLoadRead _ _ => none
  | .aspCntARead _ _ => none
  | .aspCntBRead _ _ => none
  | .sspCntRead _ _ => none
  | .qmgDropRead _ => none
  | .fbkLostRead _ => none
  | .glbErrCntRead _ => none
  | .pkgPowerRead _ => none
  | .cwlCntCrcRead _ _ => none
  | .cwlCntReplayRead _ _ => none
  | .atlCntRead _ => none
  | .registerWrite _ _ _ _ _ => none
  | .boundaryScan _ _ => none
  | .vddAonLoss => none
  | .loopbackFollower => none

/-- The word of a syllable row spells the row's operation, on a reed the device has (R64, R170). -/
def sylFits (op : Option SylOp) (r : Nat) (w : W32) : Bool := decodeOp w == op && decide (r < 544)

/-- The header of a flit carries its row's TYPE, on a link the device has (R312, R310). -/
def flitFits (ty l : Nat) (header : W32) : Bool := decide (l < 16) && fld header 28 4 == ty

/-- The entry is the command of an opcode, with its reserved fields zero, on an engine that takes commands (R200). -/
def isCmdFor (op b : Nat) (entry : List W32) : Bool := decide (b < 32) && isCmd op entry

/-- The command exists. -/
def Instr.wellFormed : Instr → Bool
  | .macS r w => sylFits (some (.mac .macS)) r w
  | .macD r w => sylFits (some (.mac .macD)) r w
  | .msuS r w => sylFits (some (.mac .msuS)) r w
  | .msuD r w => sylFits (some (.mac .msuD)) r w
  | .mpaS r w => sylFits (some (.mac .mpaS)) r w
  | .mpaD r w => sylFits (some (.mac .mpaD)) r w
  | .dmac r w => sylFits (some (.mac .dmac)) r w
  | .dmsu r w => sylFits (some (.mac .dmsu)) r w
  | .dmpa r w => sylFits (some (.mac .dmpa)) r w
  | .mul r w => sylFits (some (.acc .mul)) r w
  | .mulu r w => sylFits (some (.acc .mulu)) r w
  | .aclr r w => sylFits (some (.acc .aclr)) r w
  | .ald r w => sylFits (some (.acc .ald)) r w
  | .amov r w => sylFits (some (.acc .amov)) r w
  | .aadd r w => sylFits (some (.acc .aadd)) r w
  | .asub r w => sylFits (some (.acc .asub)) r w
  | .aneg r w => sylFits (some (.acc .aneg)) r w
  | .ashl r w => sylFits (some (.acc .ashl)) r w
  | .ashr r w => sylFits (some (.acc .ashr)) r w
  | .alsr r w => sylFits (some (.acc .alsr)) r w
  | .accAsh r w => sylFits (some (.acc .ash)) r w
  | .fadd r w => sylFits (some (.fp .fadd)) r w
  | .fsub r w => sylFits (some (.fp .fsub)) r w
  | .fmul r w => sylFits (some (.fp .fmul)) r w
  | .fma r w => sylFits (some (.fp .fma)) r w
  | .fms r w => sylFits (some (.fp .fms)) r w
  | .fneg r w => sylFits (some (.fp .fneg)) r w
  | .fabs r w => sylFits (some (.fp .fabs)) r w
  | .fmin r w => sylFits (some (.fp .fmin)) r w
  | .fmax r w => sylFits (some (.fp .fmax)) r w
  | .fceq r w => sylFits (some (.fp .fceq)) r w
  | .fclt r w => sylFits (some (.fp .fclt)) r w
  | .fcle r w => sylFits (some (.fp .fcle)) r w
  | .fcun r w => sylFits (some (.fp .fcun)) r w
  | .fcvtd2s r w => sylFits (some (.fp .fcvtd2s)) r w
  | .fcvts2d r w => sylFits (some (.fp .fcvts2d)) r w
  | .fcvth2s r w => sylFits (some (.fp .fcvth2s)) r w
  | .fcvts2h r w => sylFits (some (.fp .fcvts2h)) r w
  | .fcvtf2i r w => sylFits (some (.fp .fcvtf2i)) r w
  | .fcvti2f r w => sylFits (some (.fp .fcvti2f)) r w
  | .fmovf2s r w => sylFits (some (.fp .fmovf2s)) r w
  | .fmovs2f r w => sylFits (some (.fp .fmovs2f)) r w
  | .fmovq r w => sylFits (some (.fp .fmovq)) r w
  | .fmov r w => sylFits (some (.fp .fmov)) r w
  | .vadd r w => sylFits (some (.vec .vadd)) r w
  | .vsub r w => sylFits (some (.vec .vsub)) r w
  | .vmul r w => sylFits (some (.vec .vmul)) r w
  | .vfma r w => sylFits (some (.vec .vfma)) r w
  | .vmin r w => sylFits (some (.vec .vmin)) r w
  | .vmax r w => sylFits (some (.vec .vmax)) r w
  | .vand r w => sylFits (some (.vec .vand)) r w
  | .vor r w => sylFits (some (.vec .vor)) r w
  | .vxor r w => sylFits (some (.vec .vxor)) r w
  | .vdup r w => sylFits (some (.vec .vdup)) r w
  | .fldW r w => sylFits (some (.vmem .fldW)) r w
  | .fldQ r w => sylFits (some (.vmem .fldQ)) r w
  | .vld r w => sylFits (some (.vmem .vld)) r w
  | .fstW r w => sylFits (some (.vmem .fstW)) r w
  | .fstQ r w => sylFits (some (.vmem .fstQ)) r w
  | .vst r w => sylFits (some (.vmem .vst)) r w
  | .cld r w => sylFits (some (.vmem .cld)) r w
  | .cst r w => sylFits (some (.vmem .cst)) r w
  | .lvcpy r w => sylFits (some (.vmem .lvcpy)) r w
  | .lvaddf r w => sylFits (some (.vmem .lvaddf)) r w
  | .lmul r w => sylFits (some (.lou .lmul)) r w
  | .lmulu r w => sylFits (some (.lou .lmulu)) r w
  | .lmul64 r w => sylFits (some (.lou .lmul64)) r w
  | .lmulh64 r w => sylFits (some (.lou .lmulh64)) r w
  | .ldiv r w => sylFits (some (.lou .ldiv)) r w
  | .ldivu r w => sylFits (some (.lou .ldivu)) r w
  | .fdiv r w => sylFits (some (.lou .fdiv)) r w
  | .fsqrt r w => sylFits (some (.lou .fsqrt)) r w
  | .exp2 r w => sylFits (some (.lou .exp2)) r w
  | .log2 r w => sylFits (some (.lou .log2)) r w
  | .sin2pi r w => sylFits (some (.lou .sin2pi)) r w
  | .tanh r w => sylFits (some (.lou .tanh)) r w
  | .rsqrt r w => sylFits (some (.lou .rsqrt)) r w
  | .bcdadd r w => sylFits (some (.lou .bcdadd)) r w
  | .bcdsub r w => sylFits (some (.lou .bcdsub)) r w
  | .lbar r w => sylFits (some (.lou .lbar)) r w
  | .ldS r w => sylFits (some (.smem .ldS)) r w
  | .ldSu r w => sylFits (some (.smem .ldSu)) r w
  | .ldD r w => sylFits (some (.smem .ldD)) r w
  | .ldQ r w => sylFits (some (.smem .ldQ)) r w
  | .stS r w => sylFits (some (.smem .stS)) r w
  | .stD r w => sylFits (some (.smem .stD)) r w
  | .stQ r w => sylFits (some (.smem .stQ)) r w
  | .staS r w => sylFits (some (.smem .staS)) r w
  | .staD r w => sylFits (some (.smem .staD)) r w
  | .ldb r w => sylFits (some (.svy .ldb)) r w
  | .ldbu r w => sylFits (some (.svy .ldbu)) r w
  | .ldh r w => sylFits (some (.svy .ldh)) r w
  | .ldhu r w => sylFits (some (.svy .ldhu)) r w
  | .ldw r w => sylFits (some (.svy .ldw)) r w
  | .stb r w => sylFits (some (.svy .stb)) r w
  | .sth r w => sylFits (some (.svy .sth)) r w
  | .stw r w => sylFits (some (.svy .stw)) r w
  | .add r w => sylFits (some (.alu .add)) r w
  | .sub r w => sylFits (some (.alu .sub)) r w
  | .adds r w => sylFits (some (.alu .adds)) r w
  | .subs r w => sylFits (some (.alu .subs)) r w
  | .neg r w => sylFits (some (.alu .neg)) r w
  | .negs r w => sylFits (some (.alu .negs)) r w
  | .and r w => sylFits (some (.alu .and)) r w
  | .or r w => sylFits (some (.alu .or)) r w
  | .xor r w => sylFits (some (.alu .xor)) r w
  | .not r w => sylFits (some (.alu .not)) r w
  | .lsl r w => sylFits (some (.alu .lsl)) r w
  | .lsr r w => sylFits (some (.alu .lsr)) r w
  | .asr r w => sylFits (some (.alu .asr)) r w
  | .ash r w => sylFits (some (.alu .ash)) r w
  | .min r w => sylFits (some (.alu .min)) r w
  | .max r w => sylFits (some (.alu .max)) r w
  | .minu r w => sylFits (some (.alu .minu)) r w
  | .maxu r w => sylFits (some (.alu .maxu)) r w
  | .cmpeq r w => sylFits (some (.alu .cmpeq)) r w
  | .cmpne r w => sylFits (some (.alu .cmpne)) r w
  | .cmplt r w => sylFits (some (.alu .cmplt)) r w
  | .cmpge r w => sylFits (some (.alu .cmpge)) r w
  | .cmpltu r w => sylFits (some (.alu .cmpltu)) r w
  | .cmpgeu r w => sylFits (some (.alu .cmpgeu)) r w
  | .mov r w => sylFits (some (.alu .mov)) r w
  | .pand r w => sylFits (some (.alu .pand)) r w
  | .por r w => sylFits (some (.alu .por)) r w
  | .pnot r w => sylFits (some (.alu .pnot)) r w
  | .movi r w => sylFits (some (.mov .movi)) r w
  | .movq r w => sylFits (some (.mov .movq)) r w
  | .mva r w => sylFits (some (.mov .mva)) r w
  | .mvm r w => sylFits (some (.mov .mvm)) r w
  | .rdsr r w => sylFits (some (.mov .rdsr)) r w
  | .wrsr r w => sylFits (some (.mov .wrsr)) r w
  | .rpd r w => sylFits (some (.mov .rpd)) r w
  | .wpd r w => sylFits (some (.mov .wpd)) r w
  | .br r w => sylFits (some (.br .br)) r w
  | .call r w => sylFits (some (.br .call)) r w
  | .bri r w => sylFits (some (.br .bri)) r w
  | .calli r w => sylFits (some (.br .calli)) r w
  | .ret r w => sylFits (some (.br .ret)) r w
  | .rfe r w => sylFits (some (.br .rfe)) r w
  | .loop r w => sylFits (some (.loop .loop)) r w
  | .rep r w => sylFits (some (.loop .rep)) r w
  | .repi r w => sylFits (some (.loop .repi)) r w
  | .nop r w => sylFits (some (.ctl .nop)) r w
  | .tend r w => sylFits (some (.ctl .tend)) r w
  | .flushi r w => sylFits (some (.ctl .flushi)) r w
  | .bchk r w => sylFits (some (.ctl .bchk)) r w
  | .break r w => sylFits (some (.ctl .break)) r w
  | .undefinedOpcode r w => sylFits none r w
  | .ctrlFlit l header _ => flitFits 0 l header
  | .nakFlit l header _ => flitFits 1 l header
  | .hbFlit l header _ _ => flitFits 2 l header
  | .audioFlit l header _ => flitFits 3 l header
  | .memrdFlit l header _ => flitFits 4 l header
  | .memrspFlit l header _ _ => flitFits 5 l header
  | .memwrFlit l header _ _ => flitFits 6 l header
  | .mgmtFlit l header _ _ => flitFits 7 l header
  | .loopFlit l header _ _ => flitFits 8 l header
  | .ttDataHiWrite _ r _ => decide (r < 544)
  | .runSet _ r => decide (r < 544)
  | .runClear _ r => decide (r < 544)
  | .wmclr _ r => decide (r < 544)
  | .contextResume r => decide (r < 544)
  | .overrunBudget r => decide (r < 544)
  | .paceWindow r _ => decide (r < 544)
  | .paceLoopAdjust r _ => decide (r < 544)
  | .fastRaise r _ => decide (r < 544)
  | .pdData3Write _ r _ => decide (r < 544)
  | .farReadData r _ _ => decide (r < 544)
  | .farReadTimeout r => decide (r < 544)
  | .farReadLate r => decide (r < 544)
  | .farStoreArrival r => decide (r < 544)
  | .farStoreTimeout r => decide (r < 544)
  | .louTrapDelivery r => decide (r < 544)
  | .pceilEstimate r _ => decide (r < 544)
  | .reedEccWindow r _ => decide (r < 544)
  | .handshakeStall r => decide (r < 544)
  | .farLateRead _ r => decide (r < 544)
  | .swapRequest _ r d => decide (r < 544) && decide (d < 8)
  | .contextStart r d => decide (r < 544) && decide (d < 8)
  | .ctxRestart _ r n => decide (r < 544) && decide (n < 8)
  | .ovrCountRead _ r n => decide (r < 544) && decide (n < 8)
  | .overrunDeadline r c => decide (r < 544) && decide (c < 8)
  | .overrunStart r d j => decide (r < 544) && decide (d < 8) && decide (j < 8)
  | .entryPassedOver r d j => decide (r < 544) && decide (d < 8) && decide (j < 8)
  | .farStoreFail r addr => decide (r < 544) && decide (addr < 2 ^ 48)
  | .louRetire r u => decide (r < 544) && decide (u < 5)
  | .tsCfgWrite _ b _ => decide (b < 32)
  | .poolScrub b _ => decide (b < 32)
  | .sdCommit _ b _ => decide (b < 32)
  | .fenceComplete b => decide (b < 32)
  | .sluiceLateArrival b _ => decide (b < 32)
  | .tokCntRead _ b => decide (b < 32)
  | .poolEccRead _ b => decide (b < 32)
  | .hbmScrub p _ => decide (p < 64)
  | .hbmLoopbackStart _ p _ => decide (p < 64)
  | .hbmLoopbackEnd p _ _ => decide (p < 64)
  | .hbmEccCeRead _ p => decide (p < 64)
  | .hbmEccUeRead _ p => decide (p < 64)
  | .sfStatRead _ p => decide (p < 64)
  | .refreshRateRaised stack _ => decide (stack < 2)
  | .hbmEccWindow page _ => decide (page < 65536)
  | .pageReback page => decide (page < 65536)
  | .start b entry => isCmdFor 1 b entry
  | .stop b entry => isCmdFor 2 b entry
  | .resume b entry => isCmdFor 3 b entry
  | .setrate b entry => isCmdFor 4 b entry
  | .keyload b entry => isCmdFor 5 b entry
  | .gather b entry => isCmdFor 6 b entry
  | .fence b entry => isCmdFor 7 b entry
  | .badcmd b entry => decide (b < 32) && !cmdFits entry
  | .ringWindowResident b ix => decide (b < 32) && decide (ix < 2048)
  | .sluiceRequestIssue b ix rq _ => decide (b < 32) && decide (ix < 2048) && decide (rq < 1024)
  | .sluiceRequestData b rq _ _ => decide (b < 32) && decide (rq < 1024)
  | .sluiceRequestTimeout b rq => decide (b < 32) && decide (rq < 1024)
  | .slcLoadWindow b _ => decide (b < 33)
  | .engineSelfcheckFail b => decide (b < 33)
  | .slcCntARead _ b => decide (b < 33)
  | .slcCntBRead _ b => decide (b < 33)
  | .slcLoadRead _ b => decide (b < 33)
  | .aspEnable _ n _ => decide (n < 96)
  | .aspDisable _ n _ => decide (n < 96)
  | .aspFrameStart n => decide (n < 96)
  | .aspSlaveFrameStart n _ => decide (n < 96)
  | .aspClockLoss n => decide (n < 96)
  | .aspLoopCtrlWrite _ n _ => decide (n < 96)
  | .aspCntARead _ n => decide (n < 96)
  | .aspCntBRead _ n => decide (n < 96)
  | .aspSlotIngress n k _ => decide (n < 96) && decide (k < 32)
  | .aspSlotEmit n k => decide (n < 96) && decide (k < 32)
  | .aspStagingLoad n k => decide (n < 96) && decide (k < 32)
  | .aspLossZeroWrite n k => decide (n < 96) && decide (k < 32)
  | .slotmapWrite _ n k _ => decide (n < 96) && decide (k < 32)
  | .oslotmapWrite _ n k _ => decide (n < 96) && decide (k < 32)
  | .sspEnable _ n => decide (n < 32)
  | .sspDisable _ n => decide (n < 32)
  | .sspMatrixStep n => decide (n < 32)
  | .sspMatrixSample n _ => decide (n < 32)
  | .sspConversionComplete n => decide (n < 32)
  | .sspAdcPass n => decide (n < 32)
  | .sspAdcWord n _ => decide (n < 32)
  | .midiRxFrame n _ _ _ => decide (n < 32)
  | .midiTx _ n _ => decide (n < 32)
  | .midiTxFrameSent n => decide (n < 32)
  | .sspLoopCtrlWrite _ n _ => decide (n < 32)
  | .sspCntRead _ n => decide (n < 32)
  | .smapWrite _ n ix _ => decide (n < 32) && decide (ix < 256)
  | .tcuStep c => decide (c < 128)
  | .tcuMatch c => decide (c < 128)
  | .tcuOvf c => decide (c < 128)
  | .tcuAction c => decide (c < 128)
  | .tcuPairCarry c => decide (c < 128)
  | .tcuStart _ c => decide (c < 128)
  | .tcuStop _ c => decide (c < 128)
  | .tcuReset _ c => decide (c < 128)
  | .tcuCntWrite _ c _ => decide (c < 128)
  | .tcuCmpWrite _ c _ => decide (c < 128)
  | .capselWrite _ j _ _ => decide (j < 64)
  | .captureEvent j => decide (j < 64)
  | .doorbellWrite q _ => decide (q < 16384)
  | .moderationExpiry q => decide (q < 16384)
  | .msixMaskClear v => (v.all fun n => decide (n < 2048))
  | .svClaim _ n => decide (n < 6)
  | .eoiForce _ n => decide (n < 6)
  | .surveyorWatchdog n => decide (n < 6)
  | .eoi _ n prio => decide (n < 6) && decide (prio < 16)
  | .dStateChange d => d == 0 || d == 3
  | .hdmCommit k _ _ _ _ => decide (k < 2)
  | .cxlMemRead dpa _ => decide (dpa < 2 ^ 37)
  | .cxlMemWrite dpa _ _ _ _ => decide (dpa < 2 ^ 37)
  | .uioAccess _ dpa _ _ => decide (dpa < 2 ^ 37)
  | .doeRequest inst _ => decide (inst < 2)
  | .doeAbort inst => decide (inst < 2)
  | .ideKmKey n => ideStream n
  | .ideIntegrityFail n => ideStream n
  | .cwlEnable _ l => decide (l < 16)
  | .cwlDisable _ l => decide (l < 16)
  | .cwlRetrain _ l => decide (l < 16)
  | .cwlTrained l _ _ _ => decide (l < 16)
  | .miswiredRetry l => decide (l < 16)
  | .cwlBadFlit l _ => decide (l < 16)
  | .replayTimeout l => decide (l < 16)
  | .cwlLoopbackStart _ l _ => decide (l < 16)
  | .cwlLoopbackEnd l _ _ => decide (l < 16)
  | .cwlCntCrcRead _ l => decide (l < 16)
  | .cwlCntReplayRead _ l => decide (l < 16)
  | .laneMarginLow l lane => decide (l < 16) && decide (lane < 5)
  | .laneLoss l lane => decide (l < 16) && decide (lane < 5)
  | .rejoin _ tm _ => decide (tm < 64)
  | .mailboxLoadImage _ _ _ l c _ _ _ _ _ _ => decide (l < 512) && decide (c < 8)
  | .fbRepairComplete mac row => decide (mac < 8) && decide (row < 512)
  | .migGo _ l => decide (l < 512)
  | .migGoForce _ l => decide (l < 512)
  | .irqForce _ pg _ => (blockOf pg).isSome
  | .railExcursion rail => decide (rail < 10)
  | .powerGood _ _ => true
  | .sysPwrgdFall => true
  | .stateReqStartup _ _ => true
  | .stateReqTest _ _ => true
  | .stateReqService _ _ => true
  | .stateReqRecovery _ _ => true
  | .stateReqTussock _ _ => true
  | .stateReqDormant _ _ => true
  | .stateTransitionComplete => true
  | .meshRouterFail => true
  | .surveyorMemoryUe _ => true
  | .queueTableUe _ _ => true
  | .recActiveClear => true
  | .tdEnWrite _ _ => true
  | .tideBoundary => true
  | .pkgPowerWindow _ => true
  | .selfRefreshEntry => true
  | .bisnpResponse _ _ => true
  | .qmgCommit _ => true
  | .qmgDisable _ => true
  | .qmgRead _ => true
  | .qmgAdvance _ => true
  | .msixEnable => true
  | .swtrig _ _ => true
  | .srcCfgWrite _ _ => true
  | .eventCommit => true
  | .linkTrained _ _ _ => true
  | .l0pWidthChange _ => true
  | .l1Entry => true
  | .l2Entry => true
  | .perstAssert => true
  | .perstDeassert => true
  | .hotReset => true
  | .linkDown => true
  | .flr => true
  | .cxlReset => true
  | .hostSnoop _ => true
  | .hostReadCompletion _ _ _ => true
  | .hostRequestTimeout _ => true
  | .spdmRequest _ => true
  | .lkekInstall _ _ => true
  | .cxlLoopbackStart _ _ => true
  | .cxlLoopbackEnd _ _ => true
  | .atlasJoin _ => true
  | .atlasLeave _ => true
  | .hbSend => true
  | .partition _ => true
  | .successorUnreachable _ => true
  | .promotion => true
  | .busCommit _ _ => true
  | .rejoinComplete => true
  | .startSequence _ _ _ => true
  | .startupWatchdog => true
  | .pushGo _ _ => true
  | .pushData _ _ => true
  | .pushVerifyComplete => true
  | .bootAck _ => true
  | .svncommit _ => true
  | .zeroize _ => true
  | .mailboxInfo _ _ _ => true
  | .mailboxUnknownService _ _ _ _ => true
  | .fbCommit _ => true
  | .fbRefill _ => true
  | .fbLatch _ _ => true
  | .wallSet _ _ => true
  | .fbScrub _ _ => true
  | .fbRepair _ => true
  | .mirenSet _ => true
  | .fbMirrorCopy => true
  | .failoverReloadComplete _ => true
  | .migrationStart => true
  | .migrationCopyComplete => true
  | .migrationAbandon => true
  | .migrationRetry => true
  | .testProcRun _ _ => true
  | .testProcEnd _ => true
  | .spareBistPeriodic _ _ => true
  | .merCfgWrite _ _ => true
  | .refLock => true
  | .refLoss => true
  | .refReturn => true
  | .ppsCapture => true
  | .thermalWarning _ => true
  | .thermtrip _ => true
  | .qmgDropRead _ => true
  | .fbkLostRead _ => true
  | .glbErrCntRead _ => true
  | .pkgPowerRead _ => true
  | .atlCntRead _ => true
  | .registerWrite _ _ _ _ _ => true
  | .boundaryScan _ _ => true
  | .vddAonLoss => true
  | .loopbackFollower => true

end Sys2Proof
end

