-- ==== Sys2Proof/Safety.lean ====
section
/-! DEFINITION. Sys2Proof/Safety.lean: what counts as a safe run, and the words that the statements about the machine are
made of: what a step answers, what it leaves alone, and when a reed issues a bundle of one syllable. -/

namespace Sys2Proof.Machine

/-! ### Safe runs -/

/-- The outcome is a next state. -/
def Safe (o : Host.Outcome State Fault Refusal) : Prop := ∃ t, o = .next t

/-- Every command that waits exists. -/
def QueueFits (s : State) : Prop := ∀ c ∈ s.pending, c.wellFormed = true

/-- The outcome is a next state of which `P` holds. -/
def Answers (o : Host.Outcome State Fault Refusal) (P : State → Prop) : Prop := ∃ t, o = .next t ∧ P t

/-! ### Contexts and reeds -/

/-- Context `c` of physical reed `r`. -/
def ctxAt (s : State) (r c : Nat) : Ctx := (reedOf s r).ctxOf c

/-- Nothing but physical reed `r` differs between two states. -/
def OnlyReed (r : Nat) (s t : State) : Prop := t = setReed r (reedOf t r) s

/-- Nothing but reed `r` differs between two states, and of its contexts none but `c`. -/
def OnlyCtx (r c : Nat) (s t : State) : Prop := OnlyReed r s t ∧ ∀ d, d ≠ c → ctxAt t r d = ctxAt s r d

/-- Context `c` of reed `r` runs and stands at a bundle boundary, with nothing fetched, and no result, long operation, trap,
repetition, single step, stop or overrun awaits it. -/
structure Ready (r c : Nat) (s : State) : Prop where
  /-- the reed exists -/
  unit : r < 544
  /-- the context has the reed -/
  runs : (reedOf s r).running = some c
  /-- the reed does not wait -/
  free : (reedOf s r).wait = none
  /-- no syllable is fetched -/
  empty : (reedOf s r).latch = []
  /-- no long operation is in flight on the reed -/
  noLou : (reedOf s r).stations = []
  /-- no result awaits its beat -/
  noResult : (ctxAt s r c).run.shadow = []
  /-- no LOU trap is held -/
  noTrap : (ctxAt s r c).run.held = []
  /-- no REP is in progress -/
  noRep : (ctxAt s r c).run.rep = none
  /-- the context is not single-stepped -/
  noStep : (ctxAt s r c).page.step = false
  /-- no stop awaits the context -/
  noStop : (ctxAt s r c).sched.stop = false
  /-- no overrun awaits the context -/
  noDue : (ctxAt s r c).sched.due = none

/-- The reed with the one syllable `w` fetched. -/
def fetched (r : Nat) (w : W32) (s : State) : State := setReed r { reedOf s r with latch := [w] } s

/-- What the bundle of the one syllable `w` reads. -/
def loneView (r c : Nat) (w : W32) (s : State) : View := viewOf (fetched r w s) r c (reedOf (fetched r w s) r) none

/-- The reed is ready, its next bundle is the one syllable `w`, the guard of `w` reads 1, and neither the fetch nor the
decoding of the bundle faults (R66 to R68). -/
structure Lone (r c : Nat) (w : W32) (s : State) : Prop where
  /-- the reed is ready -/
  ready : Ready r c s
  /-- the syllable ends its bundle -/
  last : stop w = true
  /-- the reed fetches this word next -/
  fetches : (fetchAt s r (reedOf s r) (ctxAt s r c).run.pc 0).1 = w
  /-- its guard reads 1 -/
  guard : (ctxAt s r c).regs.pOf (pg w) = true
  /-- no fault comes before its data accesses -/
  front : frontFault (loneView r c w s) (reedOf (fetched r w s) r) = none
  /-- BUDGET is not used up -/
  budget : budgetSpent (ctxAt s r c) [w] = false

/-- Row `i` is the operation `o` of word `w` on physical reed `r`, and it exists (R64, R170). -/
def Spells (i : Instr) (o : SylOp) (r : Nat) (w : W32) : Prop := i.syllable = some (some o, r, w) ∧ i.wellFormed = true

/-- Results written to their registers in order. -/
def written (rs : List Res) (k : Ctx) : Ctx := rs.foldl (fun t x => applyDest x.dest x.value t) k

/-- Two states of a context agree in all that a bundle without control transfer, call or frame leaves alone: the return
stack, the frames, the Q registers, the held traps and the RED-page registers. -/
def KeepsFlow (k l : Ctx) : Prop :=
  l.page = k.page ∧ l.image = k.image ∧ l.run.slots = k.run.slots ∧ l.run.rsp = k.run.rsp ∧ l.run.depth = k.run.depth ∧
    l.run.frames = k.run.frames ∧ l.run.q = k.run.q ∧ l.run.qValid = k.run.qValid ∧ l.run.held = k.run.held

/-- A result `v` of the bundle issued from `s` awaits its beat in `t`: it is written to `d` after `lat` bundles of its level
(R41, R56). -/
def Awaits (r c : Nat) (s t : State) (d : Dest) (v lat : Nat) : Prop :=
  let q := (ctxAt s r c).run
  ∃ e ∈ (ctxAt t r c).run.shadow,
    e.level = q.level ∧ e.issued = q.countAt q.level ∧ e.due = q.countAt q.level + lat ∧ e.dest = d ∧ e.value = v

/-- Flags of the bundle issued from `s` await their beat in `t` (R42, R56). -/
def AwaitsFlags (r c : Nat) (s t : State) (f : Raised) (lat : Nat) : Prop :=
  let q := (ctxAt s r c).run
  ∃ e ∈ (ctxAt t r c).run.shadow,
    e.level = q.level ∧ e.issued = q.countAt q.level ∧ e.due = q.countAt q.level + lat ∧ e.raised = f

/-- From `s` to `t`, the low `len` bytes of `val` were stored at byte address `byte` of reed `r`'s own memories, lowest byte
first, and no other byte of the device's memory changed (R44, R49). -/
def StoredOwn (r byte len val : Nat) (s t : State) : Prop :=
  ∀ b, memGet t.mem b =
    if 2 * reedBase r + byte ≤ b ∧ b < 2 * reedBase r + byte + len then
      BitVec.ofNat 8 (val / 2 ^ (8 * (b - (2 * reedBase r + byte))))
    else memGet s.mem b

/-- Of all reeds' contexts none but context `c` of reed `r` differs. -/
def OtherCtxKept (r c : Nat) (s t : State) : Prop :=
  (∀ q, q ≠ r → reedOf t q = reedOf s q) ∧ ∀ d, d ≠ c → ctxAt t r d = ctxAt s r d

/-- The blocks that a store to a reed's own memories never reaches: the queue, the device registers, the clock, the sparing
map, the queues and events, the Sluice engines, the scan ports, the timers, trust and test. -/
def FarBlocksKept (s t : State) : Prop :=
  t.pending = s.pending ∧ t.fresh = s.fresh ∧ t.glb = s.glb ∧ t.pwr = s.pwr ∧ t.mer = s.mer ∧ t.binding = s.binding ∧
    t.qmg = s.qmg ∧ t.evr = s.evr ∧ t.slc = s.slc ∧ t.ssp = s.ssp ∧ t.tcu = s.tcu ∧ t.sec = s.sec ∧ t.tst = s.tst

/-! ### Register accesses of the device's pages -/

/-- The page at a BAR0 byte offset responds to an agent (R5, R289). -/
def Responds (ag off : Nat) (s : State) : Prop := s.glb.state ≠ .off ∧ pageOpen s ag (off / 4096) = true

/-- The page at a BAR0 byte offset is closed to an agent in this state (R289). -/
def Closed (ag off : Nat) (s : State) : Prop := s.glb.state ≠ .off ∧ pageOpen s ag (off / 4096) = false

/-- Row `i` is agent `ag`'s read at a BAR0 byte offset: where the page responds it returns `v` and leaves `t`; where the page
is closed it returns 0 and GLB.ERR records cause 3 (R289, R387, R393). -/
def Reads (i : Instr) (ag off : Nat) (s : State) (v : W32) (t : State) : Prop :=
  (Responds ag off s → exec i s = .next (send (.readData v) t)) ∧
  (Closed ag off s → exec i s = .next (send (.readData 0) (glbErr 3 (agentOf ag) (off / 4) s)))

/-- Row `i` is agent `ag`'s write at a BAR0 byte offset: where the page responds it leaves `t`; where the page is closed the
write is ignored and GLB.ERR records cause 3 (R289, R393). -/
def Writes (i : Instr) (ag off : Nat) (s t : State) : Prop :=
  (Responds ag off s → exec i s = .next t) ∧
  (Closed ag off s → exec i s = .next (glbErr 3 (agentOf ag) (off / 4) s))

/-- Row `i` is agent `ag`'s write at a byte offset of reed `r`'s RED page: as every write, but that of a reed that has been
retired or has failed its test ignores it and GLB.ERR records cause 7 (R366, R373). -/
def WritesRed (i : Instr) (ag r o : Nat) (s t : State) : Prop :=
  Writes i ag (0x1000000 + 0x1000 * r + o) s
    (if s.spr.failed.contains r then glbErr 7 (agentOf ag) ((0x1000000 + 0x1000 * r + o) / 4) s else t)

/-! ### Overruns -/

/-- From `s` to `t` context `c` of reed `r` overran for a cause, under the policy of its entry (R28 to R30, R36, R164). -/
def Overran (r c : Nat) (cause : OvrCause) (s t : State) : Prop :=
  let x := reedOf s r
  let y := reedOf t r
  let k := ctxAt s r c
  let l := ctxAt t r c
  let h := k.sched
  let pay := payload r (c * 2 ^ 40 + h.dom * 2 ^ 32 + h.tide % 2 ^ 32)
  let u := fbRaise (0x0A00 + cause.code) pay s
  let discarded := l.run = { slots := k.run.slots } ∧ l.sched.phase = .idle ∧ l.page.skipping = false
  OtherCtxKept r c s t ∧ FarBlocksKept s t ∧ t.mem = s.mem ∧ y.stores = x.stores ∧
    y.running = (if x.running = some c then none else x.running) ∧
    y.preempted.filter (· != c) = x.preempted.filter (· != c) ∧ (x.running ≠ some c → c ∉ y.preempted) ∧
    y.page = { x.page with tk := if cause = .start then x.page.tk &&& ~~~entryTkwait h.entry else x.page.tk } ∧
    (h.pos < 8 → bitOf (Tab.get {} y.progress h.dom).ended h.pos = true) ∧
    l.regs = k.regs ∧ l.page.ovrCause = cause.code ∧ l.page.ovrCount = satInc 0xFFFF k.page.ovrCount ∧ l.page.slack = 0 ∧
    l.page.wmark = max k.page.wmark (min h.beats 0xFFFFFF) ∧
    (if h.resumed then discarded ∧ t.fbk = (fbRaise 0x0A04 pay u).fbk ∧ t.srcs = s.srcs
    else if entryPol h.entry = 2 then
      l.run = k.run ∧ l.sched.phase = .idle ∧ l.page.halted = true ∧
        t.fbk = (fbRaise 0x0901 pay (fireSource (0x100 + r) u)).fbk ∧ t.srcs = (fireSource (0x100 + r) s).srcs
    else t.fbk = u.fbk ∧ t.srcs = s.srcs ∧
      if cause = .start then l.run = k.run ∧ l.sched.phase = h.phase
      else if entryPol h.entry = 1 then l.run = k.run ∧ l.sched.phase = .suspended ∧ l.page.skipping = true
      else discarded)

end Sys2Proof.Machine
end

