-- ==== Sys2Proof/Certificates/Slice0/Obligations.lean ====
section
/-! DEFINITION. Sys2Proof/Certificates/Slice0/Obligations.lean: what is to be proved of the model. Every statement cites the
rules it is about; those on a choice of the model name its log entry. -/

open Sys2Proof Sys2Proof.Machine

/-! ### Syllables: registers -/

/-- The 28 S-ALU rows ADD, SUB, ADDS, SUBS, NEG, NEGS, AND, OR, XOR, NOT, LSL, LSR, ASR, ASH, MIN, MAX, MINU, MAXU, CMPEQ,
CMPNE, CMPLT, CMPGE, CMPLTU, CMPGEU, MOV, PAND, POR and PNOT (R79): the bundle completes, its result stands in the
destination register when the next bundle begins (a result to P0 is discarded), FSW.OV is set where the operation overflows,
and nothing else of the machine, of the other contexts, of the register file or of the control state changes. -/
def Obligations.AluWritesItsResult : Prop :=
  ∀ (i : Instr) (o : AluOp) (r c : Nat) (w : W32) (s : State), Spells i (.alu o) r w → Lone r c w s →
    let k := ctxAt s r c
    let im := bitOf w 18
    let imm : W32 := if o.immSigned then wrap 32 (signed 6 (fld w 0 6)) else BitVec.ofNat 32 (fld w 0 6)
    let b := if im then imm else k.regs.grOf (grAt (fld w 0 6))
    let a := if im && o == .mov then imm else k.regs.grOf (grAt (fld w 6 6))
    ∃ t, exec i s = .next t ∧ OnlyCtx r c s t ∧ KeepsFlow k (ctxAt t r c) ∧ (ctxAt t r c).run.shadow = [] ∧
      (ctxAt t r c).regs = ((applyDest (grAt (fld w 12 6)).dest (aluResult o a b).1.toNat k).setFlags
        (Raised.bit fswOV (aluResult o a b).2)).regs

/-- The eight S-MOV rows MOVI, MOVQ, MVA, MVM, RDSR, WRSR, RPD and WPD (R80 to R82): the bundle completes with the register or
special register written, FSW.SAT set where MVA clamps, the loop registers where WRSR names one, the staging register and,
for quarter 3, the pending descriptor of WPD; nothing else changes. -/
def Obligations.MovWritesItsResult : Prop :=
  ∀ (i : Instr) (o : MovOp) (r c : Nat) (w : W32) (s : State), Spells i (.mov o) r w → Lone r c w s →
    let k := ctxAt s r c
    let d := fld w 17 3
    let toS := fun v : Nat => applyDest (.s d) v k
    let out := readOut 32 k.regs.fsw (fld w 15 2) (k.regs.aOf (fld w 15 2)) (fld w 9 6)
    let sr := writeSr (fld w 11 6) (k.regs.sOf d)
    let stage := putFld k.run.staging (32 * fld w 11 2) 32 (k.regs.sOf d).toNat
    let after : Ctx := match o with
      | .movi => toS (if bitOf w 16 then fld w 0 16 * 2 ^ 16 + fld (k.regs.sOf d) 0 16
          else (wrap 32 (signed 16 (fld w 0 16))).toNat)
      | .movq => toS (fld (Tab.get 0 k.run.q (fld w 13 3)) (if bitOf w 16 then 32 else 0) 32)
      | .mva => (toS (wrap 32 out.1).toNat).setFlags (Raised.bit fswSAT out.2)
      | .mvm => toS (fld (k.regs.mOf (fld w 15 2)) (if bitOf w 14 then 32 else 0) 32)
      | .rdsr => toS (readSr (loneView r c w s) (fld w 11 6)).toNat
      | .rpd => toS (fld (k.regs.pdOf (fld w 13 4)) (32 * fld w 11 2) 32)
      | .wrsr => written sr k
      | .wpd => k
    (o = .movq → bitOf k.run.qValid (fld w 13 3) = true) →
      ∃ t, exec i s = .next t ∧ OnlyCtx r c s t ∧ (ctxAt t r c).regs = after.regs ∧
        KeepsFlow { k with page := after.page } (ctxAt t r c) ∧
        (ctxAt t r c).run.staging = (if o = .wpd then stage else k.run.staging) ∧
        (o = .wrsr → (ctxAt t r c).run.loops =
          (written sr { k with run := { k.run with loops := (closeLoops k.run.loops k.run.pc k.run.loops.order).1 } }).run.loops) ∧
        (o = .wpd → fld w 11 2 = 3 →
          Awaits r c s t (.pd (fld w 13 4)) (pdStored (bitOf k.page.cfgNext 1) stage).toNat 2)

/-- The twelve M-ACC rows MUL, MULU, ACLR, ALD, AMOV, AADD, ASUB, ANEG, ASHL, ASHR, ALSR and ASH (R73, R96, R97): the product
awaits Mn for three bundles, every other result awaits An for two, a guard overflow that raises no AGV exception awaits its flags
with it, and no register has changed yet; nothing else changes. -/
def Obligations.AccResultAwaitsItsBeat : Prop :=
  ∀ (i : Instr) (o : AccOp) (r c : Nat) (w : W32) (s : State), Spells i (.acc o) r w → Lone r c w s →
    let k := ctxAt s r c
    let n := fld w 22 2
    let sa := k.regs.sOf (fld w 15 3)
    let sb := k.regs.sOf (fld w 12 3)
    let a := if o = .aadd ∨ o = .asub then accIn k.regs k.run n else k.regs.aOf n
    let res := accResult o a (k.regs.mOf n) sa sb (fld w 11 7)
    (res.overflow = none ∨ bitOf k.regs.fsw fswAGE = false) →
      ∃ t, exec i s = .next t ∧ OnlyCtx r c s t ∧ KeepsFlow k (ctxAt t r c) ∧ (ctxAt t r c).regs = k.regs ∧
        (if o = .mul ∨ o = .mulu then Awaits r c s t (.m n) (mulResult o sa sb).toNat 3
        else Awaits r c s t (.a n) res.value.toNat 2 ∧
          (res.overflow.isSome → AwaitsFlags r c s t (res.raised n) 2))

/-- The nine M-MAC rows MAC_S, MAC_D, MSU_S, MSU_D, MPA_S, MPA_D, DMAC, DMSU and DMPA (R72, R89, R90), where both operands can
be read and no AGV exception is raised: the sum of products awaits An for two bundles with the guard flags of its overflow, the
two pointers are updated for the next bundle, and nothing else changes. -/
def Obligations.MacAccumulatesAndUpdatesPointers : Prop :=
  ∀ (i : Instr) (o : MacOp) (r c : Nat) (w : W32) (s : State) (xa ya : Nat), Spells i (.mac o) r w → Lone r c w s →
    let k := ctxAt s r c
    let g := k.regs
    let n := fld w 22 2
    let bytes := if o.double then 4 else 2
    let width := g.accessWidth bytes
    let xp := g.index g.x n
    let yp := g.index g.y n
    let res := macResult o (if o.accumulates then accIn g k.run n else 0) (bytesAt s r (g.byteOf xa) bytes)
      (bytesAt s r (g.byteOf ya) bytes)
    indexCheck s r g 0 xp width .read = .ok xa → indexCheck s r g 1 yp width .read = .ok ya →
    firstBad s r (touched (g.byteOf xa) bytes) = none → firstBad s r (touched (g.byteOf ya) bytes) = none →
    (res.overflow = none ∨ bitOf g.fsw fswAGE = false) →
      ∃ t, exec i s = .next t ∧ OnlyCtx r c s t ∧ KeepsFlow k (ctxAt t r c) ∧
        (ctxAt t r c).regs = (written (pointerRes g false n (fld w 16 2) (fld w 14 2) xp width ++
          pointerRes g true n (fld w 12 2) (fld w 10 2) yp width) k).regs ∧
        Awaits r c s t (.a n) res.value.toNat 2 ∧ (res.overflow.isSome → AwaitsFlags r c s t (res.raised n) 2)

/-- The 23 V-FP rows FADD, FSUB, FMUL, FMA, FMS, FNEG, FABS, FMIN, FMAX, FCEQ, FCLT, FCLE, FCUN, FCVTD2S, FCVTS2D, FCVTH2S,
FCVTS2H, FCVTF2I, FCVTI2F, FMOVF2S, FMOVS2F, FMOVQ and FMOV (R74), where no enabled flag traps and FMOVQ reads a valid Q
register: the result awaits its F, S or P register for four bundles (binary64 arithmetic), three (binary32 arithmetic) or two,
the flags raised await with it, no register has changed yet, and nothing else changes. -/
def Obligations.FpResultAwaitsItsBeat : Prop :=
  ∀ (i : Instr) (o : FpOp) (r c : Nat) (w : W32) (s : State), Spells i (.fp o) r w → Lone r c w s →
    let k := ctxAt s r c
    let g := k.regs
    let fa := fld w 7 5
    let a := match o with
      | .fcvti2f | .fmovs2f => (g.sOf (fa % 8)).toNat
      | .fmovq => (Tab.get 0 k.run.q (fa % 8)).toNat
      | _ => (g.fOf fa).toNat
    let res := fpArith o (prFmt (bitOf w 17)) (roundOf g.fsw) (ftzOf g.fsw) (g.fOf (fld w 12 5)).toNat a (g.fOf (fld w 2 5)).toNat
    let lat := fpLatency o (bitOf w 17)
    fpTraps g res.fl = false → (o = .fmovq → bitOf k.run.qValid (fa % 8) = true) →
      ∃ t, exec i s = .next t ∧ OnlyCtx r c s t ∧ KeepsFlow k (ctxAt t r c) ∧ (ctxAt t r c).regs = g ∧
        Awaits r c s t (fpDest o (fld w 12 5)) res.bits lat ∧
        (fpRaised res.fl ≠ {} → AwaitsFlags r c s t (fpRaised res.fl) lat)

/-- The ten V-VEC rows VADD, VSUB, VMUL, VFMA, VMIN, VMAX, VAND, VOR, VXOR and VDUP (R75, R122, R141), where no enabled flag
traps: both halves of the V register await their value for three bundles, the flags of all lanes with them, no register has
changed yet, and nothing else changes. -/
def Obligations.VecResultAwaitsItsBeat : Prop :=
  ∀ (i : Instr) (o : VecOp) (r c : Nat) (w : W32) (s : State), Spells i (.vec o) r w → Lone r c w s →
    let k := ctxAt s r c
    let g := k.regs
    let vd := fld w 12 4
    let res := vecResult o (fld w 16 2) (roundOf g.fsw) (ftzOf g.fsw) (g.vOf vd) (g.vOf (fld w 8 4)) (g.vOf (fld w 4 4)) (fld w 4 4)
    fpTraps g res.2.1 = false →
      ∃ t, exec i s = .next t ∧ OnlyCtx r c s t ∧ KeepsFlow k (ctxAt t r c) ∧ (ctxAt t r c).regs = g ∧
        Awaits r c s t (.f (2 * vd)) (res.1 % 2 ^ 64) 3 ∧ Awaits r c s t (.f (2 * vd + 1)) (res.1 / 2 ^ 64) 3 ∧
        (fpRaised res.2.1 ≠ {} → AwaitsFlags r c s t (fpRaised res.2.1) 3)

/-! ### Syllables: memory -/

/-- The V-MEM loads FLD_W, FLD_Q, VLD and CLD (R76, R146), where the pointer's access passes its check, the words read hold no
uncorrectable error and CLD's block is well formed: the loaded value awaits its F register or both halves of its V register for
two bundles, the pointer is updated for the next bundle, and nothing else changes. -/
def Obligations.VectorLoadAwaitsItsBeat : Prop :=
  ∀ (i : Instr) (o : VmemOp) (r c : Nat) (w : W32) (s : State) (a : Nat), Spells i (.vmem o) r w → Lone r c w s →
    let k := ctxAt s r c
    let g := k.regs
    let y := bitOf w 14
    let p := if y then g.index g.y (fld w 12 2) else g.index g.x (fld w 12 2)
    let n := vmemWords o
    let byte := g.byteOf a
    let val := bytesAt s r byte (2 * n)
    let fr := fld w 15 5
    let dec := fromLanes 32 ((contourDecode (valueWords 17 val) (fld w 6 2)).map (·.toNat))
    (o = .fldW ∨ o = .fldQ ∨ o = .vld ∨ o = .cld) → indexCheck s r g y.toNat p n .read = .ok a →
    firstBad s r (touched byte (2 * n)) = none → (o = .cld → contourOk (valueWords 17 val) = true) →
      ∃ t, exec i s = .next t ∧ OnlyCtx r c s t ∧ KeepsFlow k (ctxAt t r c) ∧
        (ctxAt t r c).regs = (written (pointerRes g y (fld w 12 2) (fld w 10 2) (fld w 8 2) p n) k).regs ∧
        ((o = .fldW ∨ o = .fldQ) → Awaits r c s t (.f fr) val 2) ∧
        (o = .vld → Awaits r c s t (.f (2 * (fr % 16))) (val % 2 ^ 64) 2 ∧
          Awaits r c s t (.f (2 * (fr % 16) + 1)) (val / 2 ^ 64) 2) ∧
        (o = .cld → Awaits r c s t (.f (2 * (fr % 16))) (dec % 2 ^ 64) 2 ∧
          Awaits r c s t (.f (2 * (fr % 16) + 1)) (dec / 2 ^ 64) 2)

/-- The V-MEM stores FST_W, FST_Q, VST and CST (R76, R147) whose words lie in the reed's own memories: the value stands in
memory at the pointer's address, no other byte of memory changes, the pointer is updated, and no other reed, no other context and
no block that a local store cannot reach changes. -/
def Obligations.VectorStoreWritesItsBytes : Prop :=
  ∀ (i : Instr) (o : VmemOp) (r c : Nat) (w : W32) (s : State) (a : Nat), Spells i (.vmem o) r w → Lone r c w s →
    Memory.wf s.mem = true →
    let k := ctxAt s r c
    let g := k.regs
    let y := bitOf w 14
    let p := if y then g.index g.y (fld w 12 2) else g.index g.x (fld w 12 2)
    let n := vmemWords o
    let byte := g.byteOf a
    let fr := fld w 15 5
    let val := match o with
      | .fstW => (g.fOf fr).toNat % 2 ^ 32
      | .fstQ => (g.fOf fr).toNat
      | .vst => g.vOf (fr % 16)
      | _ => wordsValue (contourEncode
          ((List.range 16).map fun i => BitVec.ofNat 32 (lane 32 (g.vOf (fr % 16 + i / 4)) (i % 4))))
    (o = .fstW ∨ o = .fstQ ∨ o = .vst ∨ o = .cst) → indexCheck s r g y.toNat p n .write = .ok a →
    byte + 2 * n ≤ 0x80000 →
      ∃ t, exec i s = .next t ∧ StoredOwn r byte (2 * n) val s t ∧ OtherCtxKept r c s t ∧ FarBlocksKept s t ∧
        KeepsFlow k (ctxAt t r c) ∧
        (ctxAt t r c).regs = (written (pointerRes g y (fld w 12 2) (fld w 10 2) (fld w 8 2) p n) k).regs

/-- The long-vector rows LVCPY and LVADDF (R142, R143) over 1 to 256 elements, both parcels BANK parcels in the reed's own
memories, with no uncorrectable error in what is read and no flag that traps: the elements, copied or added in binary32, stand in
the target range, no other byte of memory changes, the flags of all elements are set, no register changes, and no other reed, no
other context and no block that a local store cannot reach changes. -/
def Obligations.LongVectorWritesItsElements : Prop :=
  ∀ (i : Instr) (o : VmemOp) (r c : Nat) (w : W32) (s : State) (sa ta : Nat), Spells i (.vmem o) r w → Lone r c w s →
    Memory.wf s.mem = true →
    let k := ctxAt s r c
    let g := k.regs
    let ps := fld w 16 4
    let pt := fld w 12 4
    let so := (g.sOf (fld w 9 3)).toNat
    let to' := (g.sOf (fld w 6 3)).toNat
    let n := (g.sOf (fld w 3 3)).toNat
    let sums : List FRes := (List.range n).map fun i =>
      if o = .lvaddf then
        fAdd f32 (roundOf g.fsw) (ftzOf g.fsw) (elemAt s r (ta + 2 * i)) (elemAt s r (sa + 2 * i))
      else { bits := elemAt s r (sa + 2 * i) }
    let fl := (longFlags g (sums.map (·.fl))).1
    (o = .lvcpy ∨ o = .lvaddf) → 1 ≤ n → n ≤ 256 →
    pdTgt (g.pdOf ps) = 0 → pdTgt (g.pdOf pt) = 0 →
    parcelCheck s r g ps (g.pdOf ps) so (2 * n) .read = .ok sa →
    parcelCheck s r g pt (g.pdOf pt) to' (2 * n) .write = .ok ta →
    (o = .lvaddf → parcelCheck s r g pt (g.pdOf pt) to' (2 * n) .read = .ok ta) →
    sa + 2 * n ≤ 0x40000 → ta + 2 * n ≤ 0x40000 →
    (∀ j, j < 2 * n → placeBad s (placeOf s r (sa + j)) = false ∧ (o = .lvaddf → placeBad s (placeOf s r (ta + j)) = false)) →
    fpTraps g fl = false →
      ∃ t, exec i s = .next t ∧ StoredOwn r (2 * ta) (4 * n) (fromLanes 32 (sums.map (·.bits))) s t ∧
        OtherCtxKept r c s t ∧ FarBlocksKept s t ∧ KeepsFlow k (ctxAt t r c) ∧
        (ctxAt t r c).regs = (k.setFlags (fpRaised fl)).regs

/-- The S-slot loads LD_S, LD_SU, LD_D and LD_Q of Service personality, and LDB, LDBU, LDH, LDHU and LDW of Survey personality
(R71, R78), from a BANK or IM parcel where the access passes its check and the words read hold no uncorrectable error: the value,
sign- or zero-extended as the row says, awaits its register for two bundles, an index form updates its pointer for the next
bundle, and nothing else changes. -/
def Obligations.ScalarLoadAwaitsItsBeat : Prop :=
  ∀ (i : Instr) (o : SylOp) (r c : Nat) (w : W32) (s : State) (a : Nat), Spells i o r w → Lone r c w s →
    let k := ctxAt s r c
    let g := k.regs
    let gr := fld w 14 6
    let bytes := match o with
      | .smem m => m.bytes
      | .svy m => m.bytes
      | _ => 0
    let byte := g.byteOf a
    let val := bytesAt s r byte bytes
    ((∃ m : SmemOp, o = .smem m ∧ m.isStore = false) ∨ ∃ m : SvyOp, o = .svy m ∧ m.isStore = false) →
    accessCheck s r g w bytes .read = .ok a → pdTgt (g.pdOf (accessParcel w)) ≤ 1 →
    firstBad s r (touched byte bytes) = none →
      ∃ t, exec i s = .next t ∧ OnlyCtx r c s t ∧ KeepsFlow k (ctxAt t r c) ∧
        (ctxAt t r c).regs = (written (accessUpdate g w bytes) k).regs ∧
        (o = .smem .ldS → Awaits r c s t (grAt gr).dest (wrap 32 (signed 16 val)).toNat 2) ∧
        (o = .smem .ldSu ∨ o = .smem .ldD → Awaits r c s t (grAt gr).dest val 2) ∧
        (o = .smem .ldQ → Awaits r c s t (.s gr) (val % 2 ^ 32) 2 ∧ Awaits r c s t (.s (gr + 1)) (val / 2 ^ 32) 2) ∧
        (o = .svy .ldb → Awaits r c s t (.s gr) (wrap 32 (signed 8 val)).toNat 2) ∧
        (o = .svy .ldh → Awaits r c s t (.s gr) (wrap 32 (signed 16 val)).toNat 2) ∧
        (o = .svy .ldbu ∨ o = .svy .ldhu ∨ o = .svy .ldw → Awaits r c s t (.s gr) val 2)

/-- The S-slot stores ST_S, ST_D, ST_Q, STA_S and STA_D of Service personality, and STB, STH and STW of Survey personality
(R78, R94, R95), to a BANK or IM parcel in the reed's own memories: the value stands in memory at the access's address, no other
byte of memory changes, FSW.SAT is set where STA clamps, an index form updates its pointer, and no other reed, no other context
and no block that a local store cannot reach changes. -/
def Obligations.ScalarStoreWritesItsBytes : Prop :=
  ∀ (i : Instr) (o : SylOp) (r c : Nat) (w : W32) (s : State) (a : Nat), Spells i o r w → Lone r c w s →
    Memory.wf s.mem = true →
    let k := ctxAt s r c
    let g := k.regs
    let gr := fld w 14 6
    let bytes := match o with
      | .smem m => m.bytes
      | .svy m => m.bytes
      | _ => 0
    let byte := g.byteOf a
    let bits := if o = .smem .staS then 16 else 32
    let out := readOut bits g.fsw (gr - 0x28) (g.aOf (gr - 0x28)) (fld w 0 6)
    let sta := o = .smem .staS ∨ o = .smem .staD
    let val := match o with
      | .smem .staS | .smem .staD => (wrap bits out.1).toNat
      | .smem .stQ => (g.sOf gr).toNat + 2 ^ 32 * (g.sOf (gr + 1)).toNat
      | .smem _ => (g.grOf (grAt gr)).toNat
      | _ => (g.sOf gr).toNat
    ((∃ m : SmemOp, o = .smem m ∧ m.isStore = true) ∨ ∃ m : SvyOp, o = .svy m ∧ m.isStore = true) →
    accessCheck s r g w bytes .write = .ok a → pdTgt (g.pdOf (accessParcel w)) ≤ 1 → byte + bytes ≤ 0x80000 →
      ∃ t, exec i s = .next t ∧ StoredOwn r byte bytes val s t ∧ OtherCtxKept r c s t ∧ FarBlocksKept s t ∧
        KeepsFlow k (ctxAt t r c) ∧
        (ctxAt t r c).regs = ((written (accessUpdate g w bytes) k).setFlags
          (if sta then Raised.bit fswSAT out.2 else {})).regs

/-- The same S-slot rows over a far parcel (R60, R61). A load whose places can be reached and are no gate words of EMPTY slots
makes its reed wait, from now, for the data, and changes no context. A store of which a place in the buffer of eight is free, and
whose places can be reached, joins the buffer's end with its words, and writes no memory yet; of the contexts none but its own
changes. -/
def Obligations.FarAccessWaitsOrIsBuffered : Prop :=
  ∀ (i : Instr) (o : SylOp) (r c : Nat) (w : W32) (s : State) (a : Nat), Spells i o r w → Lone r c w s →
    let k := ctxAt s r c
    let g := k.regs
    let bytes := match o with
      | .smem m => m.bytes
      | .svy m => m.bytes
      | _ => 0
    let byte := g.byteOf a
    let tgt := pdTgt (g.pdOf (accessParcel w))
    2 ≤ tgt → (∀ b ∈ touched byte bytes, farUnsent s (placeOf s r b) = false ∧ gateEmpty s (placeOf s r b) = false) →
    ((((∃ m : SmemOp, o = .smem m ∧ m.isStore = false) ∨ ∃ m : SvyOp, o = .svy m ∧ m.isStore = false) →
      accessCheck s r g w bytes .read = .ok a →
        ∃ t, exec i s = .next t ∧ (reedOf t r).wait = some (.farRead (now s)) ∧ (∀ d, ctxAt t r d = ctxAt s r d) ∧
          (∀ q, q ≠ r → reedOf t q = reedOf s q) ∧ t.mem = s.mem) ∧
    (((∃ m : SmemOp, o = .smem m ∧ m.isStore = true) ∨ ∃ m : SvyOp, o = .svy m ∧ m.isStore = true) →
      accessCheck s r g w bytes .write = .ok a → (reedOf s r).stores.length < 8 →
        ∃ t e, exec i s = .next t ∧ (reedOf t r).stores = (reedOf s r).stores ++ [e] ∧ e.tgt = tgt ∧ e.since = now s ∧
          e.words.map (·.addr) = touched byte bytes ∧ (reedOf t r).wait = none ∧ OnlyReed r s t ∧
          (∀ d, d ≠ c → ctxAt t r d = ctxAt s r d)))

/-! ### Syllables: long operations and control -/

/-- The 15 Q-LOU rows that compute, LMUL, LMULU, LMUL64, LMULH64, LDIV, LDIVU, FDIV, FSQRT, EXP2, LOG2, SIN2PI, TANH, RSQRT,
BCDADD and BCDSUB, issue: with no long operation in flight on the reed the operation takes a reservation station with its
operands and the FSW fields of its issue, and its Q register reads pending; LBAR, with nothing in flight, completes without
effect (R77, R105, R110, R113). No register changes, and nothing beside the reed's context and its stations. -/
def Obligations.LongOperationTakesItsStation : Prop :=
  ∀ (i : Instr) (o : LouOp) (r c : Nat) (w : W32) (s : State), Spells i (.lou o) r w → Lone r c w s →
    let k := ctxAt s r c
    let g := k.regs
    ∃ t, exec i s = .next t ∧ OnlyCtx r c s t ∧ (ctxAt t r c).regs = g ∧ (ctxAt t r c).page = k.page ∧
      (ctxAt t r c).run.q = k.run.q ∧
      if o = .lbar then (reedOf t r).stations = [] ∧ (ctxAt t r c).run.qValid = k.run.qValid
      else ∃ x, (reedOf t r).stations = [x] ∧ x.ctx = c ∧ x.op = o ∧ x.pr = bitOf w 4 ∧ x.rm = roundOf g.fsw ∧
        x.ftz = ftzOf g.fsw ∧ x.constTime = g.constTime ∧ x.a = louOperand g o (fld w 10 5) ∧
        x.b = louOperand g o (fld w 5 5) ∧ x.qd = fld w 15 3 ∧ x.fpc = k.run.pc ∧
        x.dze = (o.isDivide && bitOf g.fsw fswDZE) ∧
        (ctxAt t r c).run.qValid = putBit k.run.qValid (fld w 15 3) false

/-- The C-BR rows BR, CALL, BRI, CALLI and RET (R85, R149, R153): the next bundle is the relative target, the address in S or the
return stack's top; CALL and CALLI push the address of the next sequential bundle, RET pops, and where CTXCFG.RSO is 1 the stack
is not full for a call and not empty for a return. No register, loop or frame changes, and nothing beside the context. -/
def Obligations.BranchGoesToItsTarget : Prop :=
  ∀ (i : Instr) (o : BrOp) (r c : Nat) (w : W32) (s : State), Spells i (.br o) r w → Lone r c w s → o ≠ .rfe →
    let k := ctxAt s r c
    let sa := (k.regs.sOf (fld w 17 3)).setWidth 16
    let stack := match o with
      | .call | .calli => k.run.push (k.run.pc + 1)
      | .ret => k.run.pop
      | _ => k.run
    ((o = .call ∨ o = .calli) → ¬(k.run.depth = 16 ∧ k.regs.rso = true)) → (o = .ret → ¬(k.run.depth = 0 ∧ k.regs.rso = true)) →
      ∃ t, exec i s = .next t ∧ OnlyCtx r c s t ∧ (ctxAt t r c).regs = k.regs ∧ (ctxAt t r c).page = k.page ∧
        (ctxAt t r c).run.loops = k.run.loops ∧ (ctxAt t r c).run.frames = k.run.frames ∧
        (ctxAt t r c).run.slots = stack.slots ∧ (ctxAt t r c).run.rsp = stack.rsp ∧ (ctxAt t r c).run.depth = stack.depth ∧
        (ctxAt t r c).run.pc = match o with
          | .br | .call => relTarget k.run.pc w
          | .bri | .calli => sa
          | _ => k.run.top

/-- RFE in a handler, the words of its exception record readable (R163): the frame is left, the PC and the FSW are those of the
record (the reserved FSW bits cleared), the predicates, the loops and the return stack's place are those of the frame, and nothing
beside the context changes. -/
def Obligations.RfeRestoresTheFrame : Prop :=
  ∀ (r c : Nat) (w : W32) (s : State) (f : Frame) (fs : List Frame), Spells (.rfe r w) (.br .rfe) r w → Lone r c w s →
    let k := ctxAt s r c
    let a := recordAt k.page fs.length
    k.run.frames = f :: fs → firstBad s r [a + 3, a + 6, a + 7] = none →
      ∃ t, exec (.rfe r w) s = .next t ∧ OnlyCtx r c s t ∧ (ctxAt t r c).run.pc = xWord s r (a + 3) ∧
        (ctxAt t r c).regs = { k.regs with
          fsw := (xWord s r (a + 7) ++ xWord s r (a + 6)) &&& 0x03FFFFFF#32, p := f.preds } ∧
        (ctxAt t r c).page = k.page ∧ (ctxAt t r c).run.frames = fs ∧ (ctxAt t r c).run.loops = f.loops ∧
        (ctxAt t r c).run.rep = f.rep ∧ (ctxAt t r c).run.rsp = f.rsp ∧ (ctxAt t r c).run.depth = f.depth ∧
        (ctxAt t r c).run.slots = k.run.slots

/-- LOOP, REP and REPI in a bundle at which no loop closes (R86, R154, R156). LOOP sets its level's count, start (the next
sequential bundle) and end, and goes on with the next bundle, or, where a register count is 0, behind the bundle at LE; REP and
REPI make the next bundle execute as often as the field plus 1 says. No register, frame or return-stack entry changes, and
nothing beside the context. -/
def Obligations.LoopsBegin : Prop :=
  ∀ (i : Instr) (o : LoopOp) (r c : Nat) (w : W32) (s : State), Spells i (.loop o) r w → Lone r c w s →
    let k := ctxAt s r c
    let n1 := bitOf w 19
    let le := k.run.pc + BitVec.ofNat 16 (fld w 0 10)
    let count : W32 := if bitOf w 18 then k.regs.sOf (fld w 15 3) else BitVec.ofNat 32 (fld w 10 8 + 1)
    let x := reedOf (fetched r w s) r
    (∀ n, k.run.loops.le n = k.run.pc → k.run.loops.lc n = 0) →
      ∃ t, exec i s = .next t ∧ OnlyCtx r c s t ∧ (ctxAt t r c).regs = k.regs ∧ (ctxAt t r c).page = k.page ∧
        (ctxAt t r c).run.frames = k.run.frames ∧ (ctxAt t r c).run.slots = k.run.slots ∧
        (o = .loop → (ctxAt t r c).run.loops.lc n1 = count ∧ (ctxAt t r c).run.loops.ls n1 = k.run.pc + 1 ∧
          (ctxAt t r c).run.loops.le n1 = le ∧ (ctxAt t r c).run.loops.lc (!n1) = k.run.loops.lc (!n1) ∧
          (ctxAt t r c).run.rep = none ∧
          (ctxAt t r c).run.pc =
            if bitOf w 18 ∧ count = 0 then
              le + BitVec.ofNat 16 (bundleAt (fetched r w s) r { x with prefetch := none, lbuf := {} } le).length
            else k.run.pc + 1) ∧
        (o ≠ .loop → (ctxAt t r c).run.loops = k.run.loops ∧ (ctxAt t r c).run.pc = k.run.pc + 1 ∧
          ((ctxAt t r c).run.rep).map (·.left) = some (fld w 0 16 + 1))

/-- The C-CTL rows NOP, FLUSHI and BCHK, the last with its index below its bound (R87, R157): no register changes and nothing
beside the context; the next bundle is the start of the innermost closing loop that continues, else the next in sequence (R149,
R154), and FLUSHI empties the loop buffer. -/
def Obligations.PlainControlGoesOn : Prop :=
  ∀ (i : Instr) (o : CtlOp) (r c : Nat) (w : W32) (s : State), Spells i (.ctl o) r w → Lone r c w s →
    let k := ctxAt s r c
    let cl := closeLoops k.run.loops k.run.pc k.run.loops.order
    let bound := if bitOf w 13 then pdSize (k.regs.pdOf (fld w 9 4)) * k.regs.unit else grBits k.regs (fld w 7 6)
    (o = .nop ∨ o = .flushi ∨ o = .bchk) → (o = .bchk → grBits k.regs (fld w 14 6) < bound) →
      ∃ t, exec i s = .next t ∧ OnlyCtx r c s t ∧ KeepsFlow k (ctxAt t r c) ∧ (ctxAt t r c).regs = k.regs ∧
        (ctxAt t r c).run.loops = cl.1 ∧
        (ctxAt t r c).run.pc = (match cl.2.1 with
          | some n => cl.1.ls n
          | none => k.run.pc + 1) ∧
        (o = .flushi → (reedOf t r).lbuf = {})

/-- TEND (R87, R168): the context's run ends in its tide. The context is idle, the reed runs none, no frame and no repetition is
left, CTXn_BEATS holds the beats of the run with TEND's own, and, while the domain's tide is still the run's, its entry counts as
ended. No register changes, no other context and no other reed. -/
def Obligations.TendEndsTheRun : Prop :=
  ∀ (r c : Nat) (w : W32) (s : State), Spells (.tend r w) (.ctl .tend) r w → Lone r c w s →
    let k := ctxAt s r c
    let h := k.sched
    h.pos < 8 →
    ∃ t, exec (.tend r w) s = .next t ∧ OnlyCtx r c s t ∧ (reedOf t r).running = none ∧ (ctxAt t r c).regs = k.regs ∧
      (ctxAt t r c).run.frames = [] ∧ (ctxAt t r c).run.rep = none ∧ (ctxAt t r c).run.shadow = [] ∧
      (ctxAt t r c).sched.phase = .idle ∧ (ctxAt t r c).page.beatsLast = min (h.beats + 1) 0xFFFFFF ∧
      (ctxAt t r c).page.wmark = max k.page.wmark (min (h.beats + 1) 0xFFFFFF) ∧
      (h.tide = (domOf s h.dom).tide → bitOf (Tab.get {} (reedOf t r).progress h.dom).ended h.pos = true)

/-- BREAK (R87, R160, R161, R166) with a handler enabled, its cause not set to escalate and a frame free: the bundle completes,
then its exception enters the handler: the frame holds the next bundle's address, the FSW, the predicates and the loops; the PC is
the vector of depth d and cause 0xF; the sixteen words of the record stand in the X-bank; no register and no other context
changes. -/
def Obligations.BreakEntersItsHandler : Prop :=
  ∀ (r c : Nat) (w : W32) (s : State), Spells (.break r w) (.ctl .break) r w → Lone r c w s → Memory.wf s.mem = true →
    let k := ctxAt s r c
    let cl := closeLoops k.run.loops k.run.pc k.run.loops.order
    let d := k.run.frames.length
    let nxt : W16 := match cl.2.1 with
      | some n => cl.1.ls n
      | none => k.run.pc + 1
    escReason k causeBREAK = 0 →
      ∃ t, exec (.break r w) s = .next t ∧ OtherCtxKept r c s t ∧ FarBlocksKept s t ∧ (ctxAt t r c).regs = k.regs ∧
        (ctxAt t r c).run.frames = { pc := nxt, fsw := k.regs.fsw, preds := k.regs.preds, loops := cl.1, rep := none
                                     rsp := k.run.rsp, depth := k.run.depth } :: k.run.frames ∧
        (ctxAt t r c).run.pc = BitVec.ofNat 16 (fld k.page.xvecLive 0 16 + 128 * d + 8 * causeBREAK) ∧
        ∀ a, memWord t.mem a =
          if reedBase r + recordAt k.page d ≤ a ∧ a < reedBase r + recordAt k.page d + 16 then
            (recordWords { cause := causeBREAK, sub := fld w 0 16 } d nxt k.run.pc (k.run.pc + 1) k.regs.fsw).getD
              (a - (reedBase r + recordAt k.page d)) 0
          else memWord s.mem a

/-- A word that the opcode map leaves undefined (UNDEFINED_OPCODE), fetched and executed alone (R64, R67, R152, R159, R160), with
a handler enabled, ILL not set to escalate and a frame free: the bundle is suppressed and the ILL exception enters the handler,
with subcode 1 for an undefined major opcode and 2 for an undefined minor one: the frame holds the address of the bundle itself,
the PC is the vector of cause 1, and no register and no other context changes. -/
def Obligations.UndefinedOpcodeEntersIll : Prop :=
  ∀ (r c : Nat) (w : W32) (s : State), r < 544 → decodeOp w = none → Ready r c s → stop w = true →
    (fetchAt s r (reedOf s r) (ctxAt s r c).run.pc 0).1 = w → budgetSpent (ctxAt s r c) [w] = false →
    fetchParcel (loneView r c w s) 1 = none → fetchBad (loneView r c w s) (reedOf (fetched r w s) r) 1 = none →
    (ctxAt s r c).run.persCheck = false → Memory.wf s.mem = true →
    let k := ctxAt s r c
    let d := k.run.frames.length
    let e : Exc := { cause := causeILL, sub := if majDefined w then 2 else 1 }
    escReason k causeILL = 0 →
      ∃ t, exec (.undefinedOpcode r w) s = .next t ∧ OtherCtxKept r c s t ∧ FarBlocksKept s t ∧ (ctxAt t r c).regs = k.regs ∧
        (ctxAt t r c).run.frames = { pc := k.run.pc, fsw := k.regs.fsw, preds := k.regs.preds, loops := k.run.loops
                                     rep := none, rsp := k.run.rsp, depth := k.run.depth } :: k.run.frames ∧
        (ctxAt t r c).run.pc = BitVec.ofNat 16 (fld k.page.xvecLive 0 16 + 128 * d + 8 * causeILL) ∧
        ∀ a, memWord t.mem a =
          if reedBase r + recordAt k.page d ≤ a ∧ a < reedBase r + recordAt k.page d + 16 then
            (recordWords e d k.run.pc k.run.pc (k.run.pc + 1) k.regs.fsw).getD (a - (reedBase r + recordAt k.page d)) 0
          else memWord s.mem a

/-! ### Register pages -/

/-- The twenty rows OVR_COUNT_READ, FAR_LATE_READ, TOK_CNT_READ, POOL_ECC_READ, HBM_ECC_CE_READ, HBM_ECC_UE_READ, SF_STAT_READ,
SLC_CNT_A_READ, SLC_CNT_B_READ, SLC_LOAD_READ, ASP_CNT_A_READ, ASP_CNT_B_READ, SSP_CNT_READ, QMG_DROP_READ, FBK_LOST_READ,
GLB_ERR_CNT_READ, PKG_POWER_READ, CWL_CNT_CRC_READ, CWL_CNT_REPLAY_READ and ATL_CNT_READ (R387): the read returns the register and
clears the counts that R387 clears, in that unit alone, and nothing else of the machine changes. REGISTER_WRITE of BAR0 and IRQ_FORCE
(R14, R289, R386, R388, R393): a write of another size or off a multiple of 4, of an unmapped or closed page, or of a reed that has
failed is ignored with causes 1, 2, 3 and 7; IRQ_STAT bits clear on 1, IRQ_EN takes its bits, IRQ_FORCE sets the page's own bits. -/
def Obligations.CountersReadAndClear : Prop :=
  ∀ (s : State) (ag r n b p g m l : Nat), r < 544 → n < 8 → b < 32 → p < 64 → g < 33 → m < 96 → l < 16 →
    (let k := ctxAt s r n
     Reads (.ovrCountRead ag r n) ag (0x1000480 + 0x1000 * r + 4 * n) s
       (BitVec.ofNat 32 (k.page.halted.toNat * 2 ^ 19 + k.page.skipping.toNat * 2 ^ 18 + k.page.ovrCause * 2 ^ 16 + k.page.ovrCount))
       (setReed r ((reedOf s r).setCtx n { k with page := { k.page with ovrCount := 0 } }) s)) ∧
    (let x := reedOf s r
     Reads (.farLateRead ag r) ag (0x10000E4 + 0x1000 * r) s (BitVec.ofNat 32 (x.page.werr.toNat * 2 ^ 16 + x.page.late))
       (setReed r { x with page := { x.page with late := 0 } } s)) ∧
    (let x := bedOf s b
     Reads (.tokCntRead ag b) ag (0x400050 + 0x1000 * b) s (BitVec.ofNat 32 (x.late * 2 ^ 16 + x.dbl))
       (setBed b { x with late := 0, dbl := 0 } s) ∧
     Reads (.poolEccRead ag b) ag (0x400054 + 0x1000 * b) s (BitVec.ofNat 32 (x.ce * 2 ^ 16 + x.ue))
       (setBed b { x with ce := 0, ue := 0 } s)) ∧
    (let x := hbmPageOf s p
     Reads (.hbmEccCeRead ag p) ag (0x200044 + 0x1000 * p) s (BitVec.ofNat 32 x.ce) (setHbmPage p { x with ce := 0 } s) ∧
     Reads (.hbmEccUeRead ag p) ag (0x200048 + 0x1000 * p) s (BitVec.ofNat 32 x.ue) (setHbmPage p { x with ue := 0 } s) ∧
     Reads (.sfStatRead ag p) ag (0x200054 + 0x1000 * p) s (BitVec.ofNat 32 x.bisnp) (setHbmPage p { x with bisnp := 0 } s)) ∧
    (let e := engineOf s g
     Reads (.slcCntARead ag g) ag (0x30005C + 0x1000 * g) s (BitVec.ofNat 32 (e.underrun * 2 ^ 16 + e.lateCnt))
       (setEngine g { e with underrun := 0, lateCnt := 0 } s) ∧
     Reads (.slcCntBRead ag g) ag (0x300060 + 0x1000 * g) s (BitVec.ofNat 32 (e.auth * 2 ^ 16 + e.decode))
       (setEngine g { e with auth := 0, decode := 0 } s) ∧
     Reads (.slcLoadRead ag g) ag (0x300064 + 0x1000 * g) s (BitVec.ofNat 32 (e.peak * 2 ^ 16 + e.now))
       (setEngine g { e with peak := 0 } s)) ∧
    (let a := aspOf s m
     Reads (.aspCntARead ag m) ag (0x10014C + 0x1000 * m) s (BitVec.ofNat 32 (a.stale * 2 ^ 16 + a.tslip))
       (setAsp m { a with stale := 0, tslip := 0 } s) ∧
     Reads (.aspCntBRead ag m) ag (0x100150 + 0x1000 * m) s (BitVec.ofNat 32 (a.realign * 2 ^ 16 + a.losses))
       (setAsp m { a with realign := 0, losses := 0 } s)) ∧
    (let x := sspOf s b
     Reads (.sspCntRead ag b) ag (0x18005C + 0x1000 * b) s (BitVec.ofNat 32 (x.fe * 2 ^ 16 + x.txovf))
       (setSsp b { x with fe := 0, txovf := 0 } s)) ∧
    (let x := linkOf s l
     Reads (.cwlCntCrcRead ag l) ag (0x1C004C + 0x1000 * l) s (BitVec.ofNat 32 x.cntCrc) (setLink l { x with cntCrc := 0 } s) ∧
     Reads (.cwlCntReplayRead ag l) ag (0x1C0050 + 0x1000 * l) s (BitVec.ofNat 32 x.cntReplay)
       (setLink l { x with cntReplay := 0 } s)) ∧
    Reads (.qmgDropRead ag) ag 0x2004C s (BitVec.ofNat 32 s.qmg.drop) { s with qmg := { s.qmg with drop := 0 } } ∧
    Reads (.fbkLostRead ag) ag 0x408C s (BitVec.ofNat 32 (s.fbk.mirLost * 2 ^ 16 + s.fbk.dropped))
      { s with fbk := { s.fbk with mirLost := 0, dropped := 0 } } ∧
    Reads (.glbErrCntRead ag) ag 0x1058 s (BitVec.ofNat 32 s.glb.errCnt) { s with glb := { s.glb with errCnt := 0 } } ∧
    Reads (.pkgPowerRead ag) ag 0x204C s (BitVec.ofNat 32 (s.pwr.peak * 2 ^ 16 + s.pwr.now))
      { s with pwr := { s.pwr with peak := 0 } } ∧
    Reads (.atlCntRead ag) ag 0x1D007C s (BitVec.ofNat 32 (s.atl.late * 2 ^ 16 + substCount s))
      { s with atl := { s.atl with late := 0 } } ∧
    (s.glb.state ≠ .off → ∀ (pg o len : Nat) (v : W32), o < 4096 →
      let off := pg * 4096 + o
      let write := exec (.registerWrite .bar0 ag off len v) s
      let refuse := fun (n : Nat) => Host.Outcome.next (glbErr n (agentOf ag) (off / 4) s)
      (len ≠ 4 ∨ o % 4 ≠ 0 → write = refuse 1) ∧
      (len = 4 → o % 4 = 0 → pg = 0 ∨ blockOf pg = none → write = refuse 2) ∧
      (∀ k i u, len = 4 → o % 4 = 0 → pg ≠ 0 → blockOf pg = some (k, i, u) →
        (pageOpen s ag pg = false → write = refuse 3) ∧
        (pageOpen s ag pg = true → k = .red → s.spr.failed.contains u = true → write = refuse 7) ∧
        (pageOpen s ag pg = true → k ≠ .red ∨ s.spr.failed.contains u = false →
          let h := hdrOf s pg
          (o = 0x10 → write = .next (setHdr pg { h with irqStat := h.irqStat &&& ~~~v } s)) ∧
          (o = 0x14 → write = .next (setHdr pg { h with irqEn := v &&& irqMask k } s)) ∧
          (o = 0x18 → Answers (exec (.irqForce ag pg v) s) fun t =>
            write = .next t ∧ (hdrOf t pg).irqStat = h.irqStat ||| (v &&& irqMask k) ∧
            t = setHdr pg { h with irqStat := h.irqStat ||| (v &&& irqMask k) } s))))

/-! ### Tides -/

/-- TT_DATA_HI_WRITE, SWAP_REQUEST, RUN_SET, RUN_CLEAR, WMCLR, CTX_RESTART, PD_DATA3_WRITE and PACE_WINDOW (R22, R24, R30, R36,
R51, R53): each changes its register of the reed's RED page as R36 and R53 lay down and nothing else, where the page responds and
the reed works. An invalid descriptor is also logged. -/
def Obligations.ReedRegistersTakeTheirWrites : Prop :=
  ∀ (s : State) (ag r : Nat) (v : W32), r < 544 →
    let x := reedOf s r
    let w := fun (f : RedPage → RedPage) => setReed r { x with page := f x.page } s
    (let d := fld x.page.ttAddr 3 3
     let j := fld x.page.ttAddr 0 3
     WritesRed (.ttDataHiWrite ag r v) ag r 0x410 s (w fun p =>
       { p with table := Tab.set p.table (16 * d + 8 * (!p.bankOf d).toNat + j) (v ++ p.ttLo) })) ∧
    (∀ d, d < 8 → WritesRed (.swapRequest ag r d) ag r 0x400 s (w fun p => { p with swap := putBit p.swap d true })) ∧
    WritesRed (.runSet ag r) ag r 0x400 s (w fun p => { p with runOn := true }) ∧
    WritesRed (.runClear ag r) ag r 0x400 s (w fun p => { p with runOn := false }) ∧
    (∃ t, WritesRed (.wmclr ag r) ag r 0x400 s t ∧ OnlyReed r s t ∧
      (∃ m, reedOf t r = { x with ctx := m, page := { x.page with paceMin := 0xFFFF } }) ∧
      ∀ c, ctxAt t r c = if c < 8 then { ctxAt s r c with page := { (ctxAt s r c).page with wmark := 0, slack := 0x3FFFFF } }
        else ctxAt s r c) ∧
    (∀ n, n < 8 → WritesRed (.ctxRestart ag r n) ag r 0x414 s (if (ctxAt s r n).page.halted then
        setReed r (x.setCtx n { ctxAt s r n with sched := { (ctxAt s r n).sched with restart := true } }) s else setReed r x s)) ∧
    (let c := fld x.page.pdSel 4 3
     let k := ctxAt s r c
     let part := fun i => (Tab.get 0 x.page.pdData i : W32)
     let d : W128 := v ++ part 2 ++ part 1 ++ part 0
     let priv := bitOf k.page.cfgNext 1
     let t := setReed r (x.setCtx c { k with page :=
       { k.page with pdNext := Tab.set k.page.pdNext (fld x.page.pdSel 0 4) (some (if pdValid priv d then d else putBit d 127 false)) } }) s
     WritesRed (.pdData3Write ag r v) ag r 0xD0 s
       (if pdValid priv d then t else glbErr 5 (agentOf ag) ((0x10000D0 + 0x1000 * r) / 4) t)) ∧
    (∀ pace, pace ≤ 0xFFFF → exec (.paceWindow r pace) s = .next (setReed r { x with pace := pace, page :=
      { x.page with paceNow := pace, paceMin := min x.page.paceMin pace } } s))

/-- CONTEXT_START, CONTEXT_RESUME and ENTRY_PASSED_OVER (R20, R24, R25, R30, R40, R53): the ready entry of a domain that may take
the reed starts its context from its entry point, with its pending configuration and descriptors and its token flags cleared, or
resumes it under SKIP_NEXT where it stopped; the last preempted context resumes; with RUN = 0 a late entry is passed over. A switch
costs 6 beats and preempts what ran. Nothing outside the reed changes, and no other context's registers, run place or schedule. -/
def Obligations.ContextsStartResumeAndPassOver : Prop :=
  ∀ (s : State) (r d : Nat), r < 544 → d < 8 →
    let x := reedOf s r
    let switched := fun (c : Nat) (t : State) =>
      OnlyReed r s t ∧ (reedOf t r).running = some c ∧ (reedOf t r).clock = x.clock + 6 ∧ (reedOf t r).latch = [] ∧
        (reedOf t r).preempted = (match x.running with | some o => o :: x.preempted | none => x.preempted).filter (· != c) ∧
        (reedOf t r).stores = x.stores ∧ (reedOf t r).progress = x.progress ∧
        ∀ b, b ≠ c → ctxAt t r b = { ctxAt s r b with run := { (ctxAt s r b).run with topValid := (ctxAt t r b).run.topValid } }
    (∀ j e, readyEntry s x d = some (j, e) → mayTake s r x d = true →
      let c := entryCtx e
      let k := ctxAt s r c
      ∃ t, exec (.contextStart r d) s = .next t ∧ switched c t ∧ (ctxAt t r c).sched.phase = .started ∧
        if k.sched.phase = .suspended ∧ k.sched.resumed = true then
          ctxAt t r c = { k with page := { k.page with skipping := false }, sched := { k.sched with phase := .started },
                                 run := { k.run with topValid := false } } ∧
          (reedOf t r).page.tk = x.page.tk
        else
          (ctxAt t r c).sched = { phase := .started, dom := d, pos := j, entry := e, deadline := deadlineOf (domOf s d) e,
                                  tide := (domOf s d).tide } ∧
          (ctxAt t r c).run = { slots := k.run.slots, pc := k.page.entry, persCheck := true } ∧
          (∃ pd, (ctxAt t r c).regs = { k.regs with cfg := k.page.cfgNext, pd := pd }) ∧
          (∀ n p, k.page.pdNext = [(n, some p)] → (ctxAt t r c).regs.pd = Tab.set k.regs.pd n p) ∧
          (ctxAt t r c).page.pdNext = [] ∧ (reedOf t r).page.tk = x.page.tk &&& ~~~entryTkwait e) ∧
    (∀ c, resumable s x = some c →
      ∃ t, exec (.contextResume r) s = .next t ∧ switched c t ∧
        ctxAt t r c = { ctxAt s r c with run := { (ctxAt s r c).run with topValid := false } }) ∧
    (∀ j, j < 8 → x.page.runOn = false → entryLate s x d j = true →
      ∃ t, exec (.entryPassedOver r d j) s = .next t ∧ OnlyReed r s t ∧
        reedOf t r = { x with page := { x.page with tk := x.page.tk &&& ~~~entryTkwait (x.entryAt d j) }
                              progress := Tab.set x.progress d
                                { (Tab.get {} x.progress d) with ended := putBit (Tab.get {} x.progress d).ended j true } })

/-- OVERRUN_BUDGET, OVERRUN_DEADLINE and OVERRUN_START (R26, R28 to R30, R36): a context that has used its BUDGET, one whose
deadline tick is reached, and an entry that has not started by its deadline overrun under the policy of the entry; a REP or an
atomic bundle holds the deadline off until the next boundary, and a TEND that has issued is not overtaken. -/
def Obligations.OverrunsFollowThePolicy : Prop :=
  ∀ (s : State) (r c : Nat), r < 544 → c < 8 →
    let x := reedOf s r
    let k := ctxAt s r c
    let present := fun (u : State) => (ctxAt u r c).sched.tide = (domOf u (ctxAt u r c).sched.dom).tide
    let spent := budgetSpent k (bundleAt s r x k.run.pc) = true
    (x.running = some c → inAtomic x = false → holdsOff k = false → spent → present s →
      Answers (exec (.overrunBudget r) s) (Overran r c .budget s)) ∧
    (x.running = some c → budgetSpent k (bundleAt s r x k.run.pc) = false → budgetEndsWait s r x = some c →
      let u := setReed r (addBeats c (entryBudget k.sched.entry - k.sched.beats) x) s
      present u → Answers (exec (.overrunBudget r) s) (Overran r c .budget u)) ∧
    (k.sched.phase = .started → k.sched.deadline ≤ now s → present s →
      if x.running = some c ∧ (inAtomic x = true ∨ holdsOff k = true) then
        exec (.overrunDeadline r c) s = .next (if inAtomic x && isTend k.regs x.latch then s
          else setReed r (x.setCtx c { k with sched := { k.sched with due := some .deadline } }) s)
      else Answers (exec (.overrunDeadline r c) s)
        (Overran r c (if budgetSpent k (bundleAt s r x k.run.pc) then .budget else .deadline) s)) ∧
    (∀ d j, d < 8 → j < 8 → x.page.runOn = true → entryLate s x d j = true → entryCtx (x.entryAt d j) = c →
      let e := x.entryAt d j
      let u := setReed r (x.setCtx c { k with sched :=
        { k.sched with dom := d, pos := j, entry := e, deadline := deadlineOf (domOf s d) e, tide := (domOf s d).tide, beats := 0
                       resumed := k.sched.phase == .suspended && k.sched.resumed } }) s
      Answers (exec (.overrunStart r d j) s) (Overran r c .start u))

/-! ### Power, temperature and the Meridian -/

/-- PACE_LOOP_ADJUST, FAST_RAISE and PKG_POWER_WINDOW (R32, R33, R395): where the device is on and the time has come, the loops
move VDD_CORE in steps of 2.5 mV and 10 mV within 0.62 to 0.85 V, and the effective target by 1 % of the programmed target between
1,500 and that target; a reed below 1.53 G beats/s at 0.85 V is condemned as urgent, with 0x0402 where that is new (R368); an unmet target or limit raises
its record and, as it rises, its interrupt. Nothing else changes. That 1 %
of the target is rounded down, and when 0x0302 is repeated, are the model's choices (log entry 29). -/
def Obligations.PowerLoopsAdjust : Prop :=
  ∀ (s : State) (r n : Nat), r < 544 → s.glb.state ≠ .off →
    let p := s.pwr
    let put := fun (q : Pwr) => { s with pwr := q }
    let pay := fun (q : Pwr) => BitVec.ofNat 64 (q.now + q.effective * 2 ^ 16)
    (p.loopNext ≤ now s → healthyReed s r = true → ∃ q : Pwr,
      q = { p with minPhys := r, minPace := min n 0xFFFF, loopNext := p.loopNext + 4096, vdd := q.vdd, tgtUnmet := q.tgtUnmet } ∧
      (n < p.effective → q.vdd = min 1700 (p.vdd + 5) ∧ q.tgtUnmet = decide (1700 ≤ p.vdd)) ∧
      (p.effective ≤ n → n * 100 ≤ p.effective * 103 → q.vdd = p.vdd ∧ q.tgtUnmet = false) ∧
      (p.effective * 103 < n * 100 → q.vdd = max 1240 (p.vdd - 5) ∧ q.tgtUnmet = false) ∧
      exec (.paceLoopAdjust r n) s = .next (if q.tgtUnmet = true ∧ p.tgtUnmet = false then
        irqSet 2 1 (fbRaise 0x0401 (pay q) (put q)) else put q)) ∧
    (p.fastNext ≤ now s → healthyReed s r = true →
      (1530 ≤ n → exec (.fastRaise r n) s = .next (put { p with fastRaise := false })) ∧
      (n < 1530 → p.vdd < 1700 → exec (.fastRaise r n) s = .next (put { p with
        vdd := min 1700 (p.vdd + 20), fastRaise := decide (p.vdd + 20 < 1700), fastNext := now s + 256 })) ∧
      (n < 1530 → 1700 ≤ p.vdd → exec (.fastRaise r n) s = .next (
        let u := condemn r true (put { p with vdd := 1700, fastRaise := false, fastNext := now s + 256 })
        if u.spr = s.spr then u else fbRaise 0x0402 (payload r n) u))) ∧
    (p.winNext ≤ now s → n ≤ 0xFFFF → p.effective ≤ p.target → ∃ q : Pwr,
      q = { p with now := n, peak := max p.peak n, winNext := p.winNext + 1048576, effective := q.effective,
                   plimUnmet := q.plimUnmet } ∧
      (p.limit < n → q.effective = max 1500 (p.effective - p.target / 100) ∧ q.plimUnmet = decide (p.effective ≤ 1500)) ∧
      (n * 100 ≤ p.limit * 95 → q.effective = min p.target (p.effective + p.target / 100) ∧ q.plimUnmet = false) ∧
      (p.limit * 95 < n * 100 → n ≤ p.limit → q.effective = p.effective ∧ q.plimUnmet = false) ∧
      exec (.pkgPowerWindow n) s = .next (if q.plimUnmet = true then
          let t := fbRaise 0x0302 (pay q) (put q)
          if p.plimUnmet = true then t else irqSet 2 2 t
        else put q))

/-- THERMAL_WARNING, THERMTRIP and RAIL_EXCURSION (R395, R404, R408): the junction temperature is shown and compared with TWARN,
its rise raises IRQ_STAT.THERM, and above 105 °C 0x0303 is written; at 120 °C THERMTRIP# is asserted with 0x0305; a rail outside its
limits writes 0x0304 and nothing else happens. -/
def Obligations.MonitorsReport : Prop :=
  ∀ (s : State) (t : Int) (rail : Nat), s.glb.state ≠ .off →
    let byte := (wrap 8 t).toNat
    let sheet := s.glb.sheet % 2 ^ 16 * 2 ^ 48
    (let hot := decide ((s.pwr.twarn : Int) ≤ t)
     let u := { s with pwr := { s.pwr with tj := t, therm := hot } }
     let v := if hot = true ∧ s.pwr.therm = false then irqSet 2 4 u else u
     exec (.thermalWarning t) s = .next (if 105 < t then fbRaise 0x0303 (BitVec.ofNat 64 byte) v else v)) ∧
    (120 ≤ t → exec (.thermtrip t) s =
      .next (fbRaise 0x0305 (BitVec.ofNat 64 (sheet + byte)) { s with pwr := { s.pwr with thermtrip := true } })) ∧
    (rail < 10 → exec (.railExcursion rail) s = .next (fbRaise 0x0304 (BitVec.ofNat 64 (sheet + rail)) s))

/-- MER_CFG_WRITE, REF_LOCK, REF_LOSS, REF_RETURN and PPS_CAPTURE (R396, R397, R399): a write of CFG is ignored with cause 4
while a domain is active, refused with cause 5 for an invalid pair, and otherwise taken with REFLOCK cleared; a lock, a loss and a
return of the reference and a PPS edge each change the MER page, raise their interrupt and write their record. -/
def Obligations.ReferenceIsFollowed : Prop :=
  ∀ (s : State) (ag : Nat) (v : W32),
    let sheet := s.glb.sheet % 2 ^ 16 * 2 ^ 48
    let pay : W64 := BitVec.ofNat 64 (sheet + fld s.mer.cfg 1 2)
    let put := fun (m : Mer) => { s with mer := m }
    Writes (.merCfgWrite ag v) ag 0x3040 s
      (if (s.mer.doms.any fun d => d.2.active) = true then glbErr 4 (agentOf ag) (0x3040 / 4) s
      else if fld v 1 2 ≠ fld v 0 1 ∧ fld v 1 2 ≠ 2 then glbErr 5 (agentOf ag) (0x3040 / 4) s
      else put { s.mer with cfg := v &&& 0x7F#32, refLock := false, lost := false }) ∧
    (s.glb.state ≠ .off →
      (s.mer.lost = false → exec .refLock s = .next (put { s.mer with refLock := true }) ∧
        exec .refLoss s =
          .next (irqSet 3 2 (fbRaise 0x0820 pay (put { s.mer with refLock := false, refLoss := true, lost := true })))) ∧
      (s.mer.lost = true →
        exec .refReturn s = .next (irqSet 3 4 (fbRaise 0x0821 pay (put { s.mer with refLock := true, lost := false })))) ∧
      exec .ppsCapture s = .next (irqSet 3 8 (put { s.mer with ppsAt := s.mer.ticks, pps := true })))

/-- TD_EN_WRITE (R16 to R18, R399): for each of the eight domains the bit written starts it, cancels its pending clear, leaves it
where its period is refused, or clears it at its next boundary, at once where its first tide has not begun; the tick counter and
the other domain registers stay. -/
def Obligations.DomainsStartAndClear : Prop :=
  ∀ (s : State) (ag : Nat) (v : W32),
    let u := now s + 1
    ∃ t, Writes (.tdEnWrite ag v) ag 0x304C s t ∧ t.mer.en = v.setWidth 8 ∧ t.mer.ticks = s.mer.ticks ∧ t.mer.cfg = s.mer.cfg ∧
      ∀ d, domOf t d =
        let x := domOf s d
        if 8 ≤ d then x
        else if bitOf v d then
          if x.active then { x with clearing := false }
          else if periodOk s x then
            { x with active := true, clearing := false, begun := false, tide := 0, first := if x.start < u then u + 1024 else x.start }
          else x
        else if x.active then
          if x.begun then { x with clearing := true, clearFrom := u } else { x with active := false, clearing := false, begun := false }
        else x

/-- TIDE_BOUNDARY (R17, R18, R419): of the active domains whose next boundary tick has been reached, the one that R419 puts first
takes its boundary: a clear that has come due stops it, else its first tide begins or its tide number rises by one; no other domain
and no other MER register changes. With no such domain nothing changes. -/
def Obligations.TideBoundaryAdvancesOneDomain : Prop :=
  ∀ s : State,
    (∀ d, nextBoundary s = some d →
      let x := domOf s d
      d < 8 ∧ x.active = true ∧ x.nextTick ≤ now s ∧
      (∀ e, e < 8 → (domOf s e).active = true → (domOf s e).nextTick ≤ now s → earlier s e d = false) ∧
      let y := if x.clearing = true ∧ x.clearFrom ≤ x.nextTick then { x with active := false, clearing := false, begun := false }
        else if x.begun then { x with tide := x.tide + 1 } else { x with begun := true }
      Answers (exec .tideBoundary s) fun t => t.mer = { s.mer with doms := Tab.set s.mer.doms d y }) ∧
    ((∀ d, d < 8 → (domOf s d).active = true → now s < (domOf s d).nextTick) → exec .tideBoundary s = .next s)

/-! ### Device states -/

/-- The rows STATE_REQ_STARTUP, STATE_REQ_TEST, STATE_REQ_SERVICE, STATE_REQ_RECOVERY, STATE_REQ_TUSSOCK and STATE_REQ_DORMANT,
MESH_ROUTER_FAIL, SURVEYOR_MEMORY_UE, QUEUE_TABLE_UE and REC_ACTIVE_CLEAR (R8, R10, R265, R393, R394): a request with a wrong KEY is
refused with cause 5 and one the table of R394 does not permit with cause 6; one that arrives in a transition waits; any other makes
the device BUSY with its target and reason. A fault of R10 does so from Service. Nothing else changes. -/
def Obligations.RequestsAndFaultsBeginTransitions : Prop :=
  ∀ (s : State) (ag key : Nat),
    let g := s.glb
    let put := fun (x : Glb) => { s with glb := x }
    let req := fun (t : DevState) (reason : Nat) (ok : Bool) =>
      if key % 2 ^ 16 ≠ 0x5354 then glbErr 5 (agentOf ag) 0x412 s
      else if g.target.isSome then put { g with waiting := g.waiting ++ [.request t] }
      else if ok then put { g with target := some t, reason := reason }
      else glbErr 6 .host 0x412 s
    let fault := fun (reason : Nat) =>
      if g.state = .off then s
      else if g.target.isSome then put { g with waiting := g.waiting ++ [.fault reason] }
      else if g.state = .service then put { g with target := some .recovery, reason := reason }
      else s
    Writes (.stateReqStartup ag key) ag 0x1048 s (req .startup 0 true) ∧
    Writes (.stateReqTest ag key) ag 0x1048 s (req .test 0 (g.state == .startup || g.state == .service)) ∧
    Writes (.stateReqService ag key) ag 0x1048 s
      (req .service 0 (g.state == .test || g.state == .dormant || (g.state == .recovery && !g.recActive))) ∧
    Writes (.stateReqRecovery ag key) ag 0x1048 s (req .recovery 6 (g.state == .service)) ∧
    Writes (.stateReqTussock ag key) ag 0x1048 s (req .tussock 9 true) ∧
    Writes (.stateReqDormant ag key) ag 0x1048 s (req .dormant 0 (g.state == .service)) ∧
    exec .meshRouterFail s = .next (fault 4) ∧
    (∀ held, exec (.surveyorMemoryUe held) s = .next (if held then fault 2 else s)) ∧
    (∀ m row, m < 2 ^ 16 → row < 2 ^ 9 → exec (.queueTableUe m row) s = .next (if s.qmg.sparesUsed < 512 then
        fbRaise 0x0508 (BitVec.ofNat 64 (m + row * 2 ^ 16)) { s with qmg := { s.qmg with sparesUsed := s.qmg.sparesUsed + 1 } }
      else fault 3)) ∧
    exec .recActiveClear s = .next (put { g with recActive := false })

/-- STATE_TRANSITION_COMPLETE (R8, R9, R10, R335, R344, R350, R394): with no transition nothing happens; else the target is reached
with its entry effects and IRQ_STAT.STATE set, and what waited is then taken in order. Start-up loses what the reeds and beds
held, the LKEK and the firmware; Recovery clears RUN on every reed and records its reason; Tussock loses the LKEK and the firmware
and records its reason; Dormant loses reeds, beds, reed memories and bed pools. That entry effects fall at this moment is the model's
reading (log entry 33). -/
def Obligations.TransitionReachesItsTarget : Prop :=
  ∀ s : State,
    (s.glb.target = none → exec .stateTransitionComplete s = .next s) ∧
    ∀ d, s.glb.target = some d → ∃ u,
      exec .stateTransitionComplete s = .next (s.glb.waiting.foldl (fun v tr => trigger tr v) u) ∧
      u.glb.state = d ∧ u.glb.target = none ∧ u.glb.waiting = [] ∧ bitOf (hdrOf u 1).irqStat 1 = true ∧
      u.pending = s.pending ∧ u.mer = s.mer ∧ u.pwr = s.pwr ∧ u.binding = s.binding ∧
      (d = .startup → u.reeds = [] ∧ u.beds = [] ∧ u.mem = s.mem ∧ u.sec.count = satInc 7 s.sec.count ∧ u.sec.lkek = none ∧
        u.sec.fw = false ∧ u.sec.starting = true ∧ u.sec.step = 1 ∧ u.sec.forceHost = s.sec.forceHost ∧ u.sec.otp = s.sec.otp) ∧
      (d = .recovery → u.glb.recReason = s.glb.reason ∧ u.glb.recActive = (s.glb.recActive || s.glb.reason != 6) ∧
        u.mem = s.mem ∧ u.beds = s.beds ∧ ∀ r, (reedOf u r).page.runOn = false) ∧
      (d = .tussock → u.glb.tussock = s.glb.reason ∧ u.sec.lkek = none ∧ u.sec.fw = false ∧ u.mem = s.mem) ∧
      (d = .dormant → u.reeds = [] ∧ u.beds = [] ∧ u.sec = s.sec ∧
        ∀ a, memGet u.mem a = if (2 * 0x1000000 ≤ a ∧ a < 2 * 0x1000000 + 544 * 0x80000) ∨ (2 * 0x10000000 ≤ a ∧ a < 2 * 0x14000000)
          then 0 else memGet s.mem a) ∧
      (d = .test ∨ (d = .service ∧ s.glb.state ≠ .dormant) → u.reeds = s.reeds ∧ u.beds = s.beds ∧ u.mem = s.mem ∧ u.sec = s.sec)

/-- POWER_GOOD, SYS_PWRGD_FALL and VDD_AON_LOSS (R335, R391, R403, R415): power-good in Off with TESTEN low brings the block to
Start-up with the sheet of its straps, every register at its reset value, the boot-attempt counter up by one and 0x0101 recorded;
what the always-on supply and OTP hold is kept. The fall of SYS_PWRGD leaves Off with nothing held, and the loss of the always-on
supply clears the counter and FORCEHOST, and in Dormant what the retention registers hold. -/
def Obligations.SuppliesComeAndGo : Prop :=
  ∀ (s : State) (sheet : Nat), sheet < 64 →
    let c := satInc 7 s.sec.count
    (s.glb.state = .off → exec (.powerGood sheet true) s = .next s ∧
      Answers (exec (.powerGood sheet false) s) fun t =>
        t.glb = { sheet := sheet } ∧ t.pwr = { State.reset.pwr with tj := s.pwr.tj } ∧ t.mer = State.reset.mer ∧
        t.mem = [] ∧ t.bad = [] ∧ t.hdr = [] ∧ t.reeds = [] ∧ t.binding = [] ∧ t.beds = [] ∧ t.hbm = State.reset.hbm ∧ t.srcs = [] ∧
        t.qmg = State.reset.qmg ∧ t.evr = State.reset.evr ∧ t.cxl = { State.reset.cxl with perst := s.cxl.perst } ∧ t.links = [] ∧
        t.atl = { State.reset.atl with reads := [] } ∧ t.slc = [] ∧ t.asp = [] ∧ t.ssp = [] ∧ t.tcu = State.reset.tcu ∧
        t.spr = State.reset.spr ∧ t.tst = State.reset.tst ∧ t.pending = s.pending ∧
        t.sec.count = c ∧ t.sec.forceHost = s.sec.forceHost ∧ t.sec.otp = s.sec.otp ∧ t.sec.lkek = none ∧ t.sec.starting = true ∧
        t.fbk.queue = [{ code := 0x0101, count := 0, payload := BitVec.ofNat 64 (c + bootSource s.sec * 2 ^ 8) }]) ∧
    (s.glb.state ≠ .off → exec (.powerGood sheet false) s = .next s ∧
      Answers (exec .sysPwrgdFall s) fun t =>
        t.glb.state = .off ∧ t.pwr.good = false ∧ t.pwr.vidValid = false ∧ t.mem = [] ∧ t.reeds = [] ∧ t.beds = [] ∧ t.hdr = [] ∧
        t.srcs = [] ∧ t.sec.count = s.sec.count ∧ t.sec.forceHost = s.sec.forceHost ∧ t.sec.otp = s.sec.otp ∧
        t.sec.starting = false ∧ t.pending = s.pending) ∧
    exec .vddAonLoss s = .next (
      let u : State := { s with sec := { s.sec with count := 0, forceHost := false } }
      if s.glb.state = .dormant then { u with srcs := [], evr := {}, qmg := {}, tcu := {} } else u)

/-! ### Far accesses and long operations under way -/

/-- FAR_READ_DATA, FAR_READ_TIMEOUT, FAR_READ_LATE, FAR_STORE_ARRIVAL, FAR_STORE_TIMEOUT and FAR_STORE_FAIL (R60, R61, R173, R292).
The data of the far read a reed waits on complete its bundle, from outside as they come and from the device's own memories as
they stand; poisoned data fail it with a MEMERR of subcode 4, and the timeout of a HOST or ATLAS read with one of subcode 3, what
then arrives late being discarded and counted. The oldest posted store, its target having accepted it, leaves the buffer and
stands in the bed pool or goes out to host memory; one that times out or fails sets WERR and the RED page's error registers and
writes 0x0603. -/
def Obligations.FarAccessesEnd : Prop :=
  ∀ (s : State) (r : Nat), r < 544 →
    let x := reedOf s r
    let tmo := fun (tgt : Nat) => 16 * max 1 (fld x.page.farTmo (16 * (tgt - 4)) 16)
    let failed := fun (addr : Nat) (u : State) => fbRaise 0x0603 (payload r addr) (pageError (0x1000 + r) 0x0603 addr
      (setReed r { reedOf u r with page := { (reedOf u r).page with werr := true } } u))
    (∀ (f : Far) (since : Nat) (data : W64) (ok : Bool), waitingRead s r = some f → x.wait = some (.farRead since) →
      let ws := touched f.byte f.len
      let charge := farCharge s r f.tgt (f.byte / 2)
      ((ws.any fun w => remotePlace (placeOf s r w)) = true →
        exec (.farReadData r data ok) s = .next (if ok then resumeBundle r (some data.toNat) charge (endFarRead r s)
          else failFarRead r 4 (f.byte / 2) (endFarRead r s))) ∧
      ((∀ w, w = f.byte / 2 ∨ w ∈ ws →
          (placeOf s r w).word.isSome ∧ rebacked s (placeOf s r w) = false ∧ placeBad s (placeOf s r w) = false) →
        exec (.farReadData r data ok) s = .next (resumeBundle r (some (bytesAt s r f.byte f.len)) charge s)) ∧
      ((f.tgt = 4 ∨ f.tgt = 5) → since + tmo f.tgt ≤ now s →
        exec (.farReadTimeout r) s =
          .next (failFarRead r 3 (f.byte / 2) (lateFarRead r (setReed r { x with lateReads := x.lateReads + 1 } s))))) ∧
    (0 < x.lateReads → Answers (exec (.farReadLate r) s) fun t =>
      reedOf t r = { x with lateReads := x.lateReads - 1, page := { x.page with late := satInc 0xFFFF x.page.late } }) ∧
    (∀ (e : FarStore) (w : StoreWord) (ws : List StoreWord) (es : List FarStore), x.stores = e :: es → e.words = w :: ws →
      (∀ c, x.wait ≠ some (.storeFull c)) → (∀ q, (reedOf s q).wait ≠ some .held) →
      let popped := setReed r { x with stores := match es with
        | [] => []
        | d :: ds => { d with since := now s } :: ds } s
      ((∀ v ∈ e.words, ∃ b o, placeOf s r v.addr = .pool b o ∧ o < tokenArea) →
        Answers (exec (.farStoreArrival r) s) fun t => t.mem = (placed s r e.words).foldl putPlaced s.mem ∧
          reedOf t r = reedOf popped r ∧ ∀ q, q ≠ r → reedOf t q = reedOf s q) ∧
      ((∀ v ∈ e.words, ∃ a, placeOf s r v.addr = .host a) → e.words.any (storeUnsent s r) = false →
        exec (.farStoreArrival r) s = .next (hostWrite (e.words.map fun v => (v.addr - 0x20000000000, v)) popped)) ∧
      (e.words.any (storeUnsent s r) = true → exec (.farStoreArrival r) s = .next (failed w.addr popped)) ∧
      ((e.tgt = 4 ∨ e.tgt = 5) → e.since + tmo e.tgt ≤ now s →
        exec (.farStoreTimeout r) s = .next (failed w.addr popped)) ∧
      ∀ a, a < 2 ^ 48 → exec (.farStoreFail r a) s = .next (failed a (if (e.words.any fun v => v.addr == a) then popped else s))) ∧
    (x.stores = [] → ∀ a, a < 2 ^ 48 → exec (.farStoreFail r a) s = .next (failed a s))

/-- LOU_RETIRE and LOU_TRAP_DELIVERY (R105 to R107, R110 to R112, R160 to R162). The operation a unit works on retires once the
reed has reached its beat: its flags are set, its Q register takes the result unless a younger operation targets it, a division by
zero that traps is held, its station and its unit are free; a bundle that waits for the LOU is charged the beats up to it and tried
again. A held trap enters the LOU handler at a bundle boundary at which no frame is in use. -/
def Obligations.LongOperationsRetire : Prop :=
  ∀ (s : State) (r : Nat), r < 544 →
    let x := reedOf s r
    (∀ (u : Nat) (t : Station), u < 5 → unitOp x u = some t →
      let beat := retireBeat x u t
      let res := louResult t.op t.pr t.rm t.ftz t.a t.b
      let k := ctxAt s r t.ctx
      let own := Tab.get 0 k.run.qIssue t.qd = t.seq
      (x.wait ≠ some .held → tooEarly x beat = false → ∃ v, exec (.louRetire r u) s = .next v ∧ OnlyCtx r t.ctx s v ∧
        (reedOf v r).stations = x.stations.filter (fun y => y.seq != t.seq) ∧ (reedOf v r).clock = max x.clock beat ∧
        Tab.get 0 (reedOf v r).unitFree u = beat + 1 ∧
        ctxAt v r t.ctx = { k with
          regs := (k.setFlags { sticky := res.sticky }).regs
          run := { k.run with
            q := if own then Tab.set k.run.q t.qd res.q else k.run.q
            qValid := if own then putBit k.run.qValid t.qd true else k.run.qValid
            held := if res.divZero && t.dze then k.run.held ++ [{ fpc := t.fpc, lop := t.op.code, qd := t.qd }] else k.run.held } }) ∧
      (∀ c, waitsLou s r x = some c → budgetFirst s r x beat = false →
        exec (.louRetire r u) s =
          .next (tryIssue r (setReed r { retireStation u t (addBeats c (beat - x.clock) x) with wait := none } s)))) ∧
    (∀ (c : Nat) (h : HeldTrap) (hs : List HeldTrap), x.running = some c → (x.wait = none ∨ x.wait = some .held) →
      let k := ctxAt s r c
      k.run.held = h :: hs → k.run.frames = [] → (holdsOff k = true ∨ budgetSpent k (bundleAt s r x k.run.pc) = false) →
      escReason k causeLOU = 0 → Memory.wf s.mem = true →
      let e : Exc := { cause := causeLOU, sub := 5, lop := h.lop, qd := h.qd }
      let a := reedBase r + recordAt k.page 0
      ∃ t, exec (.louTrapDelivery r) s = .next t ∧ OtherCtxKept r c s t ∧ FarBlocksKept s t ∧ (ctxAt t r c).regs = k.regs ∧
        (ctxAt t r c).run.held = hs ∧ (ctxAt t r c).run.pc = BitVec.ofNat 16 (fld k.page.xvecLive 0 16 + 8 * causeLOU) ∧
        (ctxAt t r c).run.frames = [{ pc := k.run.pc, fsw := k.regs.fsw, preds := k.regs.preds, loops := k.run.loops
                                      rep := k.run.rep, rsp := k.run.rsp, depth := k.run.depth }] ∧
        ∀ w, memWord t.mem w = if a ≤ w ∧ w < a + 16 then
          (recordWords e 0 k.run.pc h.fpc k.run.pc k.regs.fsw).getD (w - a) 0 else memWord s.mem w)

/-! ### Beds and HBM -/

/-- TS_CFG_WRITE, POOL_SCRUB, HBM_SCRUB, REFRESH_RATE_RAISED, SELF_REFRESH_ENTRY, BISNP_RESPONSE, HBM_ECC_WINDOW and PAGE_REBACK
(R171, R174, R183, R184, R187, R189, R193, R194, R368). A token slot takes its configuration, at once or at its next boundary; a
full scrub pass that is due counts its corrected errors and finds every uncorrectable one, and changes no byte; a stack's refresh
rate follows its temperature, a rise being recorded; in Dormant all pages enter self-refresh; a snoop's answer lets the writes that
waited for it proceed over the host's dirty data; a 2 MiB page with too many corrected errors is retired; a copy that ends backs
its page. -/
def Obligations.BedsAndHbmTakeTheirEvents : Prop :=
  ∀ (s : State),
    (∀ (ag b : Nat) (v : W32), b < 32 →
      let i := (bedOf s b).sel
      let x := tokenSlot s b i
      let w := v &&& 0xFFFFC000#32
      Writes (.tsCfgWrite ag b v) ag (0x400048 + 0x1000 * b) s
        (setTokenSlot b i (if x.en then { x with next := some w } else { x with cfg := w }) s)) ∧
    (∀ b ce, b < 32 → (bedOf s b).ue ≤ 0xFFFF → scrubDue s (bedOf s b).scrub (bedOf s b).scrubbed (2 ^ 20) = true →
      let own := fun (w : Nat) => decide (poolBase b ≤ w) && decide (w < poolBase b + 0x200000)
      Answers (exec (.poolScrub b ce) s) fun t => t.mem = s.mem ∧ t.hbm = s.hbm ∧
        bedOf t b = { bedOf s b with
          ce := min 0xFFFF ((bedOf s b).ce + ce), scrubbed := now s
          ue := min 0xFFFF ((bedOf s b).ue + (s.bad.filter fun e => e.2 != 0 && own e.1).length) } ∧
        ∀ u, own u = true → (u - poolBase b) % 4 = 0 → Tab.get 0 s.bad u ≠ 0 → Tab.get 0 t.bad u = 2) ∧
    (∀ p ce, p < 64 → scrubDue s (hbmPageOf s p).scrub (hbmPageOf s p).scrubbed (2 ^ 30) = true →
      Answers (exec (.hbmScrub p ce) s) fun t => t.mem = s.mem ∧ t.beds = s.beds ∧
        (hbmPageOf t p).ce = min 0xFFFFFFFF ((hbmPageOf s p).ce + ce) ∧ (hbmPageOf t p).scrubbed = now s ∧
        ∀ a, hbmPc a = p → a % 16 = 0 → Tab.get 0 s.bad (hbmBase + a) ≠ 0 → Tab.get 0 t.bad (hbmBase + a) = 2) ∧
    (∀ k temp, k < 2 → s.glb.state ≠ .off →
      let rate := if temp ≤ 85 then 0 else if temp ≤ 95 then 1 else 2
      ∃ ps, (∀ p, Tab.get {} ps p = if 32 * k ≤ p ∧ p < 32 * k + 32 then { hbmPageOf s p with temp := min temp 255, refRate := rate }
          else hbmPageOf s p) ∧
        let t := { s with hbm := { s.hbm with pages := ps } }
        let u := fbRaise 0x0310 (payload (32 * k) rate) t
        exec (.refreshRateRaised k temp) s = .next (if (hbmPageOf s (32 * k)).refRate < rate then
          (if rate = 2 then fireSource (0x500 + 32 * k) u else u) else t)) ∧
    (s.glb.state = .dormant → s.hbm.lastUse + tickHz s / 1000 ≤ now s →
      ∃ ps, (∀ p, Tab.get {} ps p = if p < 64 then { hbmPageOf s p with selfRef := true } else hbmPageOf s p) ∧
        exec .selfRefreshEntry s = .next { s with hbm := { s.hbm with pages := ps } }) ∧
    (∀ (line : Nat) (dirty : Option (List Byte)), s.hbm.snoops.any (fun n => n.line == line) = true →
      (∀ w ∈ s.atl.serve, lineOf w.addr ≠ line) →
      let put := fun (m : List Host.Cell) (bs : List (Nat × Byte)) => (lineStore line bs).foldl putPlaced m
      Answers (exec (.bisnpResponse line dirty) s) fun t =>
        t.hbm.snoops = s.hbm.snoops.filter (fun n => n.line != line) ∧ t.hbm.filter = s.hbm.filter ∧
        t.mem = (s.hbm.snoops.filter fun n => n.line == line).foldl (fun m n => put m n.bytes) (match dirty with
          | some bs => put s.mem ((bs.take 64).zipIdx.map fun p => (2 * (hbmBase + 32 * line) + p.2, p.1))
          | none => s.mem)) ∧
    (∀ page ce, page < 65536 → s.glb.state ≠ .off → s.glb.state ≠ .dormant → 4 * s.spr.hbmCe ≤ ce →
      let back := fun (b : PageBack) => Tab.set s.hbm.back page b
      exec (.hbmEccWindow page ce) s = .next (if Tab.get .inHbm s.hbm.back page ≠ .inHbm then s else match freeReserve s.hbm with
        | some i => { s with hbm := { s.hbm with back := back (.copying i), reserve := insertNat i s.hbm.reserve } }
        | none => fbRaise 0x0622 (payload page 0) { s with hbm := { s.hbm with back := back .lost, exhausted := true } })) ∧
    (∀ page i, page < 65536 → Tab.get .inHbm s.hbm.back page = .copying i →
      exec (.pageReback page) s = .next (fbRaise 0x0621 (payload page i)
        { s with hbm := { s.hbm with back := Tab.set s.hbm.back page (.backed i) } }))

/-! ### Sluice engines -/

/-- SD_COMMIT and the commands START, STOP, RESUME, SETRATE, KEYLOAD, GATHER, FENCE and BADCMD, each taken from the head of its
engine's queue by an engine that serves in a working state with no completion held, and FENCE_COMPLETE (R198 to R202, R206, R207,
R213). The entry leaves the queue and its shadow follows; the command then has its effect on its stream or key slot and posts its
completion, with status 7 for a bad value, 8 for a stream in no state for it and 9 for a key that does not unwrap. That a bare
command's completion names stream 0 is the model's choice (log entry 23). -/
def Obligations.SluiceCommandsTakeEffect : Prop :=
  ∀ (s : State) (b : Nat), b < 32 →
    let e := engineOf s b
    (∀ (ag : Nat) (v : W32),
      let old := streamOf s b e.sel
      let x : Stream := { desc := Tab.set ((List.range 15).map fun k => (k, Tab.get 0 e.data k)) 15 v, last := old.last }
      let err := sdError s b old x
      Writes (.sdCommit ag b v) ag (0x3000BC + 0x1000 * b) s (if err = 0 then setStream b e.sel x s
        else glbErr 5 (agentOf ag) ((0x3000BC + 0x1000 * b) / 4) (setEngine b { e with cmtErr := err } s))) ∧
    (∀ (entry : List W32),
      let q := queueOf s e.cmdq
      let u := setEngine b { e with seq := e.seq + 1 } (writeShadow e.cmdq (setQueue e.cmdq { q with ci := q.ci + 1 } s))
      let word := fun (k : Nat) => (entry.getD k 0 : W32)
      let tag := fld (word 0) 16 16
      let i := fld (word 1) 0 11
      let n := e.seq + 1
      let x := streamOf s b i
      let done := fun (st : Nat) (t : State) => postStream b i { status := st, op := cmdOp entry, tag := tag } t
      let bare := fun (st : Nat) (t : State) => post b 0 { status := st, op := cmdOp entry, tag := tag } t
      let job := fun (t : State) => setEngine b { engineOf t b with jobs := (engineOf t b).jobs ++ [n] } t
      let put := fun (y : Stream) => setStream b i y u
      let fresh : Stream := { desc := x.desc, last := x.last }
      let rate := (word 2).toNat
      e.serving = true → engineState s.glb.state = true → cmdPublished q = true → entry.length = 16 → queuesUnfit s e = false →
      (queueOf s e.cplq).held = [] → entryThere s q entry = true →
      (isCmd 1 entry = true → exec (.start b entry) s = .next (
        if x.v = false ∨ x.st ≠ .idle ∨ x.stop.isSome ∨ x.kind = 1 then done 8 u
        else if x.kind ≠ 0 then advance b i (done 0 (job (put { fresh with st := .running, copy := some n })))
        else if x.rmax < rate then done 7 u
        else advance b i (done 0 (put { fresh with st := .armed, rate := rate })))) ∧
      (isCmd 2 entry = true → exec (.stop b entry) s = .next (
        if x.st = .paused then stopStream b i tag n 2 u else job (put { x with stop := some (tag, n) }))) ∧
      (isCmd 3 entry = true → exec (.resume b entry) s = .next (
        if x.st = .paused then job (put { x with resume := some (tag, n) }) else done 0 u)) ∧
      (isCmd 4 entry = true →
        let m := (word 3).toNat + fld (word 4) 0 16 * 2 ^ 32
        let t := streamTide s x
        let y := { x with nextRates := x.nextRates ++ [(max m (t + 1), rate)] }
        exec (.setrate b entry) s = .next (
          if x.rmax < rate then done 7 u
          else postStream b i { status := 0, op := 4, tag := tag, tide := if m ≤ t then t + 1 else t }
            (put (if x.kind = 0 ∧ x.cur = false ∧ x.st ≠ .idle then y else x)))) ∧
      (isCmd 5 entry = true →
        let k := fld (word 1) 0 6
        exec (.keyload b entry) s = .next (
          if keyInUse e k = true then bare 7 u
          else match s.sec.lkek.bind fun key => Config.aesUnwrap key ((entry.drop 2).take 12) with
            | some key => bare 0 (setEngine b { e with seq := n, keys := Tab.set e.keys k (some key) } u)
            | none => fbRaise 0x0231 (slcPayload b 0 k) (bare 9 u))) ∧
      (isCmd 6 entry = true → exec (.gather b entry) s = .next (
        if x.v = false ∨ x.kind ≠ 1 then done 8 u
        else advance b i (job (put
          { x with gathers := x.gathers ++ [(tag, n)], st := if x.st = .idle then .running else x.st })))) ∧
      (isCmd 7 entry = true → exec (.fence b entry) s = .next
        (setEngine b { e with seq := n, fences := e.fences ++ [(tag, n)], jobs := e.jobs ++ [n] } u)) ∧
      (cmdFits entry = false → exec (.badcmd b entry) s = .next (bare 7 u))) ∧
    (∀ tag n rest, e.fences = (tag, n) :: rest → (∀ j ∈ e.jobs, n ≤ j) →
      exec (.fenceComplete b) s = .next (post b 0 { status := 0, op := 7, tag := tag }
        (setEngine b { e with fences := rest, jobs := e.jobs.filter fun j => j != n } s)))

/-- RING_WINDOW_RESIDENT, SLUICE_REQUEST_ISSUE, SLUICE_REQUEST_DATA, SLUICE_REQUEST_TIMEOUT, SLUICE_LATE_ARRIVAL, SLC_LOAD_WINDOW
and ENGINE_SELFCHECK_FAIL (R204, R210 to R212, R223, R368, R377): a ring's awaited window sets its flag; a request takes its free
slot and goes to who answers its line, or faults at once where nobody does; its data reach the stream and free the slot; its
timeout wins with cause TIMEOUT, and what comes later is posted as LATE, counted and recorded; a load window sets NOW and PEAK; the
idle engine 32 takes over an engine that fails, and without one a fault of the device begins Recovery. -/
def Obligations.SluiceRequestsRun : Prop :=
  ∀ (s : State) (b : Nat), b < 32 →
    let e := engineOf s b
    let held := fun (rq : Nat) => Tab.get none e.slots rq
    let slot := fun (rq : Nat) (q : Option SluiceReq) => { e with slots := Tab.set e.slots rq q }
    (∀ i, i < 2048 → (streamOf s b i).awaiting = true → (streamOf s b i).st = .running → (streamOf s b i).resident = true →
      let x := { streamOf s b i with awaiting := false }
      exec (.ringWindowResident b i) s = .next (
        if x.tken then setTokenLogical (16 * b + x.dreed) x.tknum (setStream b i x s) else setStream b i x s)) ∧
    (∀ i rq line, i < 2048 → rq < 1024 → e.serving = true → engineState s.glb.state = true →
      ((streamOf s b i).st = .running ∨ (streamOf s b i).st = .armed) → held rq = none → (streamOf s b i).lines.lookup line = none →
      (e.held.any fun q => q.2.stream == i && q.2.line == line && !q.2.dead) = false → cplFull s b = false →
      (∀ c, lineSource s line = .error c → exec (.sluiceRequestIssue b i rq line) s = .next (deliverLine b i line (.failed c) s)) ∧
      (∀ k, lineSource s line = .ok k → mayIssue e i = true → exec (.sluiceRequestIssue b i rq line) s =
        .next (sendRequest b rq line k (setEngine b (slot rq (some { stream := i, line := line, kind := k, since := now s })) s)))) ∧
    (∀ rq q data ok, rq < 1024 → held rq = some q → (q.kind = .device → lineSnooped s q.line = false) →
      exec (.sluiceRequestData b rq data ok) s = .next (
        if q.dead then freeSlot b rq s
        else if q.kind = .device then
          deliverLine b q.stream q.line (deviceLine q.line (freeSlot b rq s)).1 (deviceLine q.line (freeSlot b rq s)).2
        else deliverLine b q.stream q.line (if ok then .words (lineWords data) else .failed causeUE) (freeSlot b rq s))) ∧
    (∀ rq q, rq < 1024 → held rq = some q → q.kind ≠ .device → q.dead = false → q.since + e.timeout q.kind ≤ now s →
      ∃ u : State, u = { s with slc := u.slc, cxl := u.cxl, atl := u.atl } ∧
        engineOf u b = { slot rq none with late := e.late ++ [{ rq := rq, stream := q.stream, tag := (streamOf s b q.stream).tag, kind := q.kind }] } ∧
        exec (.sluiceRequestTimeout b rq) s = .next (deliverLine b q.stream q.line (.failed causeTIMEOUT)
          (postStream b q.stream { status := 5, tag := (streamOf s b q.stream).tag, rq := rq, cause := causeTIMEOUT, addr := q.line * 32 } u))) ∧
    (∀ k q, e.late[k]? = some q → ∃ u : State, u = { s with slc := u.slc, cxl := u.cxl, atl := u.atl } ∧
      engineOf u b = { e with late := eraseAt k e.late, lateCnt := satInc 0xFFFF e.lateCnt } ∧
      exec (.sluiceLateArrival b k) s = .next (fbRaise 0x0631 (slcPayload b q.stream q.rq)
        (postStream b q.stream { status := 6, tag := q.tag, rq := q.rq, cause := 0 } u))) ∧
    (∀ n, n ≤ 0xFFFF → exec (.slcLoadWindow b n) s = .next (setEngine b { e with now := n, peak := max e.peak n } s)) ∧
    exec (.engineSelfcheckFail b) s = .next (if s.spr.engineIdle then substituteEngine b s
      else trigger (.fault 5) (setEngine b { e with serving := false } s))

/-! ### Audio serial ports -/

/-- ASP_ENABLE, ASP_DISABLE, ASP_FRAME_START, ASP_SLAVE_FRAME_START, ASP_SLOT_INGRESS, ASP_SLOT_EMIT, ASP_STAGING_LOAD,
ASP_CLOCK_LOSS, ASP_LOSS_ZERO_WRITE, SLOTMAP_WRITE, OSLOTMAP_WRITE and ASP_LOOP_CTRL_WRITE (R225 to R240, R420). An enable that
passes every check starts the port, and one that fails is refused with its number in ENERR. A frame start that has come opens a frame with the maps and
the loop-back depth as written; a slave locks on the first frame of the right length and realigns on one of another. An
input slot's last bit writes its sample with its token, and an output slot's first bit moves its staging entry to the shifter and
counts it as stale where nothing has loaded it since. A clock loss is recorded, and under LOSSPOL ZERO its input slots are written
as zero, once a tide. -/
def Obligations.AudioPortsRunTheirFrames : Prop :=
  ∀ (s : State) (n : Nat), n < 96 →
    let a := aspOf s n
    let d := domOf s a.dom
    let put := fun (x : Asp) => setAsp n x s
    let off := 0x100000 + 0x1000 * n
    let slotNow := match a.frame with
      | some f => min f.got (a.ns - 1)
      | none => 0
    let opened := fun (tf t : Nat) =>
      ({ start := tf, tide := t, live := s.glb.state == .service, loop := a.loop, slots := a.slots } : AspFrame)
    let inForce := fun (x : Asp) => x.loopNow = a.loop ∧ x.slotsNow = a.slots ∧ x.outsNow = a.outs ∧ x.loadAll = false ∧ x.cfg = a.cfg
    (∀ (ag : Nat) (v : W32),
      let x := { a with rxen := bitOf v 1, txen := bitOf v 2 }
      Writes (.aspEnable ag n v) ag (off + 8) s (if a.en then put x
        else if aspCheck s x ≠ 0 then glbErr 5 (agentOf ag) ((off + 8) / 4) (put { x with enerr := aspCheck s x })
        else put { x with frame := none, prev := none, lock := false, seen := false, en := true, enerr := 0, loadAll := true
                          since := now s }) ∧
      Writes (.aspDisable ag n v) ag (off + 8) s
        (put { x with frame := none, prev := none, lock := false, seen := false, en := false })) ∧
    (∀ t, latestFrame s d a.foff = some t → a.en = true → a.masterTimed = true → d.active = true → aspState s.glb.state = true →
      let tf := d.tideTick t + a.foff
      (∀ f, a.frame = some f → f.start < tf) → a.since + 64 ≤ tf →
      Answers (exec (.aspFrameStart n) s) fun u =>
        let x := aspOf u n
        inForce x ∧ x.lock = (a.lock || a.master) ∧ x.phase = a.foff ∧
        x.frame = (if a.master = true ∨ a.loop = 3 then some (opened tf t) else none)) ∧
    (∀ periods, a.en = true → a.master = false → a.loopNow ≠ 3 → d.active = true → d.begun = true → aspState s.glb.state = true →
      let ok := a.seen = true ∧ periods = a.ns * a.sw
      (a.lock = true ∨ ok) → Answers (exec (.aspSlaveFrameStart n periods) s) fun u =>
        let x := aspOf u n
        inForce x ∧ x.lock = true ∧ x.seen = true ∧ x.phase = now s - d.tideTick d.tide ∧
        x.frame = (if a.loop = 3 then none else some (opened (now s) d.tide)) ∧
        x.realign = (if a.lock = true ∧ ¬ok then satInc 0xFFFF a.realign else a.realign) ∧
        x.clkLoss = (if a.lock then a.clkLoss else false)) ∧
    (∀ k v old f, k < 32 → k < a.ns → ingressFrame s a k = some (old, f) →
      let g := { f with got := k + 1 }
      let t := put (if old then { a with prev := some g } else { a with frame := some g })
      let e := Tab.get 0 f.slots k
      exec (.aspSlotIngress n k v) s = .next (if bitOf e 31 = true ∧ aspIngressOpen s a f = true then
        ingressWrite e a.sw (inputValue a f k v) t else t)) ∧
    (∀ k f, k < 32 → k < a.ns → a.frame = some f → f.sent = k → (a.masterTimed = true → a.firstBit f.start k ≤ now s) →
      let e := Tab.get 0 a.outsNow k
      let vacant := physOf s (outReed e) = none
      let v := if vacant ∨ a.txen = false ∨ bitOf e 31 = false then 0 else (Tab.get 0 a.staging k).toNat / 2 ^ (32 - a.sw)
      let pin := if f.live = true ∧ f.loop < 2 then v else 0
      exec (.aspSlotEmit n k) s = .next (send (.slotOut n k pin) (put { a with
        frame := some { f with sent := k + 1, vals := Tab.set f.vals k v, pins := Tab.set f.pins k pin }
        fresh := putBit a.fresh k false
        stale := if bitOf e 31 = true ∧ bitOf a.fresh k = false ∧ ¬vacant then satInc 0xFFFF a.stale else a.stale }))) ∧
    (∀ k, k < 32 → bitOf a.loadDue k = true →
      let e := Tab.get 0 a.outsNow k
      let load := fun (v : W32) => put { a with
        staging := Tab.set a.staging k v, fresh := putBit a.fresh k true, loadDue := putBit a.loadDue k false }
      (physOf s (outReed e) = none → exec (.aspStagingLoad n k) s = .next (load 0)) ∧
      (∀ p, physOf s (outReed e) = some p →
        let word := fun (w : Nat) => reedBase p + w
        (∀ w, (outWords e).find? (fun w => placeBad s (.bank (word w))) = some w → exec (.aspStagingLoad n k) s = .next
          (fbRaise 0x0B04 (aspPayload n k a.dom d.tide)
            (irqSet (0x100 + n) 0x10 (pageError (0x100 + n) 0x0B04 (reedBase (outReed e) + w) (load 0))))) ∧
        ((∀ w ∈ outWords e, placeBad s (.bank (word w)) = false) → exec (.aspStagingLoad n k) s = .next
          (load (BitVec.ofNat 32 (wordsValue ((outWords e).map fun w => memWord s.mem (word w)) *
            (if bitOf e 26 then 2 ^ 16 else 1))))))) ∧
    (a.en = true → a.master = false → a.clkLoss = false → exec (.aspClockLoss n) s = .next
      (fbRaise 0x0B01 (aspPayload n slotNow a.dom d.tide) (irqSet (0x100 + n) 1 (put { a with
        frame := none, prev := none, lock := false, seen := false, clkLoss := true, losses := satInc 0xFFFF a.losses
        lostAt := now s })))) ∧
    (∀ k t, k < 32 → k < a.ns → latestFrame s d (a.lastBit a.phase k) = some t → a.en = true → a.rxen = true → a.master = false →
      a.clkLoss = true → a.lossZero = true → bitOf (Tab.get 0 a.slotsNow k) 31 = true → d.active = true →
      aspState s.glb.state = true → a.lostAt ≤ d.tideTick t + a.lastBit a.phase k → Tab.get 0 a.zeroed k ≤ t →
      exec (.aspLossZeroWrite n k) s = .next
        (ingressWrite (Tab.get 0 a.slotsNow k) a.sw 0 (put { a with zeroed := Tab.set a.zeroed k (t + 1) }))) ∧
    (∀ (ag k : Nat) (v : W32), k < 32 →
      let unfit := fun (bit : Nat) (w : W32) => bitOf w 31 = true ∧ bitOf w bit = false ∧ fld w 0 16 = 0xFFFF
      let w := v &&& 0xC5FFFFFF#32
      Writes (.slotmapWrite ag n k v) ag (off + 0x40 + 4 * k) s (if unfit 25 v then
          glbErr 5 (agentOf ag) ((off + 0x40 + 4 * k) / 4) (put { a with slots := Tab.set a.slots k (putBit v 31 false) })
        else put { a with slots := Tab.set a.slots k v }) ∧
      Writes (.oslotmapWrite ag n k v) ag (off + 0xC0 + 4 * k) s (if unfit 26 w then
          glbErr 5 (agentOf ag) ((off + 0xC0 + 4 * k) / 4) (put { a with outs := Tab.set a.outs k (putBit w 31 false) })
        else put { a with outs := Tab.set a.outs k w })) ∧
    ∀ ag depth, depth < 4 → Writes (.aspLoopCtrlWrite ag n depth) ag (off + 0x28) s (put { a with loop := depth })

/-! ### Sensor scan ports -/

/-- SSP_ENABLE, SSP_DISABLE, SMAP_WRITE, SSP_MATRIX_STEP, SSP_MATRIX_SAMPLE, SSP_CONVERSION_COMPLETE, SSP_ADC_PASS, SSP_ADC_WORD,
MIDI_RX_FRAME, MIDI_TX, MIDI_TX_FRAME_SENT and SSP_LOOP_CTRL_WRITE (R242 to R251, R263). An enabled port in Service, 64 ticks on,
starts its steps or passes at their ticks, samples each step after SETTLE, writes a step's 16 records 256 ticks later and each
word of a pass as it comes; MIDI frames come in as records, a bad stop bit being counted and recorded, and go out from a FIFO of 64.
A record's ring words stand in its sensor's bank, and an entry with V = 0 takes none. -/
def Obligations.SensorPortsScan : Prop :=
  ∀ (s : State) (n : Nat), n < 32 →
    let p := sspOf s n
    let put := fun (x : Ssp) => setSsp n x s
    let off := 0x180000 + 0x1000 * n
    let idled := { p with t0 := none, steps := 0, row := none, toSample := false, sample := none, toRead := 0, shifting := none }
    let runs := fun (mode : Nat) => p.en = true ∧ p.mode = mode ∧ s.glb.state = .service ∧ p.since + 64 ≤ now s
    (∀ (u : State) (i : Nat) (v : W16) (tick : Nat),
      let q := sspOf u n
      let e := Tab.get 0 q.smap i
      let m := Tab.get 0 q.nextRec i
      (bitOf e 31 = false → sampleRecord n i v tick u = u) ∧
      (∀ r, bitOf e 31 = true → physOf u (fld e 16 9) = some r →
        (sampleRecord n i v tick u).mem = (ringWords e r m v tick).foldl putPlaced u.mem ∧
        sspOf (sampleRecord n i v tick u) n = { q with nextRec := Tab.set q.nextRec i ((m + 1) % 2 ^ 16) })) ∧
    (∀ ag, p.en = false → Writes (.sspEnable ag n) ag (off + 8) s (if sspCheck s p ≠ 0 then
        glbErr 5 (agentOf ag) ((off + 8) / 4) (put { p with enerr := sspCheck s p })
      else put { idled with en := true, enerr := 0, since := now s })) ∧
    (∀ ag, Writes (.sspDisable ag n) ag (off + 8) s (put { idled with en := false })) ∧
    (∀ (ag i : Nat) (v : W32), i < 256 →
      let w := v &&& 0xF1FFFFFF#32
      let set := fun (x : W32) => put { p with smap := Tab.set p.smap i x, nextRec := Tab.set p.nextRec i 0 }
      Writes (.smapWrite ag n i v) ag (off + 0x400 + 4 * i) s (if smapOk w then set w
        else glbErr 5 (agentOf ag) ((off + 0x400 + 4 * i) / 4) (set (putBit w 31 false)))) ∧
    (runs 0 → p.nextStart ≤ now s → p.toSample = false → exec (.sspMatrixStep n) s = .next (put { p with
      t0 := some (p.t0.getD (now s)), steps := p.steps + 1, row := some (p.scanRow (p.steps % (p.nscan + 1)))
      toSample := true, loopNow := p.loop })) ∧
    (∀ vals r, runs 0 → p.row = some r → p.toSample = true → p.sample = none → p.thisStart + p.settle ≤ now s →
      let m : MatrixSample :=
        { row := r, tick := p.thisStart + p.settle, values := (List.range 16).map fun c => matrixValue p r c (vals.getD c 0) }
      exec (.sspMatrixSample n vals) s = .next (put { p with toSample := false, sample := some m })) ∧
    (∀ m, runs 0 → p.sample = some m → m.tick + 256 ≤ now s → exec (.sspConversionComplete n) s = .next
      ((List.range 16).foldl (fun t c => sampleRecord n (16 * m.row + c) (m.values.getD c 0) m.tick t)
        (put { p with sample := none }))) ∧
    (runs 1 → p.nextStart ≤ now s → p.toRead = 0 → exec (.sspAdcPass n) s = .next (put { p with
      t0 := some (p.t0.getD (now s)), steps := p.steps + 1, toRead := p.words, loopNow := p.loop })) ∧
    (∀ v, runs 1 → p.toRead ≠ 0 →
      let i := p.words - p.toRead
      p.thisStart + (i + 1) * p.width * p.sckdiv + p.sckdiv / 2 ≤ now s → exec (.sspAdcWord n v) s = .next
        (sampleRecord n i (adcValue p i v) p.thisStart (put { p with toRead := p.toRead - 1 }))) ∧
    (∀ (b : Byte) (stop : Bool) (tick : Nat), runs 2 → tick ≤ now s → p.since + 64 ≤ tick →
      let q := { p with loopNow := p.loop }
      (p.loop = 0 → exec (.midiRxFrame n b stop tick) s = .next (if stop then sampleRecord n 0 (b.setWidth 16) tick (put q)
        else sampleRecord n 0 (b.setWidth 16 ||| 0x100#16) tick
          (fbRaise 0x0B11 (BitVec.ofNat 64 (n * 2 ^ 48 + b.toNat * 2 ^ 32 + tick % 2 ^ 32))
            (irqSet (0x180 + n) 1 (put { q with fe := satInc 0xFFFF p.fe }))))) ∧
      (∀ x, p.loop ≠ 0 → p.shifting = some x →
        exec (.midiRxFrame n b stop tick) s = .next (sampleRecord n 0 (x.setWidth 16) tick (put q)))) ∧
    (∀ (ag : Nat) (b : Byte), Writes (.midiTx ag n b) ag (off + 0x4C) s
      (if 64 ≤ p.fifo.length then irqSet (0x180 + n) 4 (put { p with txovf := satInc 0xFFFF p.txovf })
      else midiStart n (put { p with fifo := p.fifo ++ [b] }))) ∧
    (∀ b, runs 2 → p.shifting = some b →
      let sent := if p.loopNow = 2 then put { p with shifting := none } else send (.midi n b) (put { p with shifting := none })
      exec (.midiTxFrameSent n) s = .next (match p.fifo with
        | [] => irqSet (0x180 + n) 2 sent
        | x :: rest => setSsp n { p with shifting := some x, fifo := rest, loopNow := p.loop } sent)) ∧
    ∀ ag depth, depth < 4 → Writes (.sspLoopCtrlWrite ag n depth) ag (off + 0x28) s
      (if depth = 3 then glbErr 5 (agentOf ag) ((off + 0x28) / 4) s else put { p with loop := depth })

/-! ### Timers and counters -/

/-- TCU_STEP, TCU_MATCH, TCU_OVF, TCU_ACTION, TCU_PAIR_CARRY, TCU_START, TCU_STOP, TCU_RESET, TCU_CNT_WRITE, TCU_CMP_WRITE,
CAPSEL_WRITE and CAPTURE_EVENT (R252 to R260, R264). At its next tick, its page having settled the ticks before, a channel takes what
reaches it then: a set of its count wins over its step, MATCH and OVF arise, a wrap of a pair's low half carries two ticks on, and
CAP takes the count before a capture action or after an event. MATCH and OVF set their flags, their interrupts where enabled, and
bring their actions one tick on; register commands reach the channel at the next tick, START and STOP both halves of a pair; the
selected edges of a capture input are events, every M-th of them. -/
def Obligations.TimersCountAndCapture : Prop :=
  ∀ (s : State) (c : Nat), c < 128 →
    let x := chanOf s c
    let put := fun (y : TcuChan) => setChan c y s
    let off := 0x30000 + 0x1000 * (c / 16) + 0x20 * (c % 16)
    let flag := fun (bit : Nat) (y : TcuChan) =>
      let t := put { y with stat := putBit x.stat bit true }
      if bitOf x.ie bit then irqSet (0x30 + c / 16) (BitVec.ofNat 32 (2 ^ (c % 16))) t else t
    let post := fun (d : Nat) (i : TcuItem) (t : State) => setChan d { chanOf t d with due := (chanOf t d).due ++ [(now s + 1, i)] } t
    let both := fun (i : TcuItem) =>
      if pairHigh s c then s else if pairLow s c then post (c + 1) i (post c i s) else post c i s
    (∀ t, nextTcuTick s c = some t → s.glb.state ≠ .off → s.glb.state ≠ .dormant → t ≤ now s → pageSettled s c t = true →
      let items := (x.due.filter fun e => e.1 ≤ t).map (·.2)
      let set := if items.contains .actReset then some 0 else setBy items
      let stepped := set.isNone && stepsNow s c items
      let v := set.getD (if stepped then x.count + 1 else x.count)
      Answers (exec (.tcuStep c) s) fun u =>
        let y := chanOf u c
        y.count = v ∧ y.run = runAfter x.run items ∧ y.tick = max x.tick t ∧ y.due = x.due.filter (fun e => t < e.1) ∧
        y.cfg = x.cfg ∧ y.ie = x.ie ∧ y.acts = x.acts ∧ (stepped = true → y.ovfAt = if v = 0 then some t else x.ovfAt) ∧
        (stepped = true → y.cmp = x.cmp → y.matchAt = if v = x.cmp then some t else x.matchAt) ∧
        ((∀ w, TcuItem.setCmp w ∉ items) → y.cmp = x.cmp) ∧
        y.cap = (if items.contains .event then v else if items.contains .capture then x.count else x.cap) ∧
        (items.contains .event = false → items.contains .capture = false → y.stat = x.stat) ∧
        (∀ d, d ≠ c → chanOf u d = if d = c + 1 ∧ v = 0 ∧ x.count ≠ 0 ∧ pairLow s c = true ∧ stepped = true then
          { chanOf s d with carries := (chanOf s d).carries ++ [t + 2] } else chanOf s d)) ∧
    (∀ t, x.matchAt = some t →
      exec (.tcuMatch c) s = .next (flag 0 { x with matchAt := none, acts := x.acts ++ [(t, false)] })) ∧
    (∀ t, x.ovfAt = some t →
      exec (.tcuOvf c) s = .next (flag 1 { x with ovfAt := none, acts := x.acts ++ [(t, true)] })) ∧
    (∀ t ovf rest, x.acts = (t, ovf) :: rest → t + 1 ≤ now s →
      let self := if ovf then fld x.cfg 9 2 else fld x.cfg 14 2
      let act := if ovf then fld x.cfg 6 3 else fld x.cfg 11 3
      exec (.tcuAction c) s = .next
        (targetAction (c / 16 * 16 + fld x.cfg 2 4) (t + 1) act (selfAction c (t + 1) self (put { x with acts := rest })))) ∧
    (∀ t rest, c % 2 = 1 → x.carries = t :: rest → t ≤ now s → s.glb.state ≠ .off → s.glb.state ≠ .dormant →
      (∀ e ∈ x.due, t < e.1) → exec (.tcuPairCarry c) s = .next (put { x with
        carries := rest, count := x.count + 1, tick := max x.tick t
        matchAt := if x.count + 1 = x.cmp then some t else x.matchAt
        ovfAt := if x.count + 1 = 0 then some t else x.ovfAt })) ∧
    (∀ ag, Writes (.tcuStart ag c) ag (off + 0x114) s (both .start) ∧ Writes (.tcuStop ag c) ag (off + 0x114) s (both .stop) ∧
      Writes (.tcuReset ag c) ag (off + 0x114) s (post c .reset s) ∧
      ∀ v, Writes (.tcuCntWrite ag c v) ag (off + 0x104) s (post c (.setCnt v) s) ∧
        Writes (.tcuCmpWrite ag c v) ag (off + 0x108) s (post c (.setCmp v) s)) ∧
    ∀ j, j < 64 →
      (∀ ag (v : W32) (level : Bool),
        let w := v &&& 0x1FFFFFFF#32
        let sel := fun (y : W32) => setCap j { sel := y, level := sourceLevel s y level, edges := 0, since := now s } s
        let none' := putFld w 16 13 0
        Writes (.capselWrite ag j v level) ag (0x30400 + 4 * j) s (
          if fld w 14 2 = 3 then glbErr 5 (agentOf ag) ((0x30400 + 4 * j) / 4) (sel (putFld none' 14 2 0))
          else if capSource w = false then glbErr 5 (agentOf ag) ((0x30400 + 4 * j) / 4) (sel none')
          else sel w)) ∧
      (let z := capOf s j
       let edge := fld z.sel 14 2
       s.glb.state ≠ .off → s.glb.state ≠ .dormant → fld z.sel 16 13 ≠ 0 → z.since + fld z.sel 8 6 + 1 ≤ now s →
         let chosen := edge = 2 ∨ (edge = 0 ∧ z.level = false) ∨ (edge = 1 ∧ z.level = true)
         let last := z.edges + 1 = fld z.sel 0 8 + 1
         let t := fun (n : Nat) => setCap j { z with level := !z.level, edges := n, since := now s } s
         exec (.captureEvent j) s = .next (if ¬chosen then t z.edges else if last then capEvent j (t 0) else t (z.edges + 1)))

/-! ### Queues and events -/

/-- QMG_COMMIT, QMG_DISABLE, QMG_READ, QMG_ADVANCE, DOORBELL_WRITE, MODERATION_EXPIRY, MSIX_MASK_CLEAR and MSIX_ENABLE (R265 to R274). A
commit that passes every check fills the entry that QSEL names; a disable discards what is held; a read shows the entry;
firmware advances the device's index within the ring. A doorbell moves the host's index within the ring, brings its source and
what was held, and re-arms the queue; any other is recorded. An expired window disarms the queue and signals the host, and what
waited for a mask or for MSI-X follows. A host's QMG_ADVANCE is refused by the model's reading. -/
def Obligations.QueuesMoveAndSignal : Prop :=
  ∀ s : State,
    let m := s.qmg
    let q := m.qsel
    let x := queueOf s q
    let off := 0x20044
    let refuse := fun (ag code : Nat) => glbErr 5 (agentOf ag) (off / 4) { s with qmg := { m with cmtErr := code } }
    (∀ ag,
      let e := commitError x m.staged
      let y := m.staged
      Writes (.qmgCommit ag) ag off s
        (if e = 0 then setQueue q { y with armed := y.v && y.ien, err := x.err } s else refuse ag e)) ∧
    (∀ ag, m.drop ≤ 0xFFFFFFFF → ∃ t, Writes (.qmgDisable ag) ag off s t ∧ t.mem = s.mem ∧
      t.qmg.drop = min 0xFFFFFFFF (m.drop + x.held.length) ∧
      t.qmg.queues = Tab.set m.queues q { x with q0 := putBit x.q0 31 false, held := [], fullHold := false, shadowDue := false }) ∧
    (∀ ag, Writes (.qmgRead ag) ag off s { s with qmg := { m with
      qdata := [(0, x.q0), (1, x.q1), (2, x.q2), (3, x.q3), (4, x.q4), (5, x.q5), (6, x.pi), (7, x.ci)] } }) ∧
    (∀ ag,
      let pi : W32 := Tab.get 0 m.qdata 6
      let ci : W32 := Tab.get 0 m.qdata 7
      let ok := if x.hostProduces then (ci - x.ci).toNat ≤ x.used else (pi - x.pi).toNat ≤ x.n - x.used
      let y := if x.hostProduces then { x with ci := ci }
        else (List.range (pi - x.pi).toNat).foldl (fun y _ => Queue.noteRecord (now s) y) { x with pi := pi }
      Writes (.qmgAdvance ag) ag off s (
        if ag = 0 then glbErr 5 (agentOf ag) (off / 4) s
        else if x.v = true ∧ ok then writeShadow q (setQueue q y s)
        else refuse ag 7)) ∧
    (∀ (n : Nat) (v : W32), n < 16384 → s.glb.state ≠ .off →
      let y := queueOf s n
      let bad := fbRaise 0x0C01 (BitVec.ofNat 64 (n * 2 ^ 32 + v.toNat)) (fireSource 9 (setQueue n { y with err := true } s))
      let put := setQueue n { y with pi := v, err := false } s
      (y.v = true → y.hostProduces = true → (v - y.pi).toNat ≤ y.n - y.used →
        exec (.doorbellWrite n v) s = .next (if y.sen = true ∧ v ≠ y.pi then fireSource y.source put else put)) ∧
      (y.v = true → y.hostProduces = false → (v - y.ci).toNat ≤ y.used →
        let t := flushHeld n (setQueue n { y with ci := v, err := false, armed := false, window := none } s)
        let z := queueOf t n
        exec (.doorbellWrite n v) s = .next (setQueue n { z with
          armed := y.ien, window := if y.ien = true ∧ z.used ≠ 0 then some { since := now s, count := z.used } else none } t)) ∧
      ((y.v = false ∨ (y.hostProduces = true ∧ y.n - y.used < (v - y.pi).toNat) ∨
          (y.hostProduces = false ∧ y.used < (v - y.ci).toNat)) → exec (.doorbellWrite n v) s = .next bad) ∧
      (∀ w : Window, y.window = some w → (max 1 y.modCnt ≤ w.count ∨ w.since + y.modTime * 256 ≤ now s) →
        let t := setQueue n { y with armed := false, window := none } s
        exec (.moderationExpiry n) s = .next (if s.cxl.dstate = .d0 ∧ s.cxl.link ≠ .l2 then issueMsix y.msiv t
          else signalWake (pendVector y.msiv t)))) ∧
    (∀ n, n < 2048 → exec (.msixMaskClear (some n)) s =
      .next (sendPending { s with cxl := { s.cxl with unmasked := insertNat n s.cxl.unmasked } })) ∧
    exec (.msixMaskClear none) s = .next (sendPending { s with cxl := { s.cxl with funcMask := false } }) ∧
    exec .msixEnable s = .next (
      let t : State := { s with cxl := { s.cxl with msixEn := true } }
      if hostReachable t then sendPending (flushHost t) else t)

/-- SWTRIG, SRC_CFG_WRITE, EVENT_COMMIT, SV_CLAIM, EOI and EOI_FORCE (R275 to R282). A software trigger fires its source; a named
source takes its configuration; outside Off and Dormant the eligible source of the highest PRIO, then of the lowest number, is
committed to its event queue as one record, its COUNT cleared, or, where that queue takes none, the bad queue is reported once;
a claim returns the best offer and stacks its PRIO; an EOI of the
top priority pops it, any other is a fault of the stack. -/
def Obligations.EventsAreRouted : Prop :=
  ∀ s : State,
    (∀ ag (v : W32),
      let n := fld v 0 13
      Writes (.swtrig ag v) ag 0x1004C s
        (if 0x800 ≤ n ∧ n < 0x1000 then fireSource n s else glbErr 5 (agentOf ag) (0x1004C / 4) s)) ∧
    (∀ ag (v : W32),
      let n := s.evr.srcSel
      Writes (.srcCfgWrite ag v) ag 0x10044 s
        (if sourceNamed n then setSrc n { srcOf s n with cfg := v &&& 0xBCBF3FFF#32 } s else s)) ∧
    (∀ n x, s.glb.state ≠ .off → s.glb.state ≠ .dormant → nextCommit s = some (n, x) →
      let q := queueOf s x.eq
      (n, x) ∈ s.srcs ∧ x.eligible 7 = true ∧ commitDue s x = true ∧
      (Tab.sorted s.srcs = true → ∀ k y, (k, y) ∈ s.srcs → y.eligible 7 = true → commitDue s y = true →
        y.prio < x.prio ∨ (y.prio = x.prio ∧ n ≤ k)) ∧
      exec .eventCommit s = .next (
        if q.takesEvents = false then
          fbRaise 0x0C05 (BitVec.ofNat 64 (n * 2 ^ 32 + x.eq)) (setSrc n { x with badq := true } s)
        else if q.eventFull then enterFullHold x.eq s
        else postRecord x.eq (eventRecord (now s) n x) (setSrc n { x with count := 0 } s))) ∧
    (∀ ag n, n < 6 →
      let v := svOf s n
      let top := v.stack.head?.map (·.1)
      let page := 0x11000 + 0x1000 * n
      (∀ k x, bestOffer s n = some (k, x) →
        (k, x) ∈ s.srcs ∧ offered s n x = true ∧
        (Tab.sorted s.srcs = true → ∀ j y, (j, y) ∈ s.srcs → offered s n y = true →
          y.prio < x.prio ∨ (y.prio = x.prio ∧ k ≤ j)) ∧
        Reads (.svClaim ag n) ag (page + 0x40) s (BitVec.ofNat 32 (k + x.count * 2 ^ 16 + x.prio * 2 ^ 24))
          (setSv n { v with stack := (x.prio, k) :: v.stack } (setSrc k { x with count := 0 } s))) ∧
      (bestOffer s n = none → Reads (.svClaim ag n) ag (page + 0x40) s 0xFFFF#32 s) ∧
      (∀ prio, prio < 16 → Writes (.eoi ag n prio) ag (page + 0x44) s (
        if top = some prio then setSv n { v with stack := v.stack.tail } s
        else fireSource 8 (fbRaise 0x0C10 (BitVec.ofNat 64 (n * 2 ^ 48 + prio * 2 ^ 32 + v.stack.length * 2 ^ 16 + top.getD 0xF))
          (setSv n { v with psf := true } s)))) ∧
      Writes (.eoiForce ag n) ag (page + 0x44) s (setSv n { v with stack := v.stack.tail } s))

/-! ### The host interface -/

/-- LINK_TRAINED, L0P_WIDTH_CHANGE, L1_ENTRY, L2_ENTRY, D_STATE_CHANGE, PERST_ASSERT, PERST_DEASSERT, HOT_RESET, LINK_DOWN, FLR and
CXL_RESET (R287, R299 to R303). Training brings the link to L0 with its width and rate, and offers CXL.io alone below 8 GT/s or
without the alternate protocol; L1 needs the link quiet; L2 and D3 end what is in flight, and a host reached again takes what
waited. Each reset ends its requests, resets its items of R303's table and leaves the others; PERST# in L2 is D3cold. That the
function is in D0 after a reset is the model's choice (log entry 26). -/
def Obligations.HostLinkTrainsSleepsAndResets : Prop :=
  ∀ s : State,
    let c := s.cxl
    let up := c.link = .l0 ∨ c.link = .l0p ∨ c.link = .l1
    let code := fun (n : Nat) => (BitVec.ofNat 64 n : W64)
    let back := fun (t : State) => if hostReachable s = false ∧ hostReachable t = true then sendPending (flushHost t) else t
    let lost := fun (t : State) => if hostReachable s = true then endRequests (fun _ => true) t else t
    let down := fun (n : Nat) (p : HostRequest → Bool) (t : State) => endRequests p (fbRaise 0x0701 (code n) t)
    let io := fun (x : Cxl) =>
      { x with bme := false, bars := [], aspm := false, msixEn := false, funcMask := false, unmasked := [], doe := [] }
    let mem := fun (x : Cxl) => { x with dec := [], cacheEn := false, memEn := false }
    let all := fun (l : LinkState) (x : Cxl) => { mem (io x) with link := l, session := false, ide := [] }
    let toD0 := fun (t : State) =>
      if t.cxl.dstate = .d0 then t else { fbRaise 0x0703 0 t with cxl := { t.cxl with dstate := .d0 } }
    (∀ w rate alt, s.glb.state ≠ .off → c.perst = false →
      let only := alt = false ∨ rate < 8
      let x := { c with width := w, trained := w, rate := rate, ioOnly := decide only, link := .l0 }
      let t := fbRaise 0x0702 (code (w % 256 * 256 + rate % 256)) { s with cxl := x }
      exec (.linkTrained w rate alt) s = .next (back (if only then fbRaise 0x0706 (code (rate % 256)) t else t))) ∧
    (∀ w, c.link = .l0 ∨ c.link = .l0p → exec (.l0pWidthChange w) s = .next (
      fbRaise 0x0702 (code (w % 256 * 256 + c.rate % 256))
        { s with cxl := { c with width := w, link := if w < c.trained then .l0p else .l0 } })) ∧
    (c.link = .l0 ∨ c.link = .l0p → c.aspm = true ∨ c.dstate = .d3hot → c.reqs = [] →
      exec .l1Entry s = .next { s with cxl := { c with link := .l1 } }) ∧
    (up → exec .l2Entry s = .next (lost { s with cxl := { c with link := .l2 } })) ∧
    (up → c.dstate = .d0 → exec (.dStateChange 3) s =
      .next (lost { fbRaise 0x0703 3 s with cxl := { c with dstate := .d3hot } })) ∧
    (up → c.dstate = .d3hot → exec (.dStateChange 0) s =
      .next (back { fbRaise 0x0703 0 s with cxl := { c with dstate := .d0 } })) ∧
    (let t := down 1 (fun _ => true) { s with cxl := { c with perst := true } };
      (c.link ≠ .l2 → exec .perstAssert s = .next (emptyFilter { t with cxl := all .down t.cxl })) ∧
      (c.link = .l2 →
        let u := emptyFilter { t with cxl := all .l2 t.cxl }
        exec .perstAssert s = .next (if u.cxl.dstate = .d3cold then u
          else { fbRaise 0x0703 4 u with cxl := { u.cxl with dstate := .d3cold } }))) ∧
    (c.perst = true → exec .perstDeassert s =
      .next (toD0 { s with cxl := { c with perst := false, wake := false, link := .down } })) ∧
    (let t := down 3 (fun _ => true) s;
      exec .hotReset s = .next (toD0 (emptyFilter { t with cxl := all .down t.cxl }))) ∧
    (let t := down 2 (fun _ => true) s;
      exec .linkDown s = .next (toD0 (emptyFilter { t with cxl := all .down t.cxl }))) ∧
    (let t := down 4 (fun q => q.uio) s;
      let u := { t with cxl := io t.cxl }
      exec .flr s = .next (if u.cxl.dstate = .d0 then u else
        (fun w => if hostReachable w = true then sendPending (flushHost w) else w)
          { fbRaise 0x0703 0 u with cxl := { u.cxl with dstate := .d0 } })) ∧
    (let t := down 5 (fun q => !q.uio) s;
      let u := { t with cxl := { mem t.cxl with ide := Tab.set t.cxl.ide 8 .off } }
      exec .cxlReset s = .next (emptyFilter (if hostReachable t = true then endRequests (fun _ => true) u else u))) ∧
    ∀ t : State,
      let u := emptyFilter t
      let x := u.cxl
      u.hbm.filter = [] ∧ u.hbm.snoops = [] ∧ (t.cxl.link ≠ .l1 → x.link = t.cxl.link) ∧
      x = { t.cxl with link := x.link, pendingVec := x.pendingVec, wake := x.wake, pmeStatus := x.pmeStatus }

/-- HDM_COMMIT, CXL_MEM_READ, CXL_MEM_WRITE, UIO_ACCESS, HOST_SNOOP, HOST_READ_COMPLETION and HOST_REQUEST_TIMEOUT (R184, R186, R187,
R290 to R294). A decoder commits over 64 GiB without skip or interleave while Mem_Active is 1, else it is in error. The host
reads and writes the lines of a committed decoder: a read returns the line's bytes, poisoned where a word of it is, and what the
host keeps enters the snoop filter; a write stores the bytes its mask names, and in Dormant every access wakes the stacks; beyond
128 GiB the model faults. A snoop is answered as a miss. A completion reaches its originator, or is discarded and counted where
the originator's own timeout has won; 2^26 ticks without one end the request with Field Book 0x0704, a MEMERR of subcause 4 for a
reed. -/
def Obligations.HostReadsMemoryAndRequestsEnd : Prop :=
  ∀ s : State,
    let c := s.cxl
    let st := s.glb.state
    let active := c.memReady = true ∧ c.ioOnly = false ∧
      (st = .startup ∨ st = .test ∨ st = .service ∨ st = .recovery ∨ st = .dormant)
    let up := c.link = .l0 ∨ c.link = .l0p ∨ c.link = .l1
    let wakes := fun (t : State) => t.hbm.lastUse = now s ∧
      ∀ p, (hbmPageOf t p).selfRef = (if st = .dormant then false else (hbmPageOf s p).selfRef)
    (∀ k base size skip ways, k < 2 →
      let ok := active ∧ size = 2 ^ 36 ∧ skip = 0 ∧ ways = 1
      exec (.hdmCommit k base size skip ways) s = .next { s with cxl := { c with
        dec := Tab.set c.dec k (if ok then { committed := true, base := base.toNat } else { committed := false, error := true }) } }) ∧
    (∀ dpa, 2 ^ 37 ≤ dpa → (∀ keep, exec (.cxlMemRead dpa keep) s = .fault .noSuchAddress) ∧
      (∀ data mask poison keep, exec (.cxlMemWrite dpa data mask poison keep) s = .fault .noSuchAddress) ∧
      ∀ write data mask, exec (.uioAccess write dpa data mask) s = .fault .noSuchAddress) ∧
    (∀ dpa, dpa < 2 ^ 37 → active → up → (Tab.get {} c.dec (dpa / 2 ^ 36)).committed = true →
      let line := dpa / 64
      let byte := 2 * (hbmBase + 32 * line)
      let ws := fun (mask : W64) (data : List Byte) => maskedWords (32 * line) mask.toNat data
      let bad := (List.range 32).any fun i => placeBad s (.hbm (32 * line + i))
      let answer := Out.memData ((List.range 64).map fun i => memGet s.mem (byte + i)) bad
      (c.memEn = true → (∀ keep, (s.hbm.filter.filter fun l => lineStack l == lineStack line).length < 1048576 →
          Answers (exec (.cxlMemRead dpa keep) s) fun t => t.mem = s.mem ∧ t.out.getLast? = some answer ∧ wakes t ∧
            t.hbm.filter = (if keep = true ∧ s.hbm.filter.contains line = false then s.hbm.filter ++ [line] else s.hbm.filter)) ∧
        (∀ data mask poison keep, Answers (exec (.cxlMemWrite dpa data mask poison keep) s) fun t =>
          t.mem = (ws mask data).foldl putPlaced s.mem ∧
          t.hbm.filter = (if keep then s.hbm.filter else s.hbm.filter.filter (· != line)) ∧ wakes t ∧
          (poison = true → ∀ p ∈ ws mask data, ∀ u n, p.1.unit = some (u, n) → 1 ≤ Tab.get 0 t.bad u))) ∧
      (∀ data mask, Answers (exec (.uioAccess false dpa data mask) s) fun t =>
        t.mem = s.mem ∧ t.out.getLast? = some answer ∧ wakes t ∧ t.hbm.filter = s.hbm.filter) ∧
      ∀ data mask, Answers (exec (.uioAccess true dpa data mask) s) fun t =>
        ∃ u, wakes u ∧ u.mem = s.mem ∧ u.out = s.out ∧ t = deviceWrite (ws mask data) u) ∧
    (∀ hpa, exec (.hostSnoop hpa) s = .next { s with out := s.out ++ [.snoopMiss hpa] }) ∧
    (∀ (k : Nat) (q : HostRequest), c.reqs[k]? = some q →
      let t := dropReq q s
      let late := fun (r : Nat) (u : State) => if (reedOf s r).lateReads = 0 then u else setReed r
        { reedOf s r with lateReads := (reedOf s r).lateReads - 1
                          page := { (reedOf s r).page with late := satInc 0xFFFF (reedOf s r).page.late } } u
      (∀ data ok, (∀ r, q.from' = .reed r → q.late = true → exec (.hostReadCompletion k data ok) s = .next (late r t)) ∧
        (∀ r f, q.from' = .reed r → q.late = false → waitingRead t r = some f → exec (.hostReadCompletion k data ok) s = .next (
          if ok then resumeBundle r (some (leValue (data.take f.len))) (farCharge t r f.tgt (f.byte / 2)) t
          else failFarRead r 4 (f.byte / 2) t)) ∧
        (∀ b rq, q.from' = .engine b rq → q.late = false → exec (.hostReadCompletion k data ok) s =
          .next (requestData b rq data ok t))) ∧
      (q.since + 2 ^ 26 ≤ now s →
        (∀ r, q.from' = .reed r →
          let u := fbRaise 0x0704 (BitVec.ofNat 64 r) t
          exec (.hostRequestTimeout k) s = .next (if q.late then late r u else failFarRead r 4
            (match waitingRead u r with | some f => f.byte / 2 | none => 0) (endFarRead r u))) ∧
        (∀ b rq, q.from' = .engine b rq → q.late = false → exec (.hostRequestTimeout k) s = .next (
          endEngineRequest b rq false (fbRaise 0x0704 (BitVec.ofNat 64 (0x8000 + b)) t)))))

/-! ### Sessions, keys and loop-backs -/

/-- DOE_REQUEST, DOE_ABORT, SPDM_REQUEST, LKEK_INSTALL, IDE_KM_KEY, IDE_INTEGRITY_FAIL, CXL_LOOPBACK_START, CXL_LOOPBACK_END and
LOOPBACK_FOLLOWER (R295, R296, R307, R348, R350). Outside Off a DOE instance answers, and an abort leaves the other alone; what the
standards answer the spec leaves open, and it is a free value of the model (log entry 11). Before stage-1 is verified every SPDM
request but two is answered Busy. A secured session alone installs the LKEK and the IDE keys, and an integrity failure makes its
stream insecure. In Test a loop-back starts with its results cleared and ends after its duration with DEPTH 0 and DONE; depths 1 to
3 take the link from L0, and so does the host's own direction. The codes that open and close a session are the model's (log entry
27). -/
def Obligations.SessionsKeysAndLoopBacks : Prop :=
  ∀ s : State,
    let c := s.cxl
    let free := Config.freeValue s.fresh
    let one : State := { s with fresh := s.fresh + 1 }
    let up := c.link = .l0 ∨ c.link = .l0p ∨ c.link = .l1
    let looped := fun (t : State) => if hostReachable s = true then endRequests (fun _ => true) t else t
    let said := fun (i : Nat) (ty v : W32) (t : State) => send (.doeAnswer i ty v) { t with cxl := { t.cxl with
      doe := Tab.set t.cxl.doe i { answers := (Tab.get {} t.cxl.doe i).answers ++ [[ty, v]] } } }
    (∀ i ty, i < 2 → s.glb.state ≠ .off → exec (.doeRequest i ty) s = .next (said i ty free one)) ∧
    (∀ i, i < 2 → Answers (exec (.doeAbort i) s) fun t => Tab.get {} t.cxl.doe i = {} ∧
      (∀ j, j ≠ i → Tab.get {} t.cxl.doe j = Tab.get {} c.doe j) ∧ t = { s with cxl := { c with doe := t.cxl.doe } }) ∧
    (∀ code, let ty : W32 := BitVec.ofNat 32 (0x13 + code % 256 * 256)
      (s.sec.verified = 0 → code ≠ 0x84 → code ≠ 0xE1 →
        exec (.spdmRequest code) s = .next (said 0 ty 0x00037F13#32 s)) ∧
      (s.sec.verified ≠ 0 ∨ code = 0x84 ∨ code = 0xE1 → exec (.spdmRequest code) s = .next (said 0 ty free { one with
        cxl := { c with session := if code = 0xE5 then true else if code = 0xEC then false else c.session } }))) ∧
    (∀ key gen, c.session = true → s.sec.verified ≠ 0 → exec (.lkekInstall key gen) s = .next (
      fbRaise 0x0206 (BitVec.ofNat 64 gen.toNat) (said 0 0 gen { s with
        sec := { s.sec with lkek := some key, lkekGen := gen.toNat } }))) ∧
    (∀ key gen, c.session = false ∨ s.sec.verified = 0 → exec (.lkekInstall key gen) s = .next s) ∧
    (∀ n, n ≤ 4 ∨ n = 8 →
      let put := fun (v : IdeState) => ({ s with cxl := { c with ide := Tab.set c.ide n v } } : State)
      exec (.ideKmKey n) s = .next (if c.session then put .secure else s) ∧
      exec (.ideIntegrityFail n) s = .next (if Tab.get .off c.ide n = .secure then
        irqSet 5 1 (fbRaise 0x0210 (BitVec.ofNat 64 (if n = 8 then 264 else n)) (put .insecure)) else s)) ∧
    (∀ (ag : Nat) (v : W32),
      let d := fld v 0 3
      let ran := fld c.loop 0 3
      let x := { c with loop := v &&& 0xFF07#32, loopEnd := now s + max 1 (fld v 8 8) * 2 ^ 20 }
      let u : State := { s with cxl := x }
      let refuse := fun (n : Nat) => glbErr n (agentOf ag) (0x1028 / 4) s
      Writes (.cxlLoopbackStart ag v) ag 0x1028 s (
        if 5 ≤ d then refuse 5
        else if d = 0 then { s with cxl := { c with
          loop := (c.loop &&& 0xC0FF0000#32) ||| (v &&& 0xFF00#32), link := if ran = 0 ∨ ran = 4 then c.link else .down } }
        else if s.glb.state ≠ .test then refuse 4
        else if d = 4 then { u with cxl := { x with loopMem := [] } }
        else looped { fbRaise 0x0701 6 u with cxl := { x with link := .loopback } })) ∧
    (∀ errs formed, fld c.loop 0 3 ≠ 0 → c.loopEnd ≤ now s →
      Answers (exec (.cxlLoopbackEnd errs formed) s) fun t =>
        let e := if fld c.loop 0 3 = 4 then 0 else errs
        let v := t.cxl.loop
        t = { s with cxl := { c with loop := v, link := if fld c.loop 0 3 = 4 then c.link else .down } } ∧ fld v 0 3 = 0 ∧
        bitOf v 31 = true ∧ (bitOf v 30 = true ↔ 0 < e ∨ formed = false) ∧ fld v 16 8 = min e 255 ∧
        fld v 8 8 = fld c.loop 8 8) ∧
    (up → exec .loopbackFollower s = .next (looped { fbRaise 0x0701 6 s with cxl := { c with link := .loopback } }))

/-! ### Start-up and trust -/

/-- START_SEQUENCE and STARTUP_WATCHDOG (R336, R337, R340, R341, R343, R349). While a start is in progress each step needs the one
before it. Fewer than 6 passing Surveyors, a failed OTP check, untrained HBM, fewer than 480 passing reeds, a bad map, a hot
junction or a pace floor that does not hold fail it with reasons 0xA, 6, 3, 4, 0xB, 7 and 8, and 2^33 ticks with reason 5. A stage's
image that verifies is taken; one that does not leaves its record, and after copy B the stage awaits a push or the start fails.
Step 8 enters Service. -/
def Obligations.StartRunsItsSteps : Prop :=
  ∀ (s : State), s.glb.state = .startup → s.glb.target = none → s.sec.starting = true →
    let x := s.sec
    let at' := fun (n : Nat) => ({ s with sec := { x with step := n } } : State)
    let run := fun (n : Nat) (args : List Nat) (image : Option (List Byte)) => exec (.startSequence n args image) s
    let fails := fun (reason : Nat) (t : State) =>
      let u := fbRaise 0x0103 (BitVec.ofNat 64 reason) { t with sec := { t.sec with
        lastFail := reason, starting := false, waitPush := 0, push := .idle } }
      trigger (if t.sec.otp.threshold ≤ t.sec.count then .tussock reason else .reset) u
    let source := if x.forceHost then 1 else if x.otp.bootSrc = 3 then 0 else x.otp.bootSrc
    (∀ reason image, reason = 7 ∨ reason = 8 → run 0 [reason] image = .next (fails reason s)) ∧
    (x.since + 2 ^ 33 ≤ now s → exec .startupWatchdog s = .next (fails 5 s)) ∧
    (∀ mask image, x.step = 1 →
      let pass := setBits 8 mask
      run 2 [mask] image = .next (if pass.length < 6 then fails 0xA (at' 2)
        else { at' 2 with spr := { s.spr with
          survMap := (List.range 6).zip pass, survFailed := (List.range 8).filter fun k => !pass.contains k } })) ∧
    (∀ args image, x.step = 2 → run 3 args image = .next (at' 3)) ∧
    (∀ ok image, x.step = 3 →
      let t : State := { s with sec := { x with step := 4, otpOk := ok = 1 } }
      run 4 [ok] image = .next (if ok = 1 then t else fails 6 t)) ∧
    (∀ stage args, (stage = 1 ∧ (x.step = 4 ∨ x.step = 5 ∧ x.verified = 0 ∧ x.waitPush = 0)) ∨
        (stage = 2 ∧ (x.step = 6 ∨ x.step = 7 ∧ x.verified = 1 ∧ x.waitPush = 0)) →
      let n := 3 + 2 * stage
      let t := if stage = 2 then fixMeas4 (at' n) else at' n
      let awaits := fun (u : State) => irqSet 5 4 { u with sec := { u.sec with waitPush := stage } }
      let tried := fun (here : Bool) (u : State) =>
        let v : State := { u with sec := { u.sec with tried := (x.tried.1 + 1, x.tried.2 || here) } }
        if x.tried.1 = 0 then v else if source = 2 then fails (if x.tried.2 || here then 1 else 2) v else awaits v
      (∀ image, source = 1 → run n args image = .next (awaits t)) ∧
      (source ≠ 1 → run n args none = .next (tried false t)) ∧
      (∀ bs, source ≠ 1 → imagePresent bs = false → run n args (some bs) = .next (tried false t)) ∧
      (∀ bs, source ≠ 1 → imagePresent bs = true →
        let e := verifyImage x stage bs
        run n args (some bs) =
          .next (if e = 0 then acceptStage stage x.tried.1 bs t else tried true (rejectImage stage x.tried.1 e bs t)))) ∧
    (∀ mask hbm map pages image, x.step = 5 → x.verified = 1 →
      let failed := (List.range 544).filter fun p => !bitAt mask p
      (hbm ≠ 1 → run 6 (mask :: hbm :: map :: pages) image = .next (fails 3 (at' 6))) ∧
      (hbm = 1 → 544 - failed.length < 480 → run 6 (mask :: hbm :: map :: pages) image = .next (fails 4 (at' 6))) ∧
      (hbm = 1 → 480 ≤ 544 - failed.length → map ≠ 1 →
        run 6 (mask :: hbm :: map :: pages) image = .next (fails 0xB (at' 6))) ∧
      (hbm = 1 → 480 ≤ 544 - failed.length → map = 1 →
        Answers (run 6 (mask :: hbm :: map :: pages) image) fun t =>
          t.sec.step = 6 ∧ t.binding = bindingOf (bindReeds mask) ∧ t.spr.failed = failed ∧ t.cxl.memReady = true ∧
          ∀ p, p < 64 → (hbmPageOf t p).trained = true)) ∧
    (∀ args image, x.step = 7 → x.verified = 2 →
      let n := 544 - s.spr.failed.length
      run 8 args image = .next (reachState .service (fbRaise 0x0104 (BitVec.ofNat 64 (n % 512)) { s with
        sec := { x with step := 8, starting := false, fw := true, meas := Tab.set x.meas 5 0 } })))

/-- PUSH_GO, PUSH_DATA, PUSH_VERIFY_COMPLETE, BOOT_ACK, SVNCOMMIT and ZEROIZE (R338, R340 to R342, R345, R350, R351, R353). A GO that is
in order empties the push buffer, one that is not sets ERR and is logged; data fill it to LEN. A pushed stage is accepted where it is
the one awaited and verifies, a trust record where it verifies and its signer may: it revokes, provisions or opens debug access. A
push ends with DONE, and with ERR where it failed. BOOT_ACK clears the attempt counter in Service; SVNCOMMIT raises the floors, once
acknowledged, and never lowers one; ZEROIZE clears the LKEK and every key slot. -/
def Obligations.PushesAndTrustRecords : Prop :=
  ∀ (s : State),
    let x := s.sec
    let put := fun (y : Sec) => ({ s with sec := y } : State)
    let wrong := fun (ag o : Nat) (y : Sec) => glbErr 5 (agentOf ag) ((0x5000 + o) / 4) (put { y with err := true })
    let ends := fun (err : Bool) (t : State) =>
      irqSet 5 2 { t with sec := { t.sec with done := true, err := err, push := .idle, buffer := [] } }
    (∀ (ag : Nat) (v : W32),
      let kind := fld v 28 2
      let len := fld v 0 25
      let y := if x.push = .idle then { x with kind := kind, len := len } else x
      let refused := kind = 0 ∨ x.push ≠ .idle ∨ stageLimit kind < len ∨ len % 4 ≠ 0 ∨ len = 0 ∨
        (kind = 3 ∧ s.glb.state ≠ .service ∧ s.glb.state ≠ .tussock) ∨ (kind ≠ 3 ∧ x.waitPush = 0)
      Writes (.pushGo ag v) ag 0x5048 s (if refused then wrong ag 0x48 y
        else put { y with push := .filling, buffer := [], done := false, err := false })) ∧
    (∀ (ag : Nat) (v : W32),
      let b := x.buffer ++ leBytes 4 v.toNat
      Writes (.pushData ag v) ag 0x504C s (if x.push = .filling
        then put { x with buffer := b, push := if x.len ≤ b.length then .verifying else .filling }
        else wrong ag 0x4C x)) ∧
    (x.push = .verifying → x.kind ≠ 3 →
      let e := if x.kind = x.waitPush then verifyImage x x.kind x.buffer else 0x0201
      exec .pushVerifyComplete s = .next (if x.waitPush = 0 ∨ imagePresent x.buffer = false then ends true s
        else if e = 0 then ends false (acceptStage x.kind 2 x.buffer s)
        else ends true (rejectImage x.kind 2 e x.buffer s))) ∧
    (x.push = .verifying → x.kind = 3 →
      let bs := x.buffer
      let body := imageBody bs
      let signer := leField bs 7 1
      let ty := leField body 0 1
      let tgt := leField body 1 1
      let pay : W64 := BitVec.ofNat 64 (ty + tgt % 8 * 256)
      let e := verifyImage x 3 bs
      let slot := fun (k : KeySlot) (lock : Bool) =>
        fixMeas4 (put { x with otp := { x.otp with slots := Tab.set x.otp.slots tgt k, custLock := lock } })
      let done := if ty = 1 then slot { keySlot x tgt with revoked := true } x.otp.custLock
        else if ty = 2 then slot { v := true, revoked := false, stages := leField body 2 2 % 4
                                   hash := BitVec.ofNat 512 (leField body 20 64) } true
        else (fun t : State => fbRaise 0x0207 (BitVec.ofNat 64 signer)
          (fixMeas4 { t with sec := { t.sec with dbgOpen := true } })) (zeroise s)
      exec .pushVerifyComplete s = .next (if imagePresent bs = false then ends true s
        else if e ≠ 0 then ends true (rejectImage 3 2 e bs s)
        else if trustOk x signer body = true then ends false (fbRaise 0x0204 pay done)
        else ends true (fbRaise 0x0205 pay s))) ∧
    (∀ ag, Writes (.bootAck ag) ag 0x104C s (if s.glb.state = .service
      then fbRaise 0x0107 0 (put { x with count := 0, forceHost := false, bootAck := true })
      else glbErr 4 (agentOf ag) (0x104C / 4) s)) ∧
    (∀ ag, Writes (.svncommit ag) ag 0x5008 s (if s.glb.state = .service ∧ x.bootAck = true
      then put { x with otp := { x.otp with floor1 := max x.otp.floor1 x.svn1, floor2 := max x.otp.floor2 x.svn2 } }
      else glbErr 4 (agentOf ag) (0x5008 / 4) s)) ∧
    (∀ ag, Responds ag 0x5008 s → Answers (exec (.zeroize ag) s) fun t =>
      t.sec = { x with lkek := none, lkekGen := 0 } ∧ (∀ b, (engineOf t b).keys = []) ∧
      t = { s with sec := t.sec, slc := t.slc }) ∧
    ∀ ag, Closed ag 0x5008 s → exec (.zeroize ag) s = .next (glbErr 3 (agentOf ag) (0x5008 / 4) s)

/-- MAILBOX_INFO, MAILBOX_LOAD_IMAGE, MAILBOX_UNKNOWN_SERVICE and BOUNDARY_SCAN (R265, R349, R351, R352, R381). Where stage-2 firmware
serves mailboxes every request is answered by a 64-byte entry that returns its tag: the information of service 1 in two entries (log
entry 28), a load with status 0 where it is taken, else 3 or 4, an unknown operation with 2 and an unknown service with 1. A load that is
taken puts the image into its context and extends measurement 5. Boundary scan reads IDCODE, whose manufacturer bits the spec leaves
open (log entry 11), and a word of memory while debug access is open; it changes nothing else. -/
def Obligations.MailboxesAndScanAnswer : Prop :=
  ∀ (s : State) (q : Nat) (tag : W32),
    let opens := s.sec.fw = true ∧ delivers s.glb.state = true ∧ s.glb.state ≠ .tussock
    let answer := fun (service op status : Nat) (body : List Byte) (t : State) =>
      let bytes := leBytes 2 service ++ leBytes 2 op ++ leBytes 4 tag.toNat ++ leBytes 4 body.length ++ leBytes 4 status ++
        padBytes 48 body
      if (queueOf t q).v = true ∧ (queueOf t q).typ = 3 ∧ (queueOf t q).dir = true
      then postRecord q ((List.range 16).map fun k => BitVec.ofNat 32 (leValue ((bytes.drop (4 * k)).take 4))) t else t
    let first := fun (k : Nat) => (leBytes 64 (Tab.get 0 s.sec.meas k : BitVec 512).toNat).take 32
    let info := leBytes 4 s.sec.svn1 ++ leBytes 4 s.sec.svn2 ++ first 2 ++ first 3
    (opens →
      exec (.mailboxInfo q 1 tag) s = .next (answer 1 1 0 (info.drop 48) (answer 1 1 0 (info.take 48) s)) ∧
      (∀ op, op ≠ 1 → exec (.mailboxInfo q op tag) s = .next (answer 1 op 2 [] s)) ∧
      (∀ service op, exec (.mailboxUnknownService q service op tag) s = .next (answer service op 1 [] s)) ∧
      (∀ op l c cfg entry parcels imOff im bytes, l < 512 → c < 8 →
        let load := exec (.mailboxLoadImage q op tag l c cfg entry parcels imOff im bytes) s
        let st := loadStatus s l
        let i : Image := { cfg := cfg, entry := entry, parcels := parcels, imOff := imOff, im := im }
        (st ≠ 0 ∨ physOf s l = none → load = .next (answer 2 op st [] s)) ∧
        (∀ p, st = 0 → physOf s l = some p → load = .next (answer 2 op 0 [] (
          let t := extendE l c bytes (putImage i p c s)
          { t with spr := { t.spr with images := Tab.set t.spr.images (8 * l + c) i } }))))) ∧
    (s.glb.state ≠ .off →
      (∀ a, Answers (exec (.boundaryScan 0 a) s) fun t => ∃ v : W32,
        t = { s with fresh := s.fresh + 1, out := s.out ++ [.readData v] } ∧ fld v 28 4 = 1 ∧ fld v 12 16 = 0x9144 ∧
        bitOf v 0 = true) ∧
      (∀ a, exec (.boundaryScan 1 a) s = .next s) ∧
      (∀ a w, s.sec.dbgOpen = true → (placeOf s 0 a).word = some w →
        exec (.boundaryScan 2 a) s = .next { s with out := s.out ++ [.readData ((memWord s.mem w).setWidth 32)] }) ∧
      ∀ a, s.sec.dbgOpen = false → exec (.boundaryScan 2 a) s = .next s)

/-! ### The Field Book -/

/-- FB_COMMIT, FB_REFILL, FB_LATCH, WALL_SET, FB_SCRUB, FB_REPAIR, FB_REPAIR_COMPLETE, MIREN_SET and FB_MIRROR_COPY (R355, R356, R358
to R364). The oldest request of the input queue becomes a record of the next number, with the tide and wall times, or updates the
latest record of an accumulating code in the window; a dead Field Book counts it. A refill adds an occurrence to its bucket, and a
bucket that is full again writes what it suppressed. A latch shows the selected record. WALL_SET sets the wall time at the next tick.
A failed main SRAM brings the 64 records of the backup into use, and a repair takes them back; the mirror takes the records in order,
updates first, and what leaves the window before its copy is lost and counted. -/
def Obligations.FieldBookKeepsItsRecords : Prop :=
  ∀ s : State,
    let f := s.fbk
    let put := fun (g : Fbk) => ({ s with fbk := g } : State)
    let window := if f.onBackup then 64 else 8192
    let stamp := fun (r : FbRecord) => { r with tide := now s, wall := f.wall, epoch := f.epoch }
    (∀ q rest, f.queue = q :: rest → s.glb.state ≠ .off →
      (f.dead = true → ∀ ue, exec (.fbCommit ue) s =
        .next (put { f with queue := rest, dropped := satInc 0xFFFF f.dropped })) ∧
      (f.dead = false → fbAccumulates q.code = false ∨ f.latest q.code = none → Answers (exec (.fbCommit false) s) fun t =>
        let n := if fbAccumulates q.code then 1 else q.count
        t.fbk.record f.next = stamp { seq := f.next, code := q.code, count := n, payload := q.payload } ∧
        t.fbk.next = f.next + 1 ∧ t.fbk.queue = rest ∧
        (∀ m, m % window ≠ f.next % window → t.fbk.record m = f.record m) ∧ t = { s with fbk := t.fbk }) ∧
      (∀ r, f.dead = false → fbAccumulates q.code = true → f.latest q.code = some r → r.seq < f.mirSeq → f.miren = true →
        f.updates.length < 16 → Answers (exec (.fbCommit false) s) fun t =>
          t.fbk.record r.seq = stamp { r with count := satInc 0xFFFF r.count, payload := q.payload } ∧
          t.fbk.updates = f.updates ++ [{ seq := r.seq }] ∧ t.fbk.next = f.next ∧ t = { s with fbk := t.fbk }) ∧
      (f.dead = false → f.onBackup = true → exec (.fbCommit true) s =
        .next (irqSet 4 2 (put { f with queue := rest, dead := true }) |> fun u =>
          { u with fbk := { u.fbk with dropped := satInc 0xFFFF u.fbk.dropped } }))) ∧
    (∀ code,
      let b := bucketOf f code
      let len := 1024 * max f.refill 1
      s.glb.state ≠ .off → b.held < f.burst → b.since + b.len ≤ now s → f.dead = false → f.queue.length < 64 →
      exec (.fbRefill code) s = .next (put (if b.held + 1 = f.burst ∧ 0 < b.suppressed then
        { f with queue := f.queue ++ [{ code := code, count := b.suppressed - 1, payload := b.last }]
                 buckets := Tab.set f.buckets code
                   { b with held := f.burst - 1, since := now s, len := len, suppressed := 0 } }
      else { f with buckets := Tab.set f.buckets code { b with held := b.held + 1, since := b.since + b.len, len := len } }))) ∧
    (∀ ag, Reads (.fbLatch ag false) ag 0x4050 s ((f.record f.rdSel).words.getD 0 0) (put { f with buffer := f.record f.rdSel })) ∧
    (∀ ag (hi : W32), s.glb.state ≠ .off → Writes (.wallSet ag hi) ag 0x4074 s (put { f with
      wallSet := some (hi ++ f.wallLo).toNat, epoch := if f.wallSet.isSome then (f.epoch + 1) % 65536 else f.epoch })) ∧
    (s.glb.state ≠ .off → f.scrubbed + 2 ^ 30 ≤ now s →
      exec (.fbScrub none none) s = .next (put { f with scrubbed := now s }) ∧
      (∀ n, f.dead = false → f.onBackup = false → f.bkFail = false → Answers (exec (.fbScrub (some n) none) s) fun t =>
        t.fbk.onBackup = true ∧ t.fbk.next = f.next + 1 ∧
        t.fbk.record f.next = stamp { seq := f.next, code := 0x0D01, count := 1, payload := BitVec.ofNat 64 (n % 8192) }) ∧
      (∀ n, f.dead = false → f.onBackup = false → f.bkFail = false → exec (.fbScrub none (some n)) s =
        .next (irqSet 4 8 (fbRaise 0x0D02 (BitVec.ofNat 64 (n % 64)) (put { f with scrubbed := now s, bkFail := true }))))) ∧
    (∀ ag, Writes (.fbRepair ag) ag 0x4008 s (if f.onBackup = true ∧ f.repairing = false then put { f with repairing := true }
      else glbErr 5 (agentOf ag) (0x4008 / 4) s)) ∧
    (∀ mac row, mac < 8 → row < 512 → f.repairing = true →
      (2 ≤ Tab.get 0 f.rowsUsed mac → exec (.fbRepairComplete mac row) s =
        .next (fbRaise 0x0D04 (BitVec.ofNat 64 (0x0D00 + mac)) (put { f with repairing := false }))) ∧
      (Tab.get 0 f.rowsUsed mac < 2 → Answers (exec (.fbRepairComplete mac row) s) fun t =>
        t.fbk.onBackup = false ∧ t.fbk.backup = [] ∧ t.fbk.repairing = false ∧ t.fbk.main = f.restored ∧
        t.fbk.next = f.next ∧ Tab.get 0 t.fbk.rowsUsed mac = Tab.get 0 f.rowsUsed mac + 1 ∧ t = { s with fbk := t.fbk })) ∧
    (∀ ag, Writes (.mirenSet ag) ag 0x4008 s (if f.miren then s else
      put { f with miren := true, mirSeq := f.next - window, updates := [] })) ∧
    (f.miren = true → s.glb.state ≠ .off →
      (f.next - window ≤ f.mirSeq → mirrorReady s = true →
        (∀ u us, f.updates = u :: us → exec .fbMirrorCopy s =
          .next (postRecord f.mirq (f.record u.seq).words (put { f with updates := us }))) ∧
        (f.updates = [] → f.mirSeq < f.next → exec .fbMirrorCopy s =
          .next (postRecord f.mirq (f.record f.mirSeq).words (put { f with mirSeq := f.mirSeq + 1 })))) ∧
      (f.mirSeq < f.next - window → (queueOf s f.mirq).v = false →
        let n := f.next - window - f.mirSeq
        exec .fbMirrorCopy s = .next (fbRaise 0x0D05 (BitVec.ofNat 64 (n % 2 ^ 32))
          (irqSet 4 4 (put { f with mirSeq := f.next - window, mirLost := min 0xFFFF (f.mirLost + n) })))))

/-! ### The Causeway and the atlas -/

/-- CWL_ENABLE, CWL_DISABLE, CWL_RETRAIN, CWL_TRAINED, MISWIRED_RETRY, NAK_FLIT, REPLAY_TIMEOUT, CWL_BAD_FLIT, LANE_MARGIN_LOW,
LANE_LOSS, CWL_LOOPBACK_START and CWL_LOOPBACK_END (R309, R310, R313, R314, R331, R333). An enabled link that the topology names trains
with a cleared link layer; the expected peer brings it UP, any other MISWIRED with Field Book 0x0805, and it tries again after 1 ms.
Going down from service writes 0x0802. A NAK or 512 block times without an acknowledgement resend the flits from the named or the
oldest one in order, counted and recorded as 0x0806; the eighth replay of a flit takes the link down. A bad flit is counted and
answered with one NAK. A weak lane is copied onto the spare (0x0803); a lost lane is replaced by it with a replay; without a spare the
link goes on DEGRADED on logical lanes 0 and 1 (0x0804), carried by lanes that still run (the model's choice, log entry 24). The
record's reason of a RETRAIN is free (log entry 11), and LOOP_CTRL DEPTH 0 is the model's reading (log entry 30). -/
def Obligations.LinksTrainReplayAndDegrade : Prop :=
  ∀ (s : State) (l : Nat), l < 16 →
    let x := linkOf s l
    let st := s.glb.state
    let page := 0x1C0 + l
    let pay := fun (v : Nat) => payload s.glb.sheet (l * 2 ^ 32 + v)
    let named := s.atl.en = true ∧ (neighbour s.atl.cfg s.glb.sheet l).isSome = true ∧ st ≠ .dormant ∧ st ≠ .off
    let training := fun (y : Link) => { y.clearLayer with state := .train, since := now s }
    let train := fun (y : Link) => if y.en = true ∧ named then training y else y
    let downed := fun (y : Link) => { y.clearLayer with state := .down, lanes := 0, since := now s }
    let down := fun (reason : Nat) (y : Link) (t : State) =>
      if y.carries then fbRaise 0x0802 (pay reason) (irqSet page 1 (setLink l (downed y) t)) else setLink l (downed y) t
    let resent := fun (fs : List SentFlit) => fs.map fun g => { g with replays := g.replays + 1 }
    let replayed := fun (keep fs : List SentFlit) (first : Nat) (t : State) =>
      let y := linkOf t l
      fbRaise 0x0806 (pay first)
        { setLink l { y with unacked := keep ++ resent fs, cntReplay := satInc 0xFFFFFFFF y.cntReplay, ackSince := now s } t with
          out := t.out ++ (resent fs).map fun g => .flit l (g.flit.bytes g.seq) }
    let accepted := fun (n : Nat) =>
      setLink l { x with rxSeq := (x.rxSeq + n) % 1024, nakOut := false, accepted := x.accepted + n } s
    let swapped := fun (lane i n : Nat) (y : Link) =>
      let m := putFld (putFld y.lmap (3 * i) 3 (spareLane y.lmap)) 15 3 7
      fbRaise 0x0803 (pay (lane * 2 ^ 8 + n)) (irqSet page 4 (setLink l { y with lmap := m, lanes := mappedLanes m 4 } s))
    (∀ ag, Writes (.cwlEnable ag l) ag (cwlOff l 8) s
      (if x.en then s else setLink l (train { x with en := true }) s)) ∧
    (∀ ag, Writes (.cwlDisable ag l) ag (cwlOff l 8) s
      (if x.en then down 4 { x with en := false } s else s)) ∧
    (∀ ag, x.state = .down → Writes (.cwlRetrain ag l) ag (cwlOff l 8) s
      (if x.en = true ∧ named then setLink l (training x) s else s)) ∧
    (∀ ag, x.state ≠ .down → Responds ag (cwlOff l 8) s → ∃ reason < 256, exec (.cwlRetrain ag l) s =
      .next (startTraining l (down reason x { s with fresh := s.fresh + 1 }))) ∧
    (∀ cfg psheet plink,
      (x.state ≠ .train → exec (.cwlTrained l cfg psheet plink) s = .next s) ∧
      (x.state = .train →
        let y := { x with peerSheet := psheet % 64, peerLink := plink % 16, since := now s }
        exec (.cwlTrained l cfg psheet plink) s = .next (
          if cfg = s.atl.cfg ∧ neighbour s.atl.cfg s.glb.sheet l = some psheet ∧ plink = peerLinkOf s.atl.cfg s.glb.sheet l then
            fbRaise 0x0801 (pay (mappedLanes x.lmap 4))
              (irqSet page 2 (setLink l { y with state := .up, lanes := mappedLanes x.lmap 4 } s))
          else fbRaise 0x0805 (pay (psheet % 64 * 2 ^ 16 + plink % 16 * 2 ^ 8))
            (irqSet page 16 (setLink l { y with state := .miswired } s))))) ∧
    (x.state = .miswired → x.since + msTicks s ≤ now s →
      exec (.miswiredRetry l) s = .next (if x.en = true ∧ named then setLink l (training x) s else s)) ∧
    (x.carries = true → ∀ (pre post : List SentFlit) (f : SentFlit), x.unacked = pre ++ f :: post →
      (∀ g ∈ pre, g.seq ≠ f.seq) →
      let fs := f :: post
      let final := fun (t : State) => if ∃ g ∈ fs, 7 ≤ g.replays then linkRetrain l 1 t else t
      (∀ (h : W32) body, fld h 28 4 = 1 → fld h 0 10 = f.seq → body.length ≤ 56 →
        exec (.nakFlit l h body) s = .next (acknowledge l (final (replayed [] fs f.seq (accepted 1))))) ∧
      (pre = [] → x.ackSince + ackTicks s ≤ now s → exec (.replayTimeout l) s = .next (final (replayed [] fs f.seq s)))) ∧
    (x.carries = true → ∀ reserved,
      let y := { x with cntCrc := satInc 0xFFFFFFFF x.cntCrc, nakOut := true
                        reserved := if reserved then now s :: x.reserved else x.reserved }
      let t := if x.nakOut then setLink l y s else sendOn l [mkFlit 1 x.rxSeq []] (setLink l y s)
      exec (.cwlBadFlit l reserved) s = .next (
        if 3 ≤ (y.reserved.filter fun k => decide (now s < k + msTicks s)).length then linkRetrain l 2 t else t)) ∧
    (∀ lane i, lane < 5 → logicalLane x.lmap lane = some i → lane ≠ spareLane x.lmap →
      (x.state = .up → spareLane x.lmap ≠ 7 → exec (.laneMarginLow l lane) s = .next (swapped lane i 0 x)) ∧
      (x.carries = true →
        let y := { x with failed := insertNat lane x.failed }
        (x.state ≠ .degraded → spareLane x.lmap ≠ 7 → x.unacked = [] →
          exec (.laneLoss l lane) s = .next (swapped lane i 1 y)) ∧
        (x.state ≠ .degraded → spareLane x.lmap ≠ 7 → ∀ f post, x.unacked = f :: post → (∀ g ∈ post, g.seq ≠ f.seq) →
          (∀ g ∈ x.unacked, g.replays < 7) →
          exec (.laneLoss l lane) s = .next (replayed [] (f :: post) f.seq (swapped lane i 1 y))) ∧
        (x.state ≠ .degraded → spareLane x.lmap = 7 → Answers (exec (.laneLoss l lane) s) fun t =>
          let z := linkOf t l
          z.state = .degraded ∧ t = fbRaise 0x0804 (pay 0) (irqSet page 8 (setLink l z s)) ∧
            z = { y with state := .degraded, lmap := z.lmap, lanes := mappedLanes z.lmap 2, since := now s }) ∧
        (x.state = .degraded → exec (.laneLoss l lane) s =
          .next (if bitAt x.lanes lane then linkRetrain l 3 (setLink l y s) else setLink l y s)))) ∧
    (∀ ag (v : W32),
      let d := fld v 0 3
      let ctl := v &&& 0x3F00FF07#32
      let stop := now s + max 1 (fld v 8 8) * 2 ^ 20
      (5 ≤ d → Writes (.cwlLoopbackStart ag l v) ag (cwlOff l 0x28) s (glbErr 5 (agentOf ag) (cwlOff l 0x28 / 4) s)) ∧
      (1 ≤ d → d ≤ 4 → st ≠ .test → ¬(st = .service ∧ d = 4) →
        Writes (.cwlLoopbackStart ag l v) ag (cwlOff l 0x28) s (glbErr 4 (agentOf ag) (cwlOff l 0x28 / 4) s)) ∧
      (1 ≤ d → d ≤ 3 → st = .test → Writes (.cwlLoopbackStart ag l v) ag (cwlOff l 0x28) s
        (setLink l { x.clearLayer with loop := ctl, loopEnd := stop, state := .test, lanes := 0, since := now s } s)) ∧
      (d = 4 → st = .test ∨ st = .service → Responds ag (cwlOff l 0x28) s → ∃ pattern : W32,
        exec (.cwlLoopbackStart ag l v) s = .next (sendOn l [mkFlit 8 0 (leBytes 4 pattern.toNat)]
          { setLink l { x with loop := ctl, loopEnd := stop } s with fresh := s.fresh + 1 }))) ∧
    (∀ errs formed,
      let d := fld x.loop 0 3
      let n := errs + fld x.loop 16 8
      (d = 0 ∨ now s < x.loopEnd → exec (.cwlLoopbackEnd l errs formed) s = .next s) ∧
      (d ≠ 0 → x.loopEnd ≤ now s → Answers (exec (.cwlLoopbackEnd l errs formed) s) fun t =>
        let z := linkOf t l
        bitOf z.loop 31 = true ∧ bitOf z.loop 30 = (decide (n ≠ 0) || !formed) ∧ fld z.loop 16 8 = min n 255 ∧
          fld z.loop 0 3 = 0 ∧ t = setLink l z s ∧
          (3 < d → z = { x with loop := z.loop }) ∧
          (d ≤ 3 → z = { train { x with state := .down } with loop := z.loop })))

/-- CTRL_FLIT, AUDIO_FLIT, MEMRD_FLIT, MEMRSP_FLIT, MEMWR_FLIT, MGMT_FLIT, LOOP_FLIT and HB_FLIT (R312, R313, R315 to R319, R324,
R331), and BUS_COMMIT (R317). A link that carries flits counts a flit as accepted, takes it by its TYPE, and acknowledges; a header of
another TYPE is no flit of the row. A CTRL frees the flits that its sequence number acknowledges, and returns credits. A routed flit for
another sheet goes on by R316, a read for an unreachable sheet is answered with status 2, and one outside HBM with status 3; a MEMWR
for this sheet stores the bytes its mask names. An AUDIO flit of the present or previous tide writes its channels, any other counts as
late with Field Book 0x0812, and the flit is forwarded either way. BUS_COMMIT waits for the boundary of its domain, or is refused. -/
def Obligations.FlitsAreTaken : Prop :=
  (∀ (s : State) (l : Nat) (h : W32) (body body2 : List Byte), l < 16 → (linkOf s l).carries = true →
    let x := linkOf s l
    let ty := fld h 28 4
    let src := fld h 10 6
    let tgt := fld h 0 6
    let here := tgt = s.glb.sheet
    let first : Flit := { header := h, payload := body }
    let second : Flit := { header := putBit h 9 true, payload := body2 }
    let got := fun (n : Nat) (y : Link) =>
      setLink l { y with rxSeq := (x.rxSeq + n) % 1024, nakOut := false, accepted := x.accepted + n } s
    let goesOn := fun (m : List Flit) (t : State) => match routeTo t tgt with
      | some k => sendOn k m t
      | none => t
    (ty = 0 → ∀ (pre post : List SentFlit) (f : SentFlit), x.unacked = pre ++ f :: post → f.seq = fld h 0 10 →
      (∀ g ∈ pre, g.seq ≠ f.seq) → exec (.ctrlFlit l h body) s = .next (acknowledge l (pump l (got 1
        { x with unacked := post, ackSince := now s, memCredit := min 64 (x.memCredit + leValue (body.take 2))
                 mgmtCredit := min 64 (x.mgmtCredit + leValue ((body.drop 2).take 2)) })))) ∧
    (ty = 4 →
      let u := got 1 { x with memBack := x.memBack + 1 }
      (¬here → (routeTo u tgt).isSome = true → exec (.memrdFlit l h body) s = .next (acknowledge l (goesOn [first] u))) ∧
      (¬here → routeTo u tgt = none → exec (.memrdFlit l h body) s =
        .next (acknowledge l (answerRead src (fld h 16 12) [] 2 u))) ∧
      (here → flitOffset s (leValue (body.take 6)) = none → exec (.memrdFlit l h body) s =
        .next (acknowledge l (answerRead src (fld h 16 12) [] 3 u))) ∧
      (here → ∀ a, flitOffset s (leValue (body.take 6)) = some a → snoopLine s (.hbm a) = none →
        exec (.memrdFlit l h body) s = .next (acknowledge l (serveLine src (fld h 16 12) a u)))) ∧
    (ty = 5 →
      let u := got 2 { x with memBack := x.memBack + 2 }
      (¬here → exec (.memrspFlit l h body body2) s = .next (acknowledge l (goesOn [first, second] u))) ∧
      (here → (∀ q ∈ s.atl.reads, q.tag ≠ fld h 16 12) → exec (.memrspFlit l h body body2) s = .next (acknowledge l u)) ∧
      (here → ∀ (q : AtlasRead) rest, s.atl.reads = q :: rest → q.tag = fld h 16 12 →
        let status := ((padBytes 56 body2).getD 8 0).toNat
        let line := padBytes 56 body ++ (padBytes 56 body2).take 8
        exec (.memrspFlit l h body body2) s =
          .next (acknowledge l (if q.agent < 544 then reedLine q status line u else engineLine q status line u)))) ∧
    (ty = 6 →
      let u := got 2 { x with memBack := x.memBack + 2 }
      (¬here → exec (.memwrFlit l h body body2) s = .next (acknowledge l (goesOn [first, second] u))) ∧
      (here → flitOffset s (leValue (body.take 6)) = none → exec (.memwrFlit l h body body2) s = .next (acknowledge l u)) ∧
      (here → ∀ a, flitOffset s (leValue (body.take 6)) = some a →
        snoopLine s (.hbm a) = none → (∀ k < 32, snoopLine s (.hbm (a + k)) = none) →
        Answers (exec (.memwrFlit l h body body2) s) fun t =>
          t.mem = (maskedWords a (leValue (((padBytes 56 body2).drop 16).take 8))
            ((padBytes 56 body).drop 8 ++ (padBytes 56 body2).take 16)).foldl putPlaced s.mem)) ∧
    (ty = 7 →
      let len := fld h 16 12
      let n := if 56 < len then 2 else 1
      let u := got n { x with mgmtBack := x.mgmtBack + n }
      (¬here → exec (.mgmtFlit l h body body2) s =
        .next (acknowledge l (goesOn (if 56 < len then [first, second] else [first]) u))) ∧
      (here → exec (.mgmtFlit l h body body2) s =
        .next (acknowledge l (send (.mgmt src ((padBytes 56 body ++ padBytes 8 body2).take len)) u)))) ∧
    (ty = 8 → ∀ same,
      (fld x.loop 0 3 = 4 → exec (.loopFlit l h body same) s = .next (acknowledge l (got 1
        { x with loop := putFld x.loop 16 8 (min 255 (fld x.loop 16 8 + (!same).toNat)), mgmtBack := x.mgmtBack + 1 }))) ∧
      (fld x.loop 0 3 ≠ 4 → exec (.loopFlit l h body same) s =
        .next (acknowledge l (sendOn l [first] (got 1 { x with mgmtBack := x.mgmtBack + 1 }))))) ∧
    (ty = 2 → ∀ frac, Answers (exec (.hbFlit l h body frac) s) fun t => t.mem = s.mem ∧ t.mer = s.mer ∧ t.reeds = s.reeds) ∧
    (ty = 3 →
      let b := fld h 16 12
      let tag := fld h 8 8
      let e := busOf s b
      let d := domOf s e.dom
      let y := busRxOf s b
      let u := got 1 x
      let present := d.active = true ∧ d.begun = true ∧ (tag = d.tide % 256 ∨ (d.tide ≠ 0 ∧ tag = (d.tide - 1) % 256))
      let forward := fun (t : State) => if e.txv = false ∧ d.active = true then
        e.links.foldl (fun t k => sendOn k [first] t) t else t
      (e.rxv = true → y.cut = false → present → exec (.audioFlit l h body) s =
        .next (acknowledge l (forward (acceptAudio b tag (fld h 0 8) e (padBytes 56 body) u)))) ∧
      (e.rxv = true → y.cut = false → ¬present → exec (.audioFlit l h body) s =
        .next (acknowledge l (forward (fbRaise 0x0812 (payload s.glb.sheet (b * 2 ^ 16 + tag))
          (irqSet 0x1D0 32 { u with atl := { u.atl with late := satInc 0xFFFF s.atl.late } }))))) ∧
      (e.rxv = false → exec (.audioFlit l h body) s = .next (acknowledge l (forward u))))) ∧
  (∀ (s : State) (l : Nat), Answers (.next (acknowledge l s)) fun t => t = { s with links := t.links, out := t.out }) ∧
  ∀ (s : State) (ag : Nat) (v : W32),
    let e : BusEntry := { w0 := s.atl.busW0.getD (busOf s s.atl.busSel).w0, w1 := v &&& 0xFDFFFFFF#32 }
    let bad := (e.txv = true ∧ e.rxv = true) ∨ 0xFFFF < e.off + 2 * e.ch - 1 ∨
      ∃ k ∈ e.links, neighbour s.atl.cfg s.glb.sheet k = none
    Writes (.busCommit ag v) ag 0x1D0078 s (if bad then glbErr 5 (agentOf ag) (0x1D0078 / 4) s else
      { s with atl := { s.atl with next := Tab.set s.atl.next s.atl.busSel (some e), busW0 := none } })

/-- ATLAS_JOIN, ATLAS_LEAVE, HB_SEND, HB_FLIT, PARTITION, SUCCESSOR_UNREACHABLE, PROMOTION, REJOIN and REJOIN_COMPLETE (R308, R310,
R322, R325 to R329). Joining takes the configured tidemaster and trains the enabled links; leaving takes every link down. A heartbeat
goes out on every link that carries flits once per 1 µs; one that arrives is kept for the echo with its link's delay. On a follower an
AGE0 of 8 µs makes a partition with holdover and Field Book 0x0810 and 0x0813; a silent successor writes 0x0817 once; the highest
partitioned successor that hears no higher one leads its part under the next EPOCH. A rejoin is refused outside a part's lead or
beyond MAXERR, else the part follows the other tidemaster and slews, and its completion ends partition and holdover. -/
def Obligations.AtlasKeepsTimeAndMaster : Prop :=
  ∀ s : State,
    let a := s.atl
    let put := fun (b : Atlas) => ({ s with atl := b } : State)
    let pay := fun (v : Nat) => payload s.glb.sheet v
    let us8 := if bitOf s.mer.cfg 0 then 7225 else 7864
    let us1 := if bitOf s.mer.cfg 0 then 903 else 983
    (∀ ag, Writes (.atlasJoin ag) ag 0x1D0008 s (if a.en then s else
      (List.range 16).foldl (fun t l => startTraining l t) (put
        { a with en := true, tmaster := decide (a.tm = s.glb.sheet), curTm := some a.tm, ageAt := [], lost := []
                 hops := hopsBetween a.cfg s.glb.sheet a.tm, hbAt := now s }))) ∧
    (∀ ag, a.en = false → Writes (.atlasLeave ag) ag 0x1D0008 s s) ∧
    (∀ ag, a.en = true → Responds ag 0x1D0008 s → Answers (exec (.atlasLeave ag) s) fun t =>
      (∀ l, l < 16 → (linkOf t l).state = .down) ∧ t.atl.en = false ∧ t.atl.tmaster = false ∧ t.atl.locked = false ∧
      t.atl.partition = false ∧ t.atl.holdover = false ∧ t.atl.slewing = false ∧ t.atl.buses = a.buses ∧
      t.mem = s.mem ∧ t.reeds = s.reeds ∧ t.mer = s.mer) ∧
    (a.en = true → a.hbAt + us1 ≤ now s → exec .hbSend s = .next ((List.range 16).foldl (fun t l =>
      if (linkOf t l).carries then sendOn l [mkFlit 2 0 (hbPayload t (linkOf t l))] t else t) (put { a with hbAt := now s }))) ∧
    (¬(a.en = true ∧ a.hbAt + us1 ≤ now s) → exec .hbSend s = .next s) ∧
    (∀ l (h : W32) body frac, l < 16 → (linkOf s l).carries = true → fld h 28 4 = 2 →
      let x := linkOf s l
      let b := padBytes 56 body
      let stamp := fun (i : Nat) => leValue ((b.drop i).take 8) * 65536 + leValue ((b.drop (i + 8)).take 2)
      let recv := now s * 65536 + frac % 65536
      let sent := stamp 6
      let round := recv - stamp 16 - (sent - stamp 26)
      Answers (exec (.hbFlit l h body frac) s) fun t =>
        let y := linkOf t l
        y.hbSent = sent ∧ y.hbTime = recv ∧
          y.delay = (if stamp 16 = 0 then x.delay else BitVec.ofNat 32 (round / 2))) ∧
    (∀ cut age, a.en = true → a.tmaster = false → a.partition = false → ageOf s 0 = some age →
      (age < us8 → exec (.partition cut) s = .next s) ∧
      (us8 ≤ age → Answers (exec (.partition cut) s) fun t =>
        t.atl = { a with partition := true, holdover := true, rx := t.atl.rx } ∧
        (∀ b, (busRxOf t b) = if b ∈ cut ∧ (busOf s b).rxv = true
          then { busRxOf s b with cut := true, subst := 0, ending := false } else busRxOf s b) ∧
        t = fbRaise 0x0813 (pay 0) (fbRaise 0x0810 (pay (a.curTm.getD s.glb.sheet)) (irqSet 0x1D0 6 (put t.atl))))) ∧
    (∀ k sheet age, k < 8 → a.en = true → a.partition = false → k ∉ a.lost → successor a k = some sheet →
      ageOf s (k + 1) = some age → us8 < age → exec (.successorUnreachable k) s =
        .next (fbRaise 0x0817 (pay sheet) (put { a with lost := insertNat k a.lost }))) ∧
    (∀ k, k < 8 → successor a k = some s.glb.sheet → (∀ j, j < k → successor a j ≠ some s.glb.sheet) →
      a.partition = true → a.tmaster = false → a.slewing = false →
      ((∀ j, j < k → ∀ sh, successor a j = some sh → ∀ age, ageOf s (j + 1) = some age → us8 ≤ age) → exec .promotion s =
        let e := (a.epoch + 1) % 2 ^ 16
        .next (fbRaise 0x0811 (pay e) (irqSet 0x1D0 8 (put
          { a with epoch := e, tmaster := true, curTm := some s.glb.sheet, hops := 0 })))) ∧
      (∀ j sh age, j < k → successor a j = some sh → ageOf s (j + 1) = some age → age < us8 → exec .promotion s = .next s)) ∧
    (∀ ag tm err, tm < 64 → Writes (.rejoin ag tm err) ag 0x1D0008 s (
      if ¬(a.tmaster = true ∧ a.partition = true) then irqSet 0x1D0 16 (put { a with result := 3 })
      else if a.maxErr < err then fbRaise 0x0816 (pay tm) (irqSet 0x1D0 16 (put { a with result := 2 }))
      else fbRaise 0x0814 (pay tm) (put
        { a with tmaster := false, curTm := some tm, slewing := true, joining := tm, locked := false
                 ageAt := a.ageAt.filter (·.1 != 0), hops := hopsBetween a.cfg s.glb.sheet tm }))) ∧
    (a.slewing = false → exec .rejoinComplete s = .next s) ∧
    (a.slewing = true → Answers (exec .rejoinComplete s) fun t =>
      t.atl.partition = false ∧ t.atl.holdover = false ∧ t.atl.slewing = false ∧ t.atl.result = 1 ∧
      (∀ b, (busRxOf t b).ending = (busRxOf s b).cut) ∧
      t = fbRaise 0x0815 (pay a.joining) (irqSet 0x1D0 16 (put { a with
        partition := false, holdover := false, slewing := false, result := 1, rx := t.atl.rx })))

/-! ### Sparing and test -/

/-- PCEIL_ESTIMATE, REED_ECC_WINDOW, MIGRATION_START, MIGRATION_COPY_COMPLETE, MIGRATION_ABANDON, MIGRATION_RETRY, MIG_GO,
MIG_GO_FORCE, HANDSHAKE_STALL, FAILOVER_RELOAD_COMPLETE and SURVEYOR_WATCHDOG (R10, R368 to R373, R375, R376, R384). Eight low
estimates or three bad windows in a row condemn a reed. A retirement takes its spare and begins its copy; across beds a planned one
that does not fit waits for the host; with no spare it is refused. A finished copy leaves the spare's memory equal to the worn reed's
and begins the shadow run, and 64 tides of it abandon the migration. A stalled reed fails over to a spare, whose contexts start from
the reloaded images at the next boundary. A silent Surveyor's number goes to an idle one. That a count starts again once it has
condemned is the model's choice (log entry 35). -/
def Obligations.WornReedsMigrate : Prop :=
  ∀ s : State,
    let p := s.spr
    let put := fun (y : Spr) => ({ s with spr := y } : State)
    let sparing := s.sec.fw = true ∧ (s.glb.state = .service ∨ s.glb.state = .test ∨ s.glb.state = .recovery)
    (∀ r pceil, r < 544 → p.failed.contains r = false →
      let n := if pceil < max 1540 (fld p.wear 20 12) then Tab.get 0 p.pceilLow r + 1 else 0
      exec (.pceilEstimate r pceil) s = .next (if 8 ≤ n
        then condemn r false (fbRaise 0x0402 (payload r (pceil % 65536)) (put { p with pceilLow := Tab.set p.pceilLow r 0 }))
        else put { p with pceilLow := Tab.set p.pceilLow r n })) ∧
    (∀ r ce, r < 544 → p.failed.contains r = false →
      let n := if fld p.wear 14 6 ≤ ce then Tab.get 0 p.ceHigh r + 1 else 0
      exec (.reedEccWindow r ce) s = .next (if 3 ≤ n then condemn r false (put { p with ceHigh := Tab.set p.ceHigh r 0 })
        else put { p with ceHigh := Tab.set p.ceHigh r n })) ∧
    (∀ q rest worn, sparing → p.phase = .idle ∨ p.phase = .hostWait → p.queue = q :: rest → physOf s q.lreed = some worn →
      let u := put { p with queue := rest }
      let start := fun (sp : Nat) (t : State) => fbRaise 0x0501 (sparePayload worn sp q.lreed q.urgent 0)
        { t with spr := { t.spr with phase := .copy, now := q, spare := sp, worn := worn, tides := 0 } }
      let note := fun (sp : Nat) (t : State) =>
        fbRaise 0x0504 (sparePayload worn sp q.lreed q.urgent (Tab.get 0xFFFF p.xcost q.lreed)) t
      (spareFor u worn = none → exec .migrationStart s = .next (refuseRetirement q u)) ∧
      (∀ sp, spareFor u worn = some sp →
        sp ∈ List.range 544 ∧ idleSpare u sp = true ∧
        exec .migrationStart s = .next (
          if sp / 17 = worn / 17 then start sp u
          else if q.urgent = true then start sp (note sp u)
          else if q.force = true ∨ crossFits s q.lreed worn = true then start sp u
          else irqSet 6 2 (note sp { u with spr := { u.spr with phase := .hostWait, now := q, spare := sp, worn := worn } })))) ∧
    (p.phase = .copy → p.worn < 544 → p.spare < 544 → p.worn ≠ p.spare → Memory.wf s.mem = true →
      Answers (exec .migrationCopyComplete s) fun t =>
        t.spr = { p with phase := .shadow, tides := 0 } ∧ Memory.wf t.mem = true ∧
        (∀ b, b < 0x80000 → memGet t.mem (2 * reedBase p.spare + b) = memGet s.mem (2 * reedBase p.worn + b)) ∧
        (∀ b, b < 2 * reedBase p.spare ∨ 2 * reedBase p.spare + 0x80000 ≤ b → memGet t.mem b = memGet s.mem b) ∧
        t = { s with spr := t.spr, mem := t.mem, bad := t.bad }) ∧
    (p.phase = .shadow → 64 ≤ p.tides → p.now.urgent = false → Answers (exec .migrationAbandon s) fun t =>
      t.spr = { p with phase := .idle, tides := 0
                       retries := p.retries ++ [{ p.now with notBefore := now s + fld p.wear 0 8 * 2 ^ 20 }] } ∧
      t.binding = s.binding ∧ t.reeds = s.reeds ∧ t.mem = s.mem) ∧
    (∀ q rest, p.retries = q :: rest → q.notBefore ≤ now s →
      exec .migrationRetry s = .next (put { p with retries := rest, queue := queueRetirement q p.queue })) ∧
    (∀ ag l, l < 512 →
      let u := put { p with migSel := l }
      Writes (.migGo ag l) ag 0x6048 s (if (physOf s l).isSome then retireReed l false false u else u) ∧
      Writes (.migGoForce ag l) ag 0x6048 s (if (physOf s l).isSome then retireReed l false true u else u)) ∧
    (∀ r l, r < 544 → logicalOf s r = some l → sparing → (reedOf s r).running.isSome = true → (reedOf s r).wait = none →
      exec (.handshakeStall r) s = .next (hardFailover l r s)) ∧
    (∀ l r run, p.reload.lookup l = some run → physOf s l = some r →
      let u := reloadImages l r s
      let x := closeTides (reedOf u r)
      let v := setReed r { x with page := { x.page with runOn := run } } u
      exec (.failoverReloadComplete l) s = .next (irqSet 6 1
        { v with spr := { v.spr with reload := v.spr.reload.filter fun e => e.1 != l } })) ∧
    (∀ n, n < 6 → s.sec.fw = true →
      let gone := insertNat (p.survOf n) p.survFailed
      (∀ k rest, p.survIdle = k :: rest → exec (.surveyorWatchdog n) s = .next (fbRaise 0x0507 (BitVec.ofNat 64 (n + k * 16))
        (dropClaims n (put { p with survMap := Tab.set p.survMap n k, survFailed := gone })))) ∧
      (p.survIdle = [] → exec (.surveyorWatchdog n) s = .next (trigger (.fault 1) (put { p with survFailed := gone }))))

/-- TEST_PROC_RUN, TEST_PROC_END, SPARE_BIST_PERIODIC, HBM_LOOPBACK_START and HBM_LOOPBACK_END (R48, R380, R382, R383, R385, R421). A
procedure that may run on its target runs, any other is refused; its end records the result, leaves a tested reed or pool at 0 and
retires a spare that fails. Firmware tests every idle spare. An HBM loop-back starts in Test alone with its results cleared, and ends
after its duration with DEPTH 0 and DONE; depth 3 leaves its pseudo-channel at 0. -/
def Obligations.TestsRunAndSparesServe : Prop :=
  ∀ s : State,
    let x := s.tst
    let record := fun (proc : Nat) (fail : Bool) (first : Nat) (t : State) => fireSource 6
      (fbRaise 0x0E01 (BitVec.ofNat 64 (proc + fail.toNat * 256 + first % 65536 * 65536)) t)
    (∀ (ag : Nat) (v : W32),
      let y := { x with proc := fld v 16 8, target := fld v 0 10 }
      Writes (.testProcRun ag v) ag 0x7040 s (if procAllowed s y.proc y.target = true
        then { s with tst := { y with running := some (y.proc, y.target), done := false, fail := false, first := 0 } }
        else glbErr 5 (agentOf ag) (0x7040 / 4) { s with tst := { y with refused := true } })) ∧
    (∀ proc target (first : Option Nat), x.running = some (proc, target) →
      let fail := first.isSome
      let u := { s with tst := { x with running := none, done := true, fail := fail, first := first.getD 0 % 65536 } }
      let lo := if proc = 1 then reedBase target else poolBase target
      let size := if proc = 1 then 0x40000 else 0x200000
      Answers (exec (.testProcEnd first) s) fun t => t.tst = u.tst ∧
        (proc = 1 ∨ proc = 2 → ∀ b, memGet t.mem b =
          if 2 * lo ≤ b ∧ b < 2 * (lo + size) then 0 else memGet s.mem b) ∧
        (proc = 3 ∨ proc = 5 → t.mem = s.mem) ∧
        (proc = 3 → t = record 3 fail (first.getD 0) (if fail then
          { u with spr := { s.spr with survFailed := insertNat target s.spr.survFailed } } else u)) ∧
        (proc = 1 → fail = false → t.spr = s.spr) ∧
        (proc = 1 → fail = true → idleSpare s target = true → t.spr.failed = insertNat target s.spr.failed)) ∧
    (∀ reeds engineFails, s.sec.fw = true → s.glb.target = none → s.glb.state = .service ∨ s.glb.state = .test →
      let idle := (idleSpares s).filter fun r => !((s.spr.phase == .copy || s.spr.phase == .shadow) && s.spr.spare == r)
      let u := idle.foldl (fun t r => procEnd 1 r (reeds.contains r) 0 t) s
      exec (.spareBistPeriodic reeds engineFails) s = .next (if u.spr.engineIdle then procEnd 4 32 engineFails 0 u else u)) ∧
    (∀ (ag p : Nat) (v : W32), p < 64 →
      let y := hbmPageOf s p
      let off := 0x200028 + 0x1000 * p
      Writes (.hbmLoopbackStart ag p v) ag off s (
        if fld v 0 2 = 0 then setHbmPage p { y with loop := (y.loop &&& 0xC0FF0000#32) ||| (v &&& 0xFF00#32) } s
        else if s.glb.state ≠ .test then glbErr 4 (agentOf ag) (off / 4) s
        else setHbmPage p { y with loop := v &&& 0xFF03#32, loopEnd := now s + max 1 (fld v 8 8) * 2 ^ 20 } s)) ∧
    (∀ p errs formed, p < 64 →
      let y := hbmPageOf s p
      let d := fld y.loop 0 2
      d ≠ 0 → d = 3 ∨ y.loopEnd ≤ now s → Answers (exec (.hbmLoopbackEnd p errs formed) s) fun t =>
        let v := (hbmPageOf t p).loop
        fld v 0 2 = 0 ∧ bitOf v 31 = true ∧ (bitOf v 30 = true ↔ 0 < errs ∨ formed = false) ∧ fld v 16 8 = min errs 255 ∧
        (∀ b, memGet t.mem b = if d = 3 ∧ 2 * hbmBase ≤ b ∧ hbmPc (b / 2 - hbmBase) = p then 0 else memGet s.mem b) ∧
        t = { s with mem := t.mem, bad := t.bad, hbm := { s.hbm with pages := Tab.set s.hbm.pages p { y with loop := v } } })

/-! ### The machine -/

/-- A step takes the command at the front of the queue and runs it with the queue's rest; with an empty queue the block idles for
one tick of the Meridian, in which nothing but the tick counter and the Field Book's clocks moves, and in Off nothing at all (that
idling is one tick is the model's choice, log entry 3; the Meridian runs in every state except Off, R6). -/
def Obligations.StepTakesTheFrontCommand : Prop :=
  (∀ (s : State) (c : Instr) (rest : List Instr), s.pending = c :: rest → step s = exec c { s with pending := rest }) ∧
  ∀ s : State, s.pending = [] →
    (s.glb.state = .off → step s = .next s) ∧
    (s.glb.state ≠ .off → Answers (step s) fun t =>
      t.mer.ticks = s.mer.ticks + 1 ∧ t = { s with mer := { s.mer with ticks := s.mer.ticks + 1 }, fbk := t.fbk } ∧
      t.fbk.queue = s.fbk.queue ∧ t.fbk.main = s.fbk.main ∧ t.fbk.next = s.fbk.next)

/-- Every row of the command table runs: a command that names existing units, spells its row (R64, R200, R312) and keeps
within the memory the device has (R186) is answered with a next state in EVERY state of the block (whatever state the device is in, whatever a context or a
port holds), and every other command is turned away by name, without effect. -/
def Obligations.EveryCommandThatExistsRuns : Prop :=
  ∀ (c : Instr) (s : State),
    (c.wellFormed = true → Safe (exec c s)) ∧
    (c.wellFormed = false → exec c s = .refused .noSuchUnit ∨ exec c s = .refused .illFormed ∨ exec c s = .fault .noSuchAddress)

/-- What every step keeps, from every state: the memory's canonical form (addresses rising, no byte listed that equals what an
unlisted address reads as: the model's representation, log entry 4), and that only commands that exist wait; and a step takes exactly
one command from the queue and adds none. -/
def Obligations.StepKeepsMemoryAndQueue : Prop :=
  ∀ s t : State, step s = .next t →
    (Memory.wf s.mem = true → Memory.wf t.mem = true) ∧ (QueueFits s → QueueFits t) ∧ t.pending = s.pending.tail

/-- The state right after power-good: Start-up (R335), tick 0 (R6), the boot-attempt counter at 1 (R335), the Field Book's 0x0101 on
its way (R335), the reset values that the spec gives, and nothing waits. The reset value of a register for which the spec gives none
is the model's (log entry 1), and so is memory that reads 0 until something writes it (log entry 4). -/
def Obligations.ResetIsSound : Prop :=
  let s := State.reset
  Memory.wf s.mem = true ∧ s.pending = [] ∧ QueueFits s ∧ s.glb.state = .startup ∧ s.glb.target = none ∧ now s = 0 ∧
    s.sec.count = 1 ∧ s.fbk.queue.map (fun q => (q.code, q.payload)) = [(0x0101, 1)] ∧ s.fbk.next = 0 ∧
    (∀ b, memGet s.mem b = 0) ∧ (∀ d, (domOf s d).active = false) ∧
    (∀ r c, (ctxAt s r c).run.level = 0 ∧ (ctxAt s r c).sched.phase = .idle ∧ (ctxAt s r c).page.halted = false) ∧
    (∀ r, (reedOf s r).running = none ∧ (reedOf s r).wait = none) ∧ (∀ l, (linkOf s l).state = .down) ∧
    s.cxl.link = .down ∧ s.cxl.dstate = .d0 ∧ s.atl.en = false ∧ s.binding = []

/-! ### Rules stated whole -/

/-- R97: for ASHL, ASHR and ALSR the count runs from 0 to 127; from 72 on ASHL gives 0 with a guard overflow in the direction of An's
sign if An was non-zero, ALSR gives 0, and ASHR gives 0 or −1 (all 72 bits set) by the sign of An; a count of 0 leaves An and never
overflows. R100: the bit that a shift of the S slot by c ≥ 1 shifts out last, read as bit 31 (LSL) or bit 0 (LSR, ASR) of the shift
by c − 1, is the bit of the table. -/
def Obligations.ShiftsFollowTheirCounts : Prop :=
  (∀ (a : W72) (m : W64) (sa sb : W32) (n : Nat), n ≤ 127 →
    (72 ≤ n →
      accResult .ashl a m sa sb n =
        { value := 0, overflow := if a = 0 then none else some (decide (a.toInt < 0)) } ∧
      accResult .alsr a m sa sb n = { value := 0, overflow := none } ∧
      accResult .ashr a m sa sb n = { value := if 0 ≤ a.toInt then 0 else BitVec.allOnes 72, overflow := none }) ∧
    (n = 0 → ∀ o, o = AccOp.ashl ∨ o = AccOp.ashr ∨ o = AccOp.alsr →
      accResult o a m sa sb n = { value := a, overflow := none })) ∧
  ∀ (a : W32) (c : Nat), 1 ≤ c →
    lastShiftedOut .lsl a c = (if c ≤ 32 then a.getLsbD (32 - c) else false) ∧
    lastShiftedOut .lsr a c = (if c ≤ 32 then a.getLsbD (c - 1) else false) ∧
    lastShiftedOut .asr a c = (if c ≤ 32 then a.getLsbD (c - 1) else a.getLsbD 31)

/-- R345: a write to GLB.BOOT_ACK in Service clears the boot-attempt counter and SEC.BOOT_CFG.FORCEHOST and writes Field Book
0x0107; in any other state the write is ignored and logged in GLB.ERR (in Off nothing takes a write). Nothing else changes but that
the start counts as acknowledged. -/
def Obligations.BootAckClearsTheCounter : Prop :=
  ∀ (s : State) (ag : Nat),
    (s.glb.state = .service → Answers (exec (.bootAck ag) s) fun t =>
      t.sec.count = 0 ∧ t.sec.forceHost = false ∧ t.fbk = (fbRaise 0x0107 0 s).fbk ∧
      t = { s with sec := { s.sec with count := 0, forceHost := false, bootAck := true }, fbk := t.fbk }) ∧
    (s.glb.state ≠ .service → s.glb.state ≠ .off → Answers (exec (.bootAck ag) s) fun t =>
      t = glbErr 4 (agentOf ag) (0x104C / 4) s ∧ t.sec = s.sec ∧ t.mem = s.mem ∧ t.glb.errV = true ∧
      t.glb.errCnt = (if s.glb.errCnt < 0xFFFF then s.glb.errCnt + 1 else s.glb.errCnt)) ∧
    (s.glb.state = .off → exec (.bootAck ag) s = .next s)
end

