-- ==== Sys2Proof/Laws/State.lean ====
section
/-! SUPPORT. Sys2Proof/Laws/State.lean: what each named update of the state leaves alone, one lemma for each field, and
tables read after they are written. -/

namespace Sys2Proof.Machine

/-! ### Tables -/

/-- An entry just set is the one read. -/
@[simp] theorem Tab.get_set_same {α : Type} (d : α) (t : Tab α) (k : Nat) (v : α) : Tab.get d (Tab.set t k v) k = v := by
  induction t with
  | nil => simp [Tab.set, Tab.get]
  | cons e t ih =>
    simp only [Tab.set]
    split
    · simp [Tab.get]
    · split
      · simp [Tab.get]
      · rename_i h1 h2
        simp [Tab.get, ih, Ne.symm h2]

/-- The other entries are read as before. -/
theorem Tab.get_set_other {α : Type} (d : α) (t : Tab α) (k j : Nat) (v : α) (h : j ≠ k) :
    Tab.get d (Tab.set t k v) j = Tab.get d t j := by
  induction t with
  | nil => simp [Tab.set, Tab.get, Ne.symm h]
  | cons e t ih =>
    simp only [Tab.set]
    split
    · simp [Tab.get, Ne.symm h]
    · split
      · rename_i h2
        subst h2
        simp [Tab.get, Ne.symm h]
      · simp [Tab.get, ih]

/-- Of two writes of one entry the later stands. -/
@[simp] theorem Tab.set_set {α : Type} (t : Tab α) (k : Nat) (u v : α) : Tab.set (Tab.set t k u) k v = Tab.set t k v := by
  induction t with
  | nil => simp [Tab.set]
  | cons e t ih =>
    simp only [Tab.set]
    split
    · simp [Tab.set]
    · split
      · simp [Tab.set]
      · rename_i h1 h2
        simp [Tab.set, h1, h2, ih]

/-- A read after a write, both cases. -/
theorem Tab.get_set {α : Type} (d : α) (t : Tab α) (k j : Nat) (v : α) :
    Tab.get d (Tab.set t k v) j = if j = k then v else Tab.get d t j := by
  by_cases h : j = k
  · simp [h]
  · simp [h, Tab.get_set_other]


/-! ### setReed -/

/-- `setReed` leaves `pending` alone. -/
@[simp] theorem setReed_pending (r : Nat) (x : Reed) (s : State) : (setReed r x s).pending = s.pending := rfl
/-- `setReed` leaves `out` alone. -/
@[simp] theorem setReed_out (r : Nat) (x : Reed) (s : State) : (setReed r x s).out = s.out := rfl
/-- `setReed` leaves `fresh` alone. -/
@[simp] theorem setReed_fresh (r : Nat) (x : Reed) (s : State) : (setReed r x s).fresh = s.fresh := rfl
/-- `setReed` leaves `mem` alone. -/
@[simp] theorem setReed_mem (r : Nat) (x : Reed) (s : State) : (setReed r x s).mem = s.mem := rfl
/-- `setReed` leaves `bad` alone. -/
@[simp] theorem setReed_bad (r : Nat) (x : Reed) (s : State) : (setReed r x s).bad = s.bad := rfl
/-- `setReed` leaves `hdr` alone. -/
@[simp] theorem setReed_hdr (r : Nat) (x : Reed) (s : State) : (setReed r x s).hdr = s.hdr := rfl
/-- `setReed` leaves `glb` alone. -/
@[simp] theorem setReed_glb (r : Nat) (x : Reed) (s : State) : (setReed r x s).glb = s.glb := rfl
/-- `setReed` leaves `pwr` alone. -/
@[simp] theorem setReed_pwr (r : Nat) (x : Reed) (s : State) : (setReed r x s).pwr = s.pwr := rfl
/-- `setReed` leaves `mer` alone. -/
@[simp] theorem setReed_mer (r : Nat) (x : Reed) (s : State) : (setReed r x s).mer = s.mer := rfl
/-- `setReed` leaves `fbk` alone. -/
@[simp] theorem setReed_fbk (r : Nat) (x : Reed) (s : State) : (setReed r x s).fbk = s.fbk := rfl
/-- `setReed` leaves `binding` alone. -/
@[simp] theorem setReed_binding (r : Nat) (x : Reed) (s : State) : (setReed r x s).binding = s.binding := rfl
/-- `setReed` leaves `beds` alone. -/
@[simp] theorem setReed_beds (r : Nat) (x : Reed) (s : State) : (setReed r x s).beds = s.beds := rfl
/-- `setReed` leaves `hbm` alone. -/
@[simp] theorem setReed_hbm (r : Nat) (x : Reed) (s : State) : (setReed r x s).hbm = s.hbm := rfl
/-- `setReed` leaves `srcs` alone. -/
@[simp] theorem setReed_srcs (r : Nat) (x : Reed) (s : State) : (setReed r x s).srcs = s.srcs := rfl
/-- `setReed` leaves `qmg` alone. -/
@[simp] theorem setReed_qmg (r : Nat) (x : Reed) (s : State) : (setReed r x s).qmg = s.qmg := rfl
/-- `setReed` leaves `evr` alone. -/
@[simp] theorem setReed_evr (r : Nat) (x : Reed) (s : State) : (setReed r x s).evr = s.evr := rfl
/-- `setReed` leaves `cxl` alone. -/
@[simp] theorem setReed_cxl (r : Nat) (x : Reed) (s : State) : (setReed r x s).cxl = s.cxl := rfl
/-- `setReed` leaves `links` alone. -/
@[simp] theorem setReed_links (r : Nat) (x : Reed) (s : State) : (setReed r x s).links = s.links := rfl
/-- `setReed` leaves `atl` alone. -/
@[simp] theorem setReed_atl (r : Nat) (x : Reed) (s : State) : (setReed r x s).atl = s.atl := rfl
/-- `setReed` leaves `slc` alone. -/
@[simp] theorem setReed_slc (r : Nat) (x : Reed) (s : State) : (setReed r x s).slc = s.slc := rfl
/-- `setReed` leaves `asp` alone. -/
@[simp] theorem setReed_asp (r : Nat) (x : Reed) (s : State) : (setReed r x s).asp = s.asp := rfl
/-- `setReed` leaves `ssp` alone. -/
@[simp] theorem setReed_ssp (r : Nat) (x : Reed) (s : State) : (setReed r x s).ssp = s.ssp := rfl
/-- `setReed` leaves `tcu` alone. -/
@[simp] theorem setReed_tcu (r : Nat) (x : Reed) (s : State) : (setReed r x s).tcu = s.tcu := rfl
/-- `setReed` leaves `sec` alone. -/
@[simp] theorem setReed_sec (r : Nat) (x : Reed) (s : State) : (setReed r x s).sec = s.sec := rfl
/-- `setReed` leaves `spr` alone. -/
@[simp] theorem setReed_spr (r : Nat) (x : Reed) (s : State) : (setReed r x s).spr = s.spr := rfl
/-- `setReed` leaves `tst` alone. -/
@[simp] theorem setReed_tst (r : Nat) (x : Reed) (s : State) : (setReed r x s).tst = s.tst := rfl

/-! ### setBed -/

/-- `setBed` leaves `pending` alone. -/
@[simp] theorem setBed_pending (b : Nat) (x : Bed) (s : State) : (setBed b x s).pending = s.pending := rfl
/-- `setBed` leaves `out` alone. -/
@[simp] theorem setBed_out (b : Nat) (x : Bed) (s : State) : (setBed b x s).out = s.out := rfl
/-- `setBed` leaves `fresh` alone. -/
@[simp] theorem setBed_fresh (b : Nat) (x : Bed) (s : State) : (setBed b x s).fresh = s.fresh := rfl
/-- `setBed` leaves `mem` alone. -/
@[simp] theorem setBed_mem (b : Nat) (x : Bed) (s : State) : (setBed b x s).mem = s.mem := rfl
/-- `setBed` leaves `bad` alone. -/
@[simp] theorem setBed_bad (b : Nat) (x : Bed) (s : State) : (setBed b x s).bad = s.bad := rfl
/-- `setBed` leaves `hdr` alone. -/
@[simp] theorem setBed_hdr (b : Nat) (x : Bed) (s : State) : (setBed b x s).hdr = s.hdr := rfl
/-- `setBed` leaves `glb` alone. -/
@[simp] theorem setBed_glb (b : Nat) (x : Bed) (s : State) : (setBed b x s).glb = s.glb := rfl
/-- `setBed` leaves `pwr` alone. -/
@[simp] theorem setBed_pwr (b : Nat) (x : Bed) (s : State) : (setBed b x s).pwr = s.pwr := rfl
/-- `setBed` leaves `mer` alone. -/
@[simp] theorem setBed_mer (b : Nat) (x : Bed) (s : State) : (setBed b x s).mer = s.mer := rfl
/-- `setBed` leaves `fbk` alone. -/
@[simp] theorem setBed_fbk (b : Nat) (x : Bed) (s : State) : (setBed b x s).fbk = s.fbk := rfl
/-- `setBed` leaves `reeds` alone. -/
@[simp] theorem setBed_reeds (b : Nat) (x : Bed) (s : State) : (setBed b x s).reeds = s.reeds := rfl
/-- `setBed` leaves `binding` alone. -/
@[simp] theorem setBed_binding (b : Nat) (x : Bed) (s : State) : (setBed b x s).binding = s.binding := rfl
/-- `setBed` leaves `hbm` alone. -/
@[simp] theorem setBed_hbm (b : Nat) (x : Bed) (s : State) : (setBed b x s).hbm = s.hbm := rfl
/-- `setBed` leaves `srcs` alone. -/
@[simp] theorem setBed_srcs (b : Nat) (x : Bed) (s : State) : (setBed b x s).srcs = s.srcs := rfl
/-- `setBed` leaves `qmg` alone. -/
@[simp] theorem setBed_qmg (b : Nat) (x : Bed) (s : State) : (setBed b x s).qmg = s.qmg := rfl
/-- `setBed` leaves `evr` alone. -/
@[simp] theorem setBed_evr (b : Nat) (x : Bed) (s : State) : (setBed b x s).evr = s.evr := rfl
/-- `setBed` leaves `cxl` alone. -/
@[simp] theorem setBed_cxl (b : Nat) (x : Bed) (s : State) : (setBed b x s).cxl = s.cxl := rfl
/-- `setBed` leaves `links` alone. -/
@[simp] theorem setBed_links (b : Nat) (x : Bed) (s : State) : (setBed b x s).links = s.links := rfl
/-- `setBed` leaves `atl` alone. -/
@[simp] theorem setBed_atl (b : Nat) (x : Bed) (s : State) : (setBed b x s).atl = s.atl := rfl
/-- `setBed` leaves `slc` alone. -/
@[simp] theorem setBed_slc (b : Nat) (x : Bed) (s : State) : (setBed b x s).slc = s.slc := rfl
/-- `setBed` leaves `asp` alone. -/
@[simp] theorem setBed_asp (b : Nat) (x : Bed) (s : State) : (setBed b x s).asp = s.asp := rfl
/-- `setBed` leaves `ssp` alone. -/
@[simp] theorem setBed_ssp (b : Nat) (x : Bed) (s : State) : (setBed b x s).ssp = s.ssp := rfl
/-- `setBed` leaves `tcu` alone. -/
@[simp] theorem setBed_tcu (b : Nat) (x : Bed) (s : State) : (setBed b x s).tcu = s.tcu := rfl
/-- `setBed` leaves `sec` alone. -/
@[simp] theorem setBed_sec (b : Nat) (x : Bed) (s : State) : (setBed b x s).sec = s.sec := rfl
/-- `setBed` leaves `spr` alone. -/
@[simp] theorem setBed_spr (b : Nat) (x : Bed) (s : State) : (setBed b x s).spr = s.spr := rfl
/-- `setBed` leaves `tst` alone. -/
@[simp] theorem setBed_tst (b : Nat) (x : Bed) (s : State) : (setBed b x s).tst = s.tst := rfl

/-! ### setDom -/

/-- `setDom` leaves `pending` alone. -/
@[simp] theorem setDom_pending (d : Nat) (x : Domain) (s : State) : (setDom d x s).pending = s.pending := rfl
/-- `setDom` leaves `out` alone. -/
@[simp] theorem setDom_out (d : Nat) (x : Domain) (s : State) : (setDom d x s).out = s.out := rfl
/-- `setDom` leaves `fresh` alone. -/
@[simp] theorem setDom_fresh (d : Nat) (x : Domain) (s : State) : (setDom d x s).fresh = s.fresh := rfl
/-- `setDom` leaves `mem` alone. -/
@[simp] theorem setDom_mem (d : Nat) (x : Domain) (s : State) : (setDom d x s).mem = s.mem := rfl
/-- `setDom` leaves `bad` alone. -/
@[simp] theorem setDom_bad (d : Nat) (x : Domain) (s : State) : (setDom d x s).bad = s.bad := rfl
/-- `setDom` leaves `hdr` alone. -/
@[simp] theorem setDom_hdr (d : Nat) (x : Domain) (s : State) : (setDom d x s).hdr = s.hdr := rfl
/-- `setDom` leaves `glb` alone. -/
@[simp] theorem setDom_glb (d : Nat) (x : Domain) (s : State) : (setDom d x s).glb = s.glb := rfl
/-- `setDom` leaves `pwr` alone. -/
@[simp] theorem setDom_pwr (d : Nat) (x : Domain) (s : State) : (setDom d x s).pwr = s.pwr := rfl
/-- `setDom` leaves `fbk` alone. -/
@[simp] theorem setDom_fbk (d : Nat) (x : Domain) (s : State) : (setDom d x s).fbk = s.fbk := rfl
/-- `setDom` leaves `reeds` alone. -/
@[simp] theorem setDom_reeds (d : Nat) (x : Domain) (s : State) : (setDom d x s).reeds = s.reeds := rfl
/-- `setDom` leaves `binding` alone. -/
@[simp] theorem setDom_binding (d : Nat) (x : Domain) (s : State) : (setDom d x s).binding = s.binding := rfl
/-- `setDom` leaves `beds` alone. -/
@[simp] theorem setDom_beds (d : Nat) (x : Domain) (s : State) : (setDom d x s).beds = s.beds := rfl
/-- `setDom` leaves `hbm` alone. -/
@[simp] theorem setDom_hbm (d : Nat) (x : Domain) (s : State) : (setDom d x s).hbm = s.hbm := rfl
/-- `setDom` leaves `srcs` alone. -/
@[simp] theorem setDom_srcs (d : Nat) (x : Domain) (s : State) : (setDom d x s).srcs = s.srcs := rfl
/-- `setDom` leaves `qmg` alone. -/
@[simp] theorem setDom_qmg (d : Nat) (x : Domain) (s : State) : (setDom d x s).qmg = s.qmg := rfl
/-- `setDom` leaves `evr` alone. -/
@[simp] theorem setDom_evr (d : Nat) (x : Domain) (s : State) : (setDom d x s).evr = s.evr := rfl
/-- `setDom` leaves `cxl` alone. -/
@[simp] theorem setDom_cxl (d : Nat) (x : Domain) (s : State) : (setDom d x s).cxl = s.cxl := rfl
/-- `setDom` leaves `links` alone. -/
@[simp] theorem setDom_links (d : Nat) (x : Domain) (s : State) : (setDom d x s).links = s.links := rfl
/-- `setDom` leaves `atl` alone. -/
@[simp] theorem setDom_atl (d : Nat) (x : Domain) (s : State) : (setDom d x s).atl = s.atl := rfl
/-- `setDom` leaves `slc` alone. -/
@[simp] theorem setDom_slc (d : Nat) (x : Domain) (s : State) : (setDom d x s).slc = s.slc := rfl
/-- `setDom` leaves `asp` alone. -/
@[simp] theorem setDom_asp (d : Nat) (x : Domain) (s : State) : (setDom d x s).asp = s.asp := rfl
/-- `setDom` leaves `ssp` alone. -/
@[simp] theorem setDom_ssp (d : Nat) (x : Domain) (s : State) : (setDom d x s).ssp = s.ssp := rfl
/-- `setDom` leaves `tcu` alone. -/
@[simp] theorem setDom_tcu (d : Nat) (x : Domain) (s : State) : (setDom d x s).tcu = s.tcu := rfl
/-- `setDom` leaves `sec` alone. -/
@[simp] theorem setDom_sec (d : Nat) (x : Domain) (s : State) : (setDom d x s).sec = s.sec := rfl
/-- `setDom` leaves `spr` alone. -/
@[simp] theorem setDom_spr (d : Nat) (x : Domain) (s : State) : (setDom d x s).spr = s.spr := rfl
/-- `setDom` leaves `tst` alone. -/
@[simp] theorem setDom_tst (d : Nat) (x : Domain) (s : State) : (setDom d x s).tst = s.tst := rfl

/-! ### setHbmPage -/

/-- `setHbmPage` leaves `pending` alone. -/
@[simp] theorem setHbmPage_pending (p : Nat) (x : HbmPage) (s : State) : (setHbmPage p x s).pending = s.pending := rfl
/-- `setHbmPage` leaves `out` alone. -/
@[simp] theorem setHbmPage_out (p : Nat) (x : HbmPage) (s : State) : (setHbmPage p x s).out = s.out := rfl
/-- `setHbmPage` leaves `fresh` alone. -/
@[simp] theorem setHbmPage_fresh (p : Nat) (x : HbmPage) (s : State) : (setHbmPage p x s).fresh = s.fresh := rfl
/-- `setHbmPage` leaves `mem` alone. -/
@[simp] theorem setHbmPage_mem (p : Nat) (x : HbmPage) (s : State) : (setHbmPage p x s).mem = s.mem := rfl
/-- `setHbmPage` leaves `bad` alone. -/
@[simp] theorem setHbmPage_bad (p : Nat) (x : HbmPage) (s : State) : (setHbmPage p x s).bad = s.bad := rfl
/-- `setHbmPage` leaves `hdr` alone. -/
@[simp] theorem setHbmPage_hdr (p : Nat) (x : HbmPage) (s : State) : (setHbmPage p x s).hdr = s.hdr := rfl
/-- `setHbmPage` leaves `glb` alone. -/
@[simp] theorem setHbmPage_glb (p : Nat) (x : HbmPage) (s : State) : (setHbmPage p x s).glb = s.glb := rfl
/-- `setHbmPage` leaves `pwr` alone. -/
@[simp] theorem setHbmPage_pwr (p : Nat) (x : HbmPage) (s : State) : (setHbmPage p x s).pwr = s.pwr := rfl
/-- `setHbmPage` leaves `mer` alone. -/
@[simp] theorem setHbmPage_mer (p : Nat) (x : HbmPage) (s : State) : (setHbmPage p x s).mer = s.mer := rfl
/-- `setHbmPage` leaves `fbk` alone. -/
@[simp] theorem setHbmPage_fbk (p : Nat) (x : HbmPage) (s : State) : (setHbmPage p x s).fbk = s.fbk := rfl
/-- `setHbmPage` leaves `reeds` alone. -/
@[simp] theorem setHbmPage_reeds (p : Nat) (x : HbmPage) (s : State) : (setHbmPage p x s).reeds = s.reeds := rfl
/-- `setHbmPage` leaves `binding` alone. -/
@[simp] theorem setHbmPage_binding (p : Nat) (x : HbmPage) (s : State) : (setHbmPage p x s).binding = s.binding := rfl
/-- `setHbmPage` leaves `beds` alone. -/
@[simp] theorem setHbmPage_beds (p : Nat) (x : HbmPage) (s : State) : (setHbmPage p x s).beds = s.beds := rfl
/-- `setHbmPage` leaves `srcs` alone. -/
@[simp] theorem setHbmPage_srcs (p : Nat) (x : HbmPage) (s : State) : (setHbmPage p x s).srcs = s.srcs := rfl
/-- `setHbmPage` leaves `qmg` alone. -/
@[simp] theorem setHbmPage_qmg (p : Nat) (x : HbmPage) (s : State) : (setHbmPage p x s).qmg = s.qmg := rfl
/-- `setHbmPage` leaves `evr` alone. -/
@[simp] theorem setHbmPage_evr (p : Nat) (x : HbmPage) (s : State) : (setHbmPage p x s).evr = s.evr := rfl
/-- `setHbmPage` leaves `cxl` alone. -/
@[simp] theorem setHbmPage_cxl (p : Nat) (x : HbmPage) (s : State) : (setHbmPage p x s).cxl = s.cxl := rfl
/-- `setHbmPage` leaves `links` alone. -/
@[simp] theorem setHbmPage_links (p : Nat) (x : HbmPage) (s : State) : (setHbmPage p x s).links = s.links := rfl
/-- `setHbmPage` leaves `atl` alone. -/
@[simp] theorem setHbmPage_atl (p : Nat) (x : HbmPage) (s : State) : (setHbmPage p x s).atl = s.atl := rfl
/-- `setHbmPage` leaves `slc` alone. -/
@[simp] theorem setHbmPage_slc (p : Nat) (x : HbmPage) (s : State) : (setHbmPage p x s).slc = s.slc := rfl
/-- `setHbmPage` leaves `asp` alone. -/
@[simp] theorem setHbmPage_asp (p : Nat) (x : HbmPage) (s : State) : (setHbmPage p x s).asp = s.asp := rfl
/-- `setHbmPage` leaves `ssp` alone. -/
@[simp] theorem setHbmPage_ssp (p : Nat) (x : HbmPage) (s : State) : (setHbmPage p x s).ssp = s.ssp := rfl
/-- `setHbmPage` leaves `tcu` alone. -/
@[simp] theorem setHbmPage_tcu (p : Nat) (x : HbmPage) (s : State) : (setHbmPage p x s).tcu = s.tcu := rfl
/-- `setHbmPage` leaves `sec` alone. -/
@[simp] theorem setHbmPage_sec (p : Nat) (x : HbmPage) (s : State) : (setHbmPage p x s).sec = s.sec := rfl
/-- `setHbmPage` leaves `spr` alone. -/
@[simp] theorem setHbmPage_spr (p : Nat) (x : HbmPage) (s : State) : (setHbmPage p x s).spr = s.spr := rfl
/-- `setHbmPage` leaves `tst` alone. -/
@[simp] theorem setHbmPage_tst (p : Nat) (x : HbmPage) (s : State) : (setHbmPage p x s).tst = s.tst := rfl

/-! ### setTokenSlot -/

/-- `setTokenSlot` leaves `pending` alone. -/
@[simp] theorem setTokenSlot_pending (b i : Nat) (x : TokenSlot) (s : State) : (setTokenSlot b i x s).pending = s.pending := rfl
/-- `setTokenSlot` leaves `out` alone. -/
@[simp] theorem setTokenSlot_out (b i : Nat) (x : TokenSlot) (s : State) : (setTokenSlot b i x s).out = s.out := rfl
/-- `setTokenSlot` leaves `fresh` alone. -/
@[simp] theorem setTokenSlot_fresh (b i : Nat) (x : TokenSlot) (s : State) : (setTokenSlot b i x s).fresh = s.fresh := rfl
/-- `setTokenSlot` leaves `mem` alone. -/
@[simp] theorem setTokenSlot_mem (b i : Nat) (x : TokenSlot) (s : State) : (setTokenSlot b i x s).mem = s.mem := rfl
/-- `setTokenSlot` leaves `bad` alone. -/
@[simp] theorem setTokenSlot_bad (b i : Nat) (x : TokenSlot) (s : State) : (setTokenSlot b i x s).bad = s.bad := rfl
/-- `setTokenSlot` leaves `hdr` alone. -/
@[simp] theorem setTokenSlot_hdr (b i : Nat) (x : TokenSlot) (s : State) : (setTokenSlot b i x s).hdr = s.hdr := rfl
/-- `setTokenSlot` leaves `glb` alone. -/
@[simp] theorem setTokenSlot_glb (b i : Nat) (x : TokenSlot) (s : State) : (setTokenSlot b i x s).glb = s.glb := rfl
/-- `setTokenSlot` leaves `pwr` alone. -/
@[simp] theorem setTokenSlot_pwr (b i : Nat) (x : TokenSlot) (s : State) : (setTokenSlot b i x s).pwr = s.pwr := rfl
/-- `setTokenSlot` leaves `mer` alone. -/
@[simp] theorem setTokenSlot_mer (b i : Nat) (x : TokenSlot) (s : State) : (setTokenSlot b i x s).mer = s.mer := rfl
/-- `setTokenSlot` leaves `fbk` alone. -/
@[simp] theorem setTokenSlot_fbk (b i : Nat) (x : TokenSlot) (s : State) : (setTokenSlot b i x s).fbk = s.fbk := rfl
/-- `setTokenSlot` leaves `reeds` alone. -/
@[simp] theorem setTokenSlot_reeds (b i : Nat) (x : TokenSlot) (s : State) : (setTokenSlot b i x s).reeds = s.reeds := rfl
/-- `setTokenSlot` leaves `binding` alone. -/
@[simp] theorem setTokenSlot_binding (b i : Nat) (x : TokenSlot) (s : State) : (setTokenSlot b i x s).binding = s.binding := rfl
/-- `setTokenSlot` leaves `hbm` alone. -/
@[simp] theorem setTokenSlot_hbm (b i : Nat) (x : TokenSlot) (s : State) : (setTokenSlot b i x s).hbm = s.hbm := rfl
/-- `setTokenSlot` leaves `srcs` alone. -/
@[simp] theorem setTokenSlot_srcs (b i : Nat) (x : TokenSlot) (s : State) : (setTokenSlot b i x s).srcs = s.srcs := rfl
/-- `setTokenSlot` leaves `qmg` alone. -/
@[simp] theorem setTokenSlot_qmg (b i : Nat) (x : TokenSlot) (s : State) : (setTokenSlot b i x s).qmg = s.qmg := rfl
/-- `setTokenSlot` leaves `evr` alone. -/
@[simp] theorem setTokenSlot_evr (b i : Nat) (x : TokenSlot) (s : State) : (setTokenSlot b i x s).evr = s.evr := rfl
/-- `setTokenSlot` leaves `cxl` alone. -/
@[simp] theorem setTokenSlot_cxl (b i : Nat) (x : TokenSlot) (s : State) : (setTokenSlot b i x s).cxl = s.cxl := rfl
/-- `setTokenSlot` leaves `links` alone. -/
@[simp] theorem setTokenSlot_links (b i : Nat) (x : TokenSlot) (s : State) : (setTokenSlot b i x s).links = s.links := rfl
/-- `setTokenSlot` leaves `atl` alone. -/
@[simp] theorem setTokenSlot_atl (b i : Nat) (x : TokenSlot) (s : State) : (setTokenSlot b i x s).atl = s.atl := rfl
/-- `setTokenSlot` leaves `slc` alone. -/
@[simp] theorem setTokenSlot_slc (b i : Nat) (x : TokenSlot) (s : State) : (setTokenSlot b i x s).slc = s.slc := rfl
/-- `setTokenSlot` leaves `asp` alone. -/
@[simp] theorem setTokenSlot_asp (b i : Nat) (x : TokenSlot) (s : State) : (setTokenSlot b i x s).asp = s.asp := rfl
/-- `setTokenSlot` leaves `ssp` alone. -/
@[simp] theorem setTokenSlot_ssp (b i : Nat) (x : TokenSlot) (s : State) : (setTokenSlot b i x s).ssp = s.ssp := rfl
/-- `setTokenSlot` leaves `tcu` alone. -/
@[simp] theorem setTokenSlot_tcu (b i : Nat) (x : TokenSlot) (s : State) : (setTokenSlot b i x s).tcu = s.tcu := rfl
/-- `setTokenSlot` leaves `sec` alone. -/
@[simp] theorem setTokenSlot_sec (b i : Nat) (x : TokenSlot) (s : State) : (setTokenSlot b i x s).sec = s.sec := rfl
/-- `setTokenSlot` leaves `spr` alone. -/
@[simp] theorem setTokenSlot_spr (b i : Nat) (x : TokenSlot) (s : State) : (setTokenSlot b i x s).spr = s.spr := rfl
/-- `setTokenSlot` leaves `tst` alone. -/
@[simp] theorem setTokenSlot_tst (b i : Nat) (x : TokenSlot) (s : State) : (setTokenSlot b i x s).tst = s.tst := rfl

/-! ### setAsp -/

/-- `setAsp` leaves `pending` alone. -/
@[simp] theorem setAsp_pending (n : Nat) (x : Asp) (s : State) : (setAsp n x s).pending = s.pending := rfl
/-- `setAsp` leaves `out` alone. -/
@[simp] theorem setAsp_out (n : Nat) (x : Asp) (s : State) : (setAsp n x s).out = s.out := rfl
/-- `setAsp` leaves `fresh` alone. -/
@[simp] theorem setAsp_fresh (n : Nat) (x : Asp) (s : State) : (setAsp n x s).fresh = s.fresh := rfl
/-- `setAsp` leaves `mem` alone. -/
@[simp] theorem setAsp_mem (n : Nat) (x : Asp) (s : State) : (setAsp n x s).mem = s.mem := rfl
/-- `setAsp` leaves `bad` alone. -/
@[simp] theorem setAsp_bad (n : Nat) (x : Asp) (s : State) : (setAsp n x s).bad = s.bad := rfl
/-- `setAsp` leaves `hdr` alone. -/
@[simp] theorem setAsp_hdr (n : Nat) (x : Asp) (s : State) : (setAsp n x s).hdr = s.hdr := rfl
/-- `setAsp` leaves `glb` alone. -/
@[simp] theorem setAsp_glb (n : Nat) (x : Asp) (s : State) : (setAsp n x s).glb = s.glb := rfl
/-- `setAsp` leaves `pwr` alone. -/
@[simp] theorem setAsp_pwr (n : Nat) (x : Asp) (s : State) : (setAsp n x s).pwr = s.pwr := rfl
/-- `setAsp` leaves `mer` alone. -/
@[simp] theorem setAsp_mer (n : Nat) (x : Asp) (s : State) : (setAsp n x s).mer = s.mer := rfl
/-- `setAsp` leaves `fbk` alone. -/
@[simp] theorem setAsp_fbk (n : Nat) (x : Asp) (s : State) : (setAsp n x s).fbk = s.fbk := rfl
/-- `setAsp` leaves `reeds` alone. -/
@[simp] theorem setAsp_reeds (n : Nat) (x : Asp) (s : State) : (setAsp n x s).reeds = s.reeds := rfl
/-- `setAsp` leaves `binding` alone. -/
@[simp] theorem setAsp_binding (n : Nat) (x : Asp) (s : State) : (setAsp n x s).binding = s.binding := rfl
/-- `setAsp` leaves `beds` alone. -/
@[simp] theorem setAsp_beds (n : Nat) (x : Asp) (s : State) : (setAsp n x s).beds = s.beds := rfl
/-- `setAsp` leaves `hbm` alone. -/
@[simp] theorem setAsp_hbm (n : Nat) (x : Asp) (s : State) : (setAsp n x s).hbm = s.hbm := rfl
/-- `setAsp` leaves `srcs` alone. -/
@[simp] theorem setAsp_srcs (n : Nat) (x : Asp) (s : State) : (setAsp n x s).srcs = s.srcs := rfl
/-- `setAsp` leaves `qmg` alone. -/
@[simp] theorem setAsp_qmg (n : Nat) (x : Asp) (s : State) : (setAsp n x s).qmg = s.qmg := rfl
/-- `setAsp` leaves `evr` alone. -/
@[simp] theorem setAsp_evr (n : Nat) (x : Asp) (s : State) : (setAsp n x s).evr = s.evr := rfl
/-- `setAsp` leaves `cxl` alone. -/
@[simp] theorem setAsp_cxl (n : Nat) (x : Asp) (s : State) : (setAsp n x s).cxl = s.cxl := rfl
/-- `setAsp` leaves `links` alone. -/
@[simp] theorem setAsp_links (n : Nat) (x : Asp) (s : State) : (setAsp n x s).links = s.links := rfl
/-- `setAsp` leaves `atl` alone. -/
@[simp] theorem setAsp_atl (n : Nat) (x : Asp) (s : State) : (setAsp n x s).atl = s.atl := rfl
/-- `setAsp` leaves `slc` alone. -/
@[simp] theorem setAsp_slc (n : Nat) (x : Asp) (s : State) : (setAsp n x s).slc = s.slc := rfl
/-- `setAsp` leaves `ssp` alone. -/
@[simp] theorem setAsp_ssp (n : Nat) (x : Asp) (s : State) : (setAsp n x s).ssp = s.ssp := rfl
/-- `setAsp` leaves `tcu` alone. -/
@[simp] theorem setAsp_tcu (n : Nat) (x : Asp) (s : State) : (setAsp n x s).tcu = s.tcu := rfl
/-- `setAsp` leaves `sec` alone. -/
@[simp] theorem setAsp_sec (n : Nat) (x : Asp) (s : State) : (setAsp n x s).sec = s.sec := rfl
/-- `setAsp` leaves `spr` alone. -/
@[simp] theorem setAsp_spr (n : Nat) (x : Asp) (s : State) : (setAsp n x s).spr = s.spr := rfl
/-- `setAsp` leaves `tst` alone. -/
@[simp] theorem setAsp_tst (n : Nat) (x : Asp) (s : State) : (setAsp n x s).tst = s.tst := rfl

/-! ### setSsp -/

/-- `setSsp` leaves `pending` alone. -/
@[simp] theorem setSsp_pending (n : Nat) (x : Ssp) (s : State) : (setSsp n x s).pending = s.pending := rfl
/-- `setSsp` leaves `out` alone. -/
@[simp] theorem setSsp_out (n : Nat) (x : Ssp) (s : State) : (setSsp n x s).out = s.out := rfl
/-- `setSsp` leaves `fresh` alone. -/
@[simp] theorem setSsp_fresh (n : Nat) (x : Ssp) (s : State) : (setSsp n x s).fresh = s.fresh := rfl
/-- `setSsp` leaves `mem` alone. -/
@[simp] theorem setSsp_mem (n : Nat) (x : Ssp) (s : State) : (setSsp n x s).mem = s.mem := rfl
/-- `setSsp` leaves `bad` alone. -/
@[simp] theorem setSsp_bad (n : Nat) (x : Ssp) (s : State) : (setSsp n x s).bad = s.bad := rfl
/-- `setSsp` leaves `hdr` alone. -/
@[simp] theorem setSsp_hdr (n : Nat) (x : Ssp) (s : State) : (setSsp n x s).hdr = s.hdr := rfl
/-- `setSsp` leaves `glb` alone. -/
@[simp] theorem setSsp_glb (n : Nat) (x : Ssp) (s : State) : (setSsp n x s).glb = s.glb := rfl
/-- `setSsp` leaves `pwr` alone. -/
@[simp] theorem setSsp_pwr (n : Nat) (x : Ssp) (s : State) : (setSsp n x s).pwr = s.pwr := rfl
/-- `setSsp` leaves `mer` alone. -/
@[simp] theorem setSsp_mer (n : Nat) (x : Ssp) (s : State) : (setSsp n x s).mer = s.mer := rfl
/-- `setSsp` leaves `fbk` alone. -/
@[simp] theorem setSsp_fbk (n : Nat) (x : Ssp) (s : State) : (setSsp n x s).fbk = s.fbk := rfl
/-- `setSsp` leaves `reeds` alone. -/
@[simp] theorem setSsp_reeds (n : Nat) (x : Ssp) (s : State) : (setSsp n x s).reeds = s.reeds := rfl
/-- `setSsp` leaves `binding` alone. -/
@[simp] theorem setSsp_binding (n : Nat) (x : Ssp) (s : State) : (setSsp n x s).binding = s.binding := rfl
/-- `setSsp` leaves `beds` alone. -/
@[simp] theorem setSsp_beds (n : Nat) (x : Ssp) (s : State) : (setSsp n x s).beds = s.beds := rfl
/-- `setSsp` leaves `hbm` alone. -/
@[simp] theorem setSsp_hbm (n : Nat) (x : Ssp) (s : State) : (setSsp n x s).hbm = s.hbm := rfl
/-- `setSsp` leaves `srcs` alone. -/
@[simp] theorem setSsp_srcs (n : Nat) (x : Ssp) (s : State) : (setSsp n x s).srcs = s.srcs := rfl
/-- `setSsp` leaves `qmg` alone. -/
@[simp] theorem setSsp_qmg (n : Nat) (x : Ssp) (s : State) : (setSsp n x s).qmg = s.qmg := rfl
/-- `setSsp` leaves `evr` alone. -/
@[simp] theorem setSsp_evr (n : Nat) (x : Ssp) (s : State) : (setSsp n x s).evr = s.evr := rfl
/-- `setSsp` leaves `cxl` alone. -/
@[simp] theorem setSsp_cxl (n : Nat) (x : Ssp) (s : State) : (setSsp n x s).cxl = s.cxl := rfl
/-- `setSsp` leaves `links` alone. -/
@[simp] theorem setSsp_links (n : Nat) (x : Ssp) (s : State) : (setSsp n x s).links = s.links := rfl
/-- `setSsp` leaves `atl` alone. -/
@[simp] theorem setSsp_atl (n : Nat) (x : Ssp) (s : State) : (setSsp n x s).atl = s.atl := rfl
/-- `setSsp` leaves `slc` alone. -/
@[simp] theorem setSsp_slc (n : Nat) (x : Ssp) (s : State) : (setSsp n x s).slc = s.slc := rfl
/-- `setSsp` leaves `asp` alone. -/
@[simp] theorem setSsp_asp (n : Nat) (x : Ssp) (s : State) : (setSsp n x s).asp = s.asp := rfl
/-- `setSsp` leaves `tcu` alone. -/
@[simp] theorem setSsp_tcu (n : Nat) (x : Ssp) (s : State) : (setSsp n x s).tcu = s.tcu := rfl
/-- `setSsp` leaves `sec` alone. -/
@[simp] theorem setSsp_sec (n : Nat) (x : Ssp) (s : State) : (setSsp n x s).sec = s.sec := rfl
/-- `setSsp` leaves `spr` alone. -/
@[simp] theorem setSsp_spr (n : Nat) (x : Ssp) (s : State) : (setSsp n x s).spr = s.spr := rfl
/-- `setSsp` leaves `tst` alone. -/
@[simp] theorem setSsp_tst (n : Nat) (x : Ssp) (s : State) : (setSsp n x s).tst = s.tst := rfl

/-! ### setChan -/

/-- `setChan` leaves `pending` alone. -/
@[simp] theorem setChan_pending (c : Nat) (x : TcuChan) (s : State) : (setChan c x s).pending = s.pending := rfl
/-- `setChan` leaves `out` alone. -/
@[simp] theorem setChan_out (c : Nat) (x : TcuChan) (s : State) : (setChan c x s).out = s.out := rfl
/-- `setChan` leaves `fresh` alone. -/
@[simp] theorem setChan_fresh (c : Nat) (x : TcuChan) (s : State) : (setChan c x s).fresh = s.fresh := rfl
/-- `setChan` leaves `mem` alone. -/
@[simp] theorem setChan_mem (c : Nat) (x : TcuChan) (s : State) : (setChan c x s).mem = s.mem := rfl
/-- `setChan` leaves `bad` alone. -/
@[simp] theorem setChan_bad (c : Nat) (x : TcuChan) (s : State) : (setChan c x s).bad = s.bad := rfl
/-- `setChan` leaves `hdr` alone. -/
@[simp] theorem setChan_hdr (c : Nat) (x : TcuChan) (s : State) : (setChan c x s).hdr = s.hdr := rfl
/-- `setChan` leaves `glb` alone. -/
@[simp] theorem setChan_glb (c : Nat) (x : TcuChan) (s : State) : (setChan c x s).glb = s.glb := rfl
/-- `setChan` leaves `pwr` alone. -/
@[simp] theorem setChan_pwr (c : Nat) (x : TcuChan) (s : State) : (setChan c x s).pwr = s.pwr := rfl
/-- `setChan` leaves `mer` alone. -/
@[simp] theorem setChan_mer (c : Nat) (x : TcuChan) (s : State) : (setChan c x s).mer = s.mer := rfl
/-- `setChan` leaves `fbk` alone. -/
@[simp] theorem setChan_fbk (c : Nat) (x : TcuChan) (s : State) : (setChan c x s).fbk = s.fbk := rfl
/-- `setChan` leaves `reeds` alone. -/
@[simp] theorem setChan_reeds (c : Nat) (x : TcuChan) (s : State) : (setChan c x s).reeds = s.reeds := rfl
/-- `setChan` leaves `binding` alone. -/
@[simp] theorem setChan_binding (c : Nat) (x : TcuChan) (s : State) : (setChan c x s).binding = s.binding := rfl
/-- `setChan` leaves `beds` alone. -/
@[simp] theorem setChan_beds (c : Nat) (x : TcuChan) (s : State) : (setChan c x s).beds = s.beds := rfl
/-- `setChan` leaves `hbm` alone. -/
@[simp] theorem setChan_hbm (c : Nat) (x : TcuChan) (s : State) : (setChan c x s).hbm = s.hbm := rfl
/-- `setChan` leaves `srcs` alone. -/
@[simp] theorem setChan_srcs (c : Nat) (x : TcuChan) (s : State) : (setChan c x s).srcs = s.srcs := rfl
/-- `setChan` leaves `qmg` alone. -/
@[simp] theorem setChan_qmg (c : Nat) (x : TcuChan) (s : State) : (setChan c x s).qmg = s.qmg := rfl
/-- `setChan` leaves `evr` alone. -/
@[simp] theorem setChan_evr (c : Nat) (x : TcuChan) (s : State) : (setChan c x s).evr = s.evr := rfl
/-- `setChan` leaves `cxl` alone. -/
@[simp] theorem setChan_cxl (c : Nat) (x : TcuChan) (s : State) : (setChan c x s).cxl = s.cxl := rfl
/-- `setChan` leaves `links` alone. -/
@[simp] theorem setChan_links (c : Nat) (x : TcuChan) (s : State) : (setChan c x s).links = s.links := rfl
/-- `setChan` leaves `atl` alone. -/
@[simp] theorem setChan_atl (c : Nat) (x : TcuChan) (s : State) : (setChan c x s).atl = s.atl := rfl
/-- `setChan` leaves `slc` alone. -/
@[simp] theorem setChan_slc (c : Nat) (x : TcuChan) (s : State) : (setChan c x s).slc = s.slc := rfl
/-- `setChan` leaves `asp` alone. -/
@[simp] theorem setChan_asp (c : Nat) (x : TcuChan) (s : State) : (setChan c x s).asp = s.asp := rfl
/-- `setChan` leaves `ssp` alone. -/
@[simp] theorem setChan_ssp (c : Nat) (x : TcuChan) (s : State) : (setChan c x s).ssp = s.ssp := rfl
/-- `setChan` leaves `sec` alone. -/
@[simp] theorem setChan_sec (c : Nat) (x : TcuChan) (s : State) : (setChan c x s).sec = s.sec := rfl
/-- `setChan` leaves `spr` alone. -/
@[simp] theorem setChan_spr (c : Nat) (x : TcuChan) (s : State) : (setChan c x s).spr = s.spr := rfl
/-- `setChan` leaves `tst` alone. -/
@[simp] theorem setChan_tst (c : Nat) (x : TcuChan) (s : State) : (setChan c x s).tst = s.tst := rfl

/-! ### setCap -/

/-- `setCap` leaves `pending` alone. -/
@[simp] theorem setCap_pending (j : Nat) (x : CapInput) (s : State) : (setCap j x s).pending = s.pending := rfl
/-- `setCap` leaves `out` alone. -/
@[simp] theorem setCap_out (j : Nat) (x : CapInput) (s : State) : (setCap j x s).out = s.out := rfl
/-- `setCap` leaves `fresh` alone. -/
@[simp] theorem setCap_fresh (j : Nat) (x : CapInput) (s : State) : (setCap j x s).fresh = s.fresh := rfl
/-- `setCap` leaves `mem` alone. -/
@[simp] theorem setCap_mem (j : Nat) (x : CapInput) (s : State) : (setCap j x s).mem = s.mem := rfl
/-- `setCap` leaves `bad` alone. -/
@[simp] theorem setCap_bad (j : Nat) (x : CapInput) (s : State) : (setCap j x s).bad = s.bad := rfl
/-- `setCap` leaves `hdr` alone. -/
@[simp] theorem setCap_hdr (j : Nat) (x : CapInput) (s : State) : (setCap j x s).hdr = s.hdr := rfl
/-- `setCap` leaves `glb` alone. -/
@[simp] theorem setCap_glb (j : Nat) (x : CapInput) (s : State) : (setCap j x s).glb = s.glb := rfl
/-- `setCap` leaves `pwr` alone. -/
@[simp] theorem setCap_pwr (j : Nat) (x : CapInput) (s : State) : (setCap j x s).pwr = s.pwr := rfl
/-- `setCap` leaves `mer` alone. -/
@[simp] theorem setCap_mer (j : Nat) (x : CapInput) (s : State) : (setCap j x s).mer = s.mer := rfl
/-- `setCap` leaves `fbk` alone. -/
@[simp] theorem setCap_fbk (j : Nat) (x : CapInput) (s : State) : (setCap j x s).fbk = s.fbk := rfl
/-- `setCap` leaves `reeds` alone. -/
@[simp] theorem setCap_reeds (j : Nat) (x : CapInput) (s : State) : (setCap j x s).reeds = s.reeds := rfl
/-- `setCap` leaves `binding` alone. -/
@[simp] theorem setCap_binding (j : Nat) (x : CapInput) (s : State) : (setCap j x s).binding = s.binding := rfl
/-- `setCap` leaves `beds` alone. -/
@[simp] theorem setCap_beds (j : Nat) (x : CapInput) (s : State) : (setCap j x s).beds = s.beds := rfl
/-- `setCap` leaves `hbm` alone. -/
@[simp] theorem setCap_hbm (j : Nat) (x : CapInput) (s : State) : (setCap j x s).hbm = s.hbm := rfl
/-- `setCap` leaves `srcs` alone. -/
@[simp] theorem setCap_srcs (j : Nat) (x : CapInput) (s : State) : (setCap j x s).srcs = s.srcs := rfl
/-- `setCap` leaves `qmg` alone. -/
@[simp] theorem setCap_qmg (j : Nat) (x : CapInput) (s : State) : (setCap j x s).qmg = s.qmg := rfl
/-- `setCap` leaves `evr` alone. -/
@[simp] theorem setCap_evr (j : Nat) (x : CapInput) (s : State) : (setCap j x s).evr = s.evr := rfl
/-- `setCap` leaves `cxl` alone. -/
@[simp] theorem setCap_cxl (j : Nat) (x : CapInput) (s : State) : (setCap j x s).cxl = s.cxl := rfl
/-- `setCap` leaves `links` alone. -/
@[simp] theorem setCap_links (j : Nat) (x : CapInput) (s : State) : (setCap j x s).links = s.links := rfl
/-- `setCap` leaves `atl` alone. -/
@[simp] theorem setCap_atl (j : Nat) (x : CapInput) (s : State) : (setCap j x s).atl = s.atl := rfl
/-- `setCap` leaves `slc` alone. -/
@[simp] theorem setCap_slc (j : Nat) (x : CapInput) (s : State) : (setCap j x s).slc = s.slc := rfl
/-- `setCap` leaves `asp` alone. -/
@[simp] theorem setCap_asp (j : Nat) (x : CapInput) (s : State) : (setCap j x s).asp = s.asp := rfl
/-- `setCap` leaves `ssp` alone. -/
@[simp] theorem setCap_ssp (j : Nat) (x : CapInput) (s : State) : (setCap j x s).ssp = s.ssp := rfl
/-- `setCap` leaves `sec` alone. -/
@[simp] theorem setCap_sec (j : Nat) (x : CapInput) (s : State) : (setCap j x s).sec = s.sec := rfl
/-- `setCap` leaves `spr` alone. -/
@[simp] theorem setCap_spr (j : Nat) (x : CapInput) (s : State) : (setCap j x s).spr = s.spr := rfl
/-- `setCap` leaves `tst` alone. -/
@[simp] theorem setCap_tst (j : Nat) (x : CapInput) (s : State) : (setCap j x s).tst = s.tst := rfl

/-! ### setLink -/

/-- `setLink` leaves `pending` alone. -/
@[simp] theorem setLink_pending (l : Nat) (x : Link) (s : State) : (setLink l x s).pending = s.pending := rfl
/-- `setLink` leaves `out` alone. -/
@[simp] theorem setLink_out (l : Nat) (x : Link) (s : State) : (setLink l x s).out = s.out := rfl
/-- `setLink` leaves `fresh` alone. -/
@[simp] theorem setLink_fresh (l : Nat) (x : Link) (s : State) : (setLink l x s).fresh = s.fresh := rfl
/-- `setLink` leaves `mem` alone. -/
@[simp] theorem setLink_mem (l : Nat) (x : Link) (s : State) : (setLink l x s).mem = s.mem := rfl
/-- `setLink` leaves `bad` alone. -/
@[simp] theorem setLink_bad (l : Nat) (x : Link) (s : State) : (setLink l x s).bad = s.bad := rfl
/-- `setLink` leaves `hdr` alone. -/
@[simp] theorem setLink_hdr (l : Nat) (x : Link) (s : State) : (setLink l x s).hdr = s.hdr := rfl
/-- `setLink` leaves `glb` alone. -/
@[simp] theorem setLink_glb (l : Nat) (x : Link) (s : State) : (setLink l x s).glb = s.glb := rfl
/-- `setLink` leaves `pwr` alone. -/
@[simp] theorem setLink_pwr (l : Nat) (x : Link) (s : State) : (setLink l x s).pwr = s.pwr := rfl
/-- `setLink` leaves `mer` alone. -/
@[simp] theorem setLink_mer (l : Nat) (x : Link) (s : State) : (setLink l x s).mer = s.mer := rfl
/-- `setLink` leaves `fbk` alone. -/
@[simp] theorem setLink_fbk (l : Nat) (x : Link) (s : State) : (setLink l x s).fbk = s.fbk := rfl
/-- `setLink` leaves `reeds` alone. -/
@[simp] theorem setLink_reeds (l : Nat) (x : Link) (s : State) : (setLink l x s).reeds = s.reeds := rfl
/-- `setLink` leaves `binding` alone. -/
@[simp] theorem setLink_binding (l : Nat) (x : Link) (s : State) : (setLink l x s).binding = s.binding := rfl
/-- `setLink` leaves `beds` alone. -/
@[simp] theorem setLink_beds (l : Nat) (x : Link) (s : State) : (setLink l x s).beds = s.beds := rfl
/-- `setLink` leaves `hbm` alone. -/
@[simp] theorem setLink_hbm (l : Nat) (x : Link) (s : State) : (setLink l x s).hbm = s.hbm := rfl
/-- `setLink` leaves `srcs` alone. -/
@[simp] theorem setLink_srcs (l : Nat) (x : Link) (s : State) : (setLink l x s).srcs = s.srcs := rfl
/-- `setLink` leaves `qmg` alone. -/
@[simp] theorem setLink_qmg (l : Nat) (x : Link) (s : State) : (setLink l x s).qmg = s.qmg := rfl
/-- `setLink` leaves `evr` alone. -/
@[simp] theorem setLink_evr (l : Nat) (x : Link) (s : State) : (setLink l x s).evr = s.evr := rfl
/-- `setLink` leaves `cxl` alone. -/
@[simp] theorem setLink_cxl (l : Nat) (x : Link) (s : State) : (setLink l x s).cxl = s.cxl := rfl
/-- `setLink` leaves `atl` alone. -/
@[simp] theorem setLink_atl (l : Nat) (x : Link) (s : State) : (setLink l x s).atl = s.atl := rfl
/-- `setLink` leaves `slc` alone. -/
@[simp] theorem setLink_slc (l : Nat) (x : Link) (s : State) : (setLink l x s).slc = s.slc := rfl
/-- `setLink` leaves `asp` alone. -/
@[simp] theorem setLink_asp (l : Nat) (x : Link) (s : State) : (setLink l x s).asp = s.asp := rfl
/-- `setLink` leaves `ssp` alone. -/
@[simp] theorem setLink_ssp (l : Nat) (x : Link) (s : State) : (setLink l x s).ssp = s.ssp := rfl
/-- `setLink` leaves `tcu` alone. -/
@[simp] theorem setLink_tcu (l : Nat) (x : Link) (s : State) : (setLink l x s).tcu = s.tcu := rfl
/-- `setLink` leaves `sec` alone. -/
@[simp] theorem setLink_sec (l : Nat) (x : Link) (s : State) : (setLink l x s).sec = s.sec := rfl
/-- `setLink` leaves `spr` alone. -/
@[simp] theorem setLink_spr (l : Nat) (x : Link) (s : State) : (setLink l x s).spr = s.spr := rfl
/-- `setLink` leaves `tst` alone. -/
@[simp] theorem setLink_tst (l : Nat) (x : Link) (s : State) : (setLink l x s).tst = s.tst := rfl

/-! ### setAtl -/

/-- `setAtl` leaves `pending` alone. -/
@[simp] theorem setAtl_pending (x : Atlas) (s : State) : (setAtl x s).pending = s.pending := rfl
/-- `setAtl` leaves `out` alone. -/
@[simp] theorem setAtl_out (x : Atlas) (s : State) : (setAtl x s).out = s.out := rfl
/-- `setAtl` leaves `fresh` alone. -/
@[simp] theorem setAtl_fresh (x : Atlas) (s : State) : (setAtl x s).fresh = s.fresh := rfl
/-- `setAtl` leaves `mem` alone. -/
@[simp] theorem setAtl_mem (x : Atlas) (s : State) : (setAtl x s).mem = s.mem := rfl
/-- `setAtl` leaves `bad` alone. -/
@[simp] theorem setAtl_bad (x : Atlas) (s : State) : (setAtl x s).bad = s.bad := rfl
/-- `setAtl` leaves `hdr` alone. -/
@[simp] theorem setAtl_hdr (x : Atlas) (s : State) : (setAtl x s).hdr = s.hdr := rfl
/-- `setAtl` leaves `glb` alone. -/
@[simp] theorem setAtl_glb (x : Atlas) (s : State) : (setAtl x s).glb = s.glb := rfl
/-- `setAtl` leaves `pwr` alone. -/
@[simp] theorem setAtl_pwr (x : Atlas) (s : State) : (setAtl x s).pwr = s.pwr := rfl
/-- `setAtl` leaves `mer` alone. -/
@[simp] theorem setAtl_mer (x : Atlas) (s : State) : (setAtl x s).mer = s.mer := rfl
/-- `setAtl` leaves `fbk` alone. -/
@[simp] theorem setAtl_fbk (x : Atlas) (s : State) : (setAtl x s).fbk = s.fbk := rfl
/-- `setAtl` leaves `reeds` alone. -/
@[simp] theorem setAtl_reeds (x : Atlas) (s : State) : (setAtl x s).reeds = s.reeds := rfl
/-- `setAtl` leaves `binding` alone. -/
@[simp] theorem setAtl_binding (x : Atlas) (s : State) : (setAtl x s).binding = s.binding := rfl
/-- `setAtl` leaves `beds` alone. -/
@[simp] theorem setAtl_beds (x : Atlas) (s : State) : (setAtl x s).beds = s.beds := rfl
/-- `setAtl` leaves `hbm` alone. -/
@[simp] theorem setAtl_hbm (x : Atlas) (s : State) : (setAtl x s).hbm = s.hbm := rfl
/-- `setAtl` leaves `srcs` alone. -/
@[simp] theorem setAtl_srcs (x : Atlas) (s : State) : (setAtl x s).srcs = s.srcs := rfl
/-- `setAtl` leaves `qmg` alone. -/
@[simp] theorem setAtl_qmg (x : Atlas) (s : State) : (setAtl x s).qmg = s.qmg := rfl
/-- `setAtl` leaves `evr` alone. -/
@[simp] theorem setAtl_evr (x : Atlas) (s : State) : (setAtl x s).evr = s.evr := rfl
/-- `setAtl` leaves `cxl` alone. -/
@[simp] theorem setAtl_cxl (x : Atlas) (s : State) : (setAtl x s).cxl = s.cxl := rfl
/-- `setAtl` leaves `links` alone. -/
@[simp] theorem setAtl_links (x : Atlas) (s : State) : (setAtl x s).links = s.links := rfl
/-- `setAtl` leaves `slc` alone. -/
@[simp] theorem setAtl_slc (x : Atlas) (s : State) : (setAtl x s).slc = s.slc := rfl
/-- `setAtl` leaves `asp` alone. -/
@[simp] theorem setAtl_asp (x : Atlas) (s : State) : (setAtl x s).asp = s.asp := rfl
/-- `setAtl` leaves `ssp` alone. -/
@[simp] theorem setAtl_ssp (x : Atlas) (s : State) : (setAtl x s).ssp = s.ssp := rfl
/-- `setAtl` leaves `tcu` alone. -/
@[simp] theorem setAtl_tcu (x : Atlas) (s : State) : (setAtl x s).tcu = s.tcu := rfl
/-- `setAtl` leaves `sec` alone. -/
@[simp] theorem setAtl_sec (x : Atlas) (s : State) : (setAtl x s).sec = s.sec := rfl
/-- `setAtl` leaves `spr` alone. -/
@[simp] theorem setAtl_spr (x : Atlas) (s : State) : (setAtl x s).spr = s.spr := rfl
/-- `setAtl` leaves `tst` alone. -/
@[simp] theorem setAtl_tst (x : Atlas) (s : State) : (setAtl x s).tst = s.tst := rfl

/-! ### setBusRx -/

/-- `setBusRx` leaves `pending` alone. -/
@[simp] theorem setBusRx_pending (b : Nat) (x : BusRx) (s : State) : (setBusRx b x s).pending = s.pending := rfl
/-- `setBusRx` leaves `out` alone. -/
@[simp] theorem setBusRx_out (b : Nat) (x : BusRx) (s : State) : (setBusRx b x s).out = s.out := rfl
/-- `setBusRx` leaves `fresh` alone. -/
@[simp] theorem setBusRx_fresh (b : Nat) (x : BusRx) (s : State) : (setBusRx b x s).fresh = s.fresh := rfl
/-- `setBusRx` leaves `mem` alone. -/
@[simp] theorem setBusRx_mem (b : Nat) (x : BusRx) (s : State) : (setBusRx b x s).mem = s.mem := rfl
/-- `setBusRx` leaves `bad` alone. -/
@[simp] theorem setBusRx_bad (b : Nat) (x : BusRx) (s : State) : (setBusRx b x s).bad = s.bad := rfl
/-- `setBusRx` leaves `hdr` alone. -/
@[simp] theorem setBusRx_hdr (b : Nat) (x : BusRx) (s : State) : (setBusRx b x s).hdr = s.hdr := rfl
/-- `setBusRx` leaves `glb` alone. -/
@[simp] theorem setBusRx_glb (b : Nat) (x : BusRx) (s : State) : (setBusRx b x s).glb = s.glb := rfl
/-- `setBusRx` leaves `pwr` alone. -/
@[simp] theorem setBusRx_pwr (b : Nat) (x : BusRx) (s : State) : (setBusRx b x s).pwr = s.pwr := rfl
/-- `setBusRx` leaves `mer` alone. -/
@[simp] theorem setBusRx_mer (b : Nat) (x : BusRx) (s : State) : (setBusRx b x s).mer = s.mer := rfl
/-- `setBusRx` leaves `fbk` alone. -/
@[simp] theorem setBusRx_fbk (b : Nat) (x : BusRx) (s : State) : (setBusRx b x s).fbk = s.fbk := rfl
/-- `setBusRx` leaves `reeds` alone. -/
@[simp] theorem setBusRx_reeds (b : Nat) (x : BusRx) (s : State) : (setBusRx b x s).reeds = s.reeds := rfl
/-- `setBusRx` leaves `binding` alone. -/
@[simp] theorem setBusRx_binding (b : Nat) (x : BusRx) (s : State) : (setBusRx b x s).binding = s.binding := rfl
/-- `setBusRx` leaves `beds` alone. -/
@[simp] theorem setBusRx_beds (b : Nat) (x : BusRx) (s : State) : (setBusRx b x s).beds = s.beds := rfl
/-- `setBusRx` leaves `hbm` alone. -/
@[simp] theorem setBusRx_hbm (b : Nat) (x : BusRx) (s : State) : (setBusRx b x s).hbm = s.hbm := rfl
/-- `setBusRx` leaves `srcs` alone. -/
@[simp] theorem setBusRx_srcs (b : Nat) (x : BusRx) (s : State) : (setBusRx b x s).srcs = s.srcs := rfl
/-- `setBusRx` leaves `qmg` alone. -/
@[simp] theorem setBusRx_qmg (b : Nat) (x : BusRx) (s : State) : (setBusRx b x s).qmg = s.qmg := rfl
/-- `setBusRx` leaves `evr` alone. -/
@[simp] theorem setBusRx_evr (b : Nat) (x : BusRx) (s : State) : (setBusRx b x s).evr = s.evr := rfl
/-- `setBusRx` leaves `cxl` alone. -/
@[simp] theorem setBusRx_cxl (b : Nat) (x : BusRx) (s : State) : (setBusRx b x s).cxl = s.cxl := rfl
/-- `setBusRx` leaves `links` alone. -/
@[simp] theorem setBusRx_links (b : Nat) (x : BusRx) (s : State) : (setBusRx b x s).links = s.links := rfl
/-- `setBusRx` leaves `slc` alone. -/
@[simp] theorem setBusRx_slc (b : Nat) (x : BusRx) (s : State) : (setBusRx b x s).slc = s.slc := rfl
/-- `setBusRx` leaves `asp` alone. -/
@[simp] theorem setBusRx_asp (b : Nat) (x : BusRx) (s : State) : (setBusRx b x s).asp = s.asp := rfl
/-- `setBusRx` leaves `ssp` alone. -/
@[simp] theorem setBusRx_ssp (b : Nat) (x : BusRx) (s : State) : (setBusRx b x s).ssp = s.ssp := rfl
/-- `setBusRx` leaves `tcu` alone. -/
@[simp] theorem setBusRx_tcu (b : Nat) (x : BusRx) (s : State) : (setBusRx b x s).tcu = s.tcu := rfl
/-- `setBusRx` leaves `sec` alone. -/
@[simp] theorem setBusRx_sec (b : Nat) (x : BusRx) (s : State) : (setBusRx b x s).sec = s.sec := rfl
/-- `setBusRx` leaves `spr` alone. -/
@[simp] theorem setBusRx_spr (b : Nat) (x : BusRx) (s : State) : (setBusRx b x s).spr = s.spr := rfl
/-- `setBusRx` leaves `tst` alone. -/
@[simp] theorem setBusRx_tst (b : Nat) (x : BusRx) (s : State) : (setBusRx b x s).tst = s.tst := rfl

/-! ### setSrc -/

/-- `setSrc` leaves `pending` alone. -/
@[simp] theorem setSrc_pending (n : Nat) (x : Source) (s : State) : (setSrc n x s).pending = s.pending := rfl
/-- `setSrc` leaves `out` alone. -/
@[simp] theorem setSrc_out (n : Nat) (x : Source) (s : State) : (setSrc n x s).out = s.out := rfl
/-- `setSrc` leaves `fresh` alone. -/
@[simp] theorem setSrc_fresh (n : Nat) (x : Source) (s : State) : (setSrc n x s).fresh = s.fresh := rfl
/-- `setSrc` leaves `mem` alone. -/
@[simp] theorem setSrc_mem (n : Nat) (x : Source) (s : State) : (setSrc n x s).mem = s.mem := rfl
/-- `setSrc` leaves `bad` alone. -/
@[simp] theorem setSrc_bad (n : Nat) (x : Source) (s : State) : (setSrc n x s).bad = s.bad := rfl
/-- `setSrc` leaves `hdr` alone. -/
@[simp] theorem setSrc_hdr (n : Nat) (x : Source) (s : State) : (setSrc n x s).hdr = s.hdr := rfl
/-- `setSrc` leaves `glb` alone. -/
@[simp] theorem setSrc_glb (n : Nat) (x : Source) (s : State) : (setSrc n x s).glb = s.glb := rfl
/-- `setSrc` leaves `pwr` alone. -/
@[simp] theorem setSrc_pwr (n : Nat) (x : Source) (s : State) : (setSrc n x s).pwr = s.pwr := rfl
/-- `setSrc` leaves `mer` alone. -/
@[simp] theorem setSrc_mer (n : Nat) (x : Source) (s : State) : (setSrc n x s).mer = s.mer := rfl
/-- `setSrc` leaves `fbk` alone. -/
@[simp] theorem setSrc_fbk (n : Nat) (x : Source) (s : State) : (setSrc n x s).fbk = s.fbk := rfl
/-- `setSrc` leaves `reeds` alone. -/
@[simp] theorem setSrc_reeds (n : Nat) (x : Source) (s : State) : (setSrc n x s).reeds = s.reeds := rfl
/-- `setSrc` leaves `binding` alone. -/
@[simp] theorem setSrc_binding (n : Nat) (x : Source) (s : State) : (setSrc n x s).binding = s.binding := rfl
/-- `setSrc` leaves `beds` alone. -/
@[simp] theorem setSrc_beds (n : Nat) (x : Source) (s : State) : (setSrc n x s).beds = s.beds := rfl
/-- `setSrc` leaves `hbm` alone. -/
@[simp] theorem setSrc_hbm (n : Nat) (x : Source) (s : State) : (setSrc n x s).hbm = s.hbm := rfl
/-- `setSrc` leaves `qmg` alone. -/
@[simp] theorem setSrc_qmg (n : Nat) (x : Source) (s : State) : (setSrc n x s).qmg = s.qmg := rfl
/-- `setSrc` leaves `evr` alone. -/
@[simp] theorem setSrc_evr (n : Nat) (x : Source) (s : State) : (setSrc n x s).evr = s.evr := rfl
/-- `setSrc` leaves `cxl` alone. -/
@[simp] theorem setSrc_cxl (n : Nat) (x : Source) (s : State) : (setSrc n x s).cxl = s.cxl := rfl
/-- `setSrc` leaves `links` alone. -/
@[simp] theorem setSrc_links (n : Nat) (x : Source) (s : State) : (setSrc n x s).links = s.links := rfl
/-- `setSrc` leaves `atl` alone. -/
@[simp] theorem setSrc_atl (n : Nat) (x : Source) (s : State) : (setSrc n x s).atl = s.atl := rfl
/-- `setSrc` leaves `slc` alone. -/
@[simp] theorem setSrc_slc (n : Nat) (x : Source) (s : State) : (setSrc n x s).slc = s.slc := rfl
/-- `setSrc` leaves `asp` alone. -/
@[simp] theorem setSrc_asp (n : Nat) (x : Source) (s : State) : (setSrc n x s).asp = s.asp := rfl
/-- `setSrc` leaves `ssp` alone. -/
@[simp] theorem setSrc_ssp (n : Nat) (x : Source) (s : State) : (setSrc n x s).ssp = s.ssp := rfl
/-- `setSrc` leaves `tcu` alone. -/
@[simp] theorem setSrc_tcu (n : Nat) (x : Source) (s : State) : (setSrc n x s).tcu = s.tcu := rfl
/-- `setSrc` leaves `sec` alone. -/
@[simp] theorem setSrc_sec (n : Nat) (x : Source) (s : State) : (setSrc n x s).sec = s.sec := rfl
/-- `setSrc` leaves `spr` alone. -/
@[simp] theorem setSrc_spr (n : Nat) (x : Source) (s : State) : (setSrc n x s).spr = s.spr := rfl
/-- `setSrc` leaves `tst` alone. -/
@[simp] theorem setSrc_tst (n : Nat) (x : Source) (s : State) : (setSrc n x s).tst = s.tst := rfl

/-! ### setSv -/

/-- `setSv` leaves `pending` alone. -/
@[simp] theorem setSv_pending (n : Nat) (x : SvEvents) (s : State) : (setSv n x s).pending = s.pending := rfl
/-- `setSv` leaves `out` alone. -/
@[simp] theorem setSv_out (n : Nat) (x : SvEvents) (s : State) : (setSv n x s).out = s.out := rfl
/-- `setSv` leaves `fresh` alone. -/
@[simp] theorem setSv_fresh (n : Nat) (x : SvEvents) (s : State) : (setSv n x s).fresh = s.fresh := rfl
/-- `setSv` leaves `mem` alone. -/
@[simp] theorem setSv_mem (n : Nat) (x : SvEvents) (s : State) : (setSv n x s).mem = s.mem := rfl
/-- `setSv` leaves `bad` alone. -/
@[simp] theorem setSv_bad (n : Nat) (x : SvEvents) (s : State) : (setSv n x s).bad = s.bad := rfl
/-- `setSv` leaves `hdr` alone. -/
@[simp] theorem setSv_hdr (n : Nat) (x : SvEvents) (s : State) : (setSv n x s).hdr = s.hdr := rfl
/-- `setSv` leaves `glb` alone. -/
@[simp] theorem setSv_glb (n : Nat) (x : SvEvents) (s : State) : (setSv n x s).glb = s.glb := rfl
/-- `setSv` leaves `pwr` alone. -/
@[simp] theorem setSv_pwr (n : Nat) (x : SvEvents) (s : State) : (setSv n x s).pwr = s.pwr := rfl
/-- `setSv` leaves `mer` alone. -/
@[simp] theorem setSv_mer (n : Nat) (x : SvEvents) (s : State) : (setSv n x s).mer = s.mer := rfl
/-- `setSv` leaves `fbk` alone. -/
@[simp] theorem setSv_fbk (n : Nat) (x : SvEvents) (s : State) : (setSv n x s).fbk = s.fbk := rfl
/-- `setSv` leaves `reeds` alone. -/
@[simp] theorem setSv_reeds (n : Nat) (x : SvEvents) (s : State) : (setSv n x s).reeds = s.reeds := rfl
/-- `setSv` leaves `binding` alone. -/
@[simp] theorem setSv_binding (n : Nat) (x : SvEvents) (s : State) : (setSv n x s).binding = s.binding := rfl
/-- `setSv` leaves `beds` alone. -/
@[simp] theorem setSv_beds (n : Nat) (x : SvEvents) (s : State) : (setSv n x s).beds = s.beds := rfl
/-- `setSv` leaves `hbm` alone. -/
@[simp] theorem setSv_hbm (n : Nat) (x : SvEvents) (s : State) : (setSv n x s).hbm = s.hbm := rfl
/-- `setSv` leaves `srcs` alone. -/
@[simp] theorem setSv_srcs (n : Nat) (x : SvEvents) (s : State) : (setSv n x s).srcs = s.srcs := rfl
/-- `setSv` leaves `qmg` alone. -/
@[simp] theorem setSv_qmg (n : Nat) (x : SvEvents) (s : State) : (setSv n x s).qmg = s.qmg := rfl
/-- `setSv` leaves `cxl` alone. -/
@[simp] theorem setSv_cxl (n : Nat) (x : SvEvents) (s : State) : (setSv n x s).cxl = s.cxl := rfl
/-- `setSv` leaves `links` alone. -/
@[simp] theorem setSv_links (n : Nat) (x : SvEvents) (s : State) : (setSv n x s).links = s.links := rfl
/-- `setSv` leaves `atl` alone. -/
@[simp] theorem setSv_atl (n : Nat) (x : SvEvents) (s : State) : (setSv n x s).atl = s.atl := rfl
/-- `setSv` leaves `slc` alone. -/
@[simp] theorem setSv_slc (n : Nat) (x : SvEvents) (s : State) : (setSv n x s).slc = s.slc := rfl
/-- `setSv` leaves `asp` alone. -/
@[simp] theorem setSv_asp (n : Nat) (x : SvEvents) (s : State) : (setSv n x s).asp = s.asp := rfl
/-- `setSv` leaves `ssp` alone. -/
@[simp] theorem setSv_ssp (n : Nat) (x : SvEvents) (s : State) : (setSv n x s).ssp = s.ssp := rfl
/-- `setSv` leaves `tcu` alone. -/
@[simp] theorem setSv_tcu (n : Nat) (x : SvEvents) (s : State) : (setSv n x s).tcu = s.tcu := rfl
/-- `setSv` leaves `sec` alone. -/
@[simp] theorem setSv_sec (n : Nat) (x : SvEvents) (s : State) : (setSv n x s).sec = s.sec := rfl
/-- `setSv` leaves `spr` alone. -/
@[simp] theorem setSv_spr (n : Nat) (x : SvEvents) (s : State) : (setSv n x s).spr = s.spr := rfl
/-- `setSv` leaves `tst` alone. -/
@[simp] theorem setSv_tst (n : Nat) (x : SvEvents) (s : State) : (setSv n x s).tst = s.tst := rfl

/-! ### setQueue -/

/-- `setQueue` leaves `pending` alone. -/
@[simp] theorem setQueue_pending (q : Nat) (x : Queue) (s : State) : (setQueue q x s).pending = s.pending := rfl
/-- `setQueue` leaves `out` alone. -/
@[simp] theorem setQueue_out (q : Nat) (x : Queue) (s : State) : (setQueue q x s).out = s.out := rfl
/-- `setQueue` leaves `fresh` alone. -/
@[simp] theorem setQueue_fresh (q : Nat) (x : Queue) (s : State) : (setQueue q x s).fresh = s.fresh := rfl
/-- `setQueue` leaves `mem` alone. -/
@[simp] theorem setQueue_mem (q : Nat) (x : Queue) (s : State) : (setQueue q x s).mem = s.mem := rfl
/-- `setQueue` leaves `bad` alone. -/
@[simp] theorem setQueue_bad (q : Nat) (x : Queue) (s : State) : (setQueue q x s).bad = s.bad := rfl
/-- `setQueue` leaves `hdr` alone. -/
@[simp] theorem setQueue_hdr (q : Nat) (x : Queue) (s : State) : (setQueue q x s).hdr = s.hdr := rfl
/-- `setQueue` leaves `glb` alone. -/
@[simp] theorem setQueue_glb (q : Nat) (x : Queue) (s : State) : (setQueue q x s).glb = s.glb := rfl
/-- `setQueue` leaves `pwr` alone. -/
@[simp] theorem setQueue_pwr (q : Nat) (x : Queue) (s : State) : (setQueue q x s).pwr = s.pwr := rfl
/-- `setQueue` leaves `mer` alone. -/
@[simp] theorem setQueue_mer (q : Nat) (x : Queue) (s : State) : (setQueue q x s).mer = s.mer := rfl
/-- `setQueue` leaves `fbk` alone. -/
@[simp] theorem setQueue_fbk (q : Nat) (x : Queue) (s : State) : (setQueue q x s).fbk = s.fbk := rfl
/-- `setQueue` leaves `reeds` alone. -/
@[simp] theorem setQueue_reeds (q : Nat) (x : Queue) (s : State) : (setQueue q x s).reeds = s.reeds := rfl
/-- `setQueue` leaves `binding` alone. -/
@[simp] theorem setQueue_binding (q : Nat) (x : Queue) (s : State) : (setQueue q x s).binding = s.binding := rfl
/-- `setQueue` leaves `beds` alone. -/
@[simp] theorem setQueue_beds (q : Nat) (x : Queue) (s : State) : (setQueue q x s).beds = s.beds := rfl
/-- `setQueue` leaves `hbm` alone. -/
@[simp] theorem setQueue_hbm (q : Nat) (x : Queue) (s : State) : (setQueue q x s).hbm = s.hbm := rfl
/-- `setQueue` leaves `srcs` alone. -/
@[simp] theorem setQueue_srcs (q : Nat) (x : Queue) (s : State) : (setQueue q x s).srcs = s.srcs := rfl
/-- `setQueue` leaves `evr` alone. -/
@[simp] theorem setQueue_evr (q : Nat) (x : Queue) (s : State) : (setQueue q x s).evr = s.evr := rfl
/-- `setQueue` leaves `cxl` alone. -/
@[simp] theorem setQueue_cxl (q : Nat) (x : Queue) (s : State) : (setQueue q x s).cxl = s.cxl := rfl
/-- `setQueue` leaves `links` alone. -/
@[simp] theorem setQueue_links (q : Nat) (x : Queue) (s : State) : (setQueue q x s).links = s.links := rfl
/-- `setQueue` leaves `atl` alone. -/
@[simp] theorem setQueue_atl (q : Nat) (x : Queue) (s : State) : (setQueue q x s).atl = s.atl := rfl
/-- `setQueue` leaves `slc` alone. -/
@[simp] theorem setQueue_slc (q : Nat) (x : Queue) (s : State) : (setQueue q x s).slc = s.slc := rfl
/-- `setQueue` leaves `asp` alone. -/
@[simp] theorem setQueue_asp (q : Nat) (x : Queue) (s : State) : (setQueue q x s).asp = s.asp := rfl
/-- `setQueue` leaves `ssp` alone. -/
@[simp] theorem setQueue_ssp (q : Nat) (x : Queue) (s : State) : (setQueue q x s).ssp = s.ssp := rfl
/-- `setQueue` leaves `tcu` alone. -/
@[simp] theorem setQueue_tcu (q : Nat) (x : Queue) (s : State) : (setQueue q x s).tcu = s.tcu := rfl
/-- `setQueue` leaves `sec` alone. -/
@[simp] theorem setQueue_sec (q : Nat) (x : Queue) (s : State) : (setQueue q x s).sec = s.sec := rfl
/-- `setQueue` leaves `spr` alone. -/
@[simp] theorem setQueue_spr (q : Nat) (x : Queue) (s : State) : (setQueue q x s).spr = s.spr := rfl
/-- `setQueue` leaves `tst` alone. -/
@[simp] theorem setQueue_tst (q : Nat) (x : Queue) (s : State) : (setQueue q x s).tst = s.tst := rfl

/-! ### setFbk -/

/-- `setFbk` leaves `pending` alone. -/
@[simp] theorem setFbk_pending (x : Fbk) (s : State) : (setFbk x s).pending = s.pending := rfl
/-- `setFbk` leaves `out` alone. -/
@[simp] theorem setFbk_out (x : Fbk) (s : State) : (setFbk x s).out = s.out := rfl
/-- `setFbk` leaves `fresh` alone. -/
@[simp] theorem setFbk_fresh (x : Fbk) (s : State) : (setFbk x s).fresh = s.fresh := rfl
/-- `setFbk` leaves `mem` alone. -/
@[simp] theorem setFbk_mem (x : Fbk) (s : State) : (setFbk x s).mem = s.mem := rfl
/-- `setFbk` leaves `bad` alone. -/
@[simp] theorem setFbk_bad (x : Fbk) (s : State) : (setFbk x s).bad = s.bad := rfl
/-- `setFbk` leaves `hdr` alone. -/
@[simp] theorem setFbk_hdr (x : Fbk) (s : State) : (setFbk x s).hdr = s.hdr := rfl
/-- `setFbk` leaves `glb` alone. -/
@[simp] theorem setFbk_glb (x : Fbk) (s : State) : (setFbk x s).glb = s.glb := rfl
/-- `setFbk` leaves `pwr` alone. -/
@[simp] theorem setFbk_pwr (x : Fbk) (s : State) : (setFbk x s).pwr = s.pwr := rfl
/-- `setFbk` leaves `mer` alone. -/
@[simp] theorem setFbk_mer (x : Fbk) (s : State) : (setFbk x s).mer = s.mer := rfl
/-- `setFbk` leaves `reeds` alone. -/
@[simp] theorem setFbk_reeds (x : Fbk) (s : State) : (setFbk x s).reeds = s.reeds := rfl
/-- `setFbk` leaves `binding` alone. -/
@[simp] theorem setFbk_binding (x : Fbk) (s : State) : (setFbk x s).binding = s.binding := rfl
/-- `setFbk` leaves `beds` alone. -/
@[simp] theorem setFbk_beds (x : Fbk) (s : State) : (setFbk x s).beds = s.beds := rfl
/-- `setFbk` leaves `hbm` alone. -/
@[simp] theorem setFbk_hbm (x : Fbk) (s : State) : (setFbk x s).hbm = s.hbm := rfl
/-- `setFbk` leaves `srcs` alone. -/
@[simp] theorem setFbk_srcs (x : Fbk) (s : State) : (setFbk x s).srcs = s.srcs := rfl
/-- `setFbk` leaves `qmg` alone. -/
@[simp] theorem setFbk_qmg (x : Fbk) (s : State) : (setFbk x s).qmg = s.qmg := rfl
/-- `setFbk` leaves `evr` alone. -/
@[simp] theorem setFbk_evr (x : Fbk) (s : State) : (setFbk x s).evr = s.evr := rfl
/-- `setFbk` leaves `cxl` alone. -/
@[simp] theorem setFbk_cxl (x : Fbk) (s : State) : (setFbk x s).cxl = s.cxl := rfl
/-- `setFbk` leaves `links` alone. -/
@[simp] theorem setFbk_links (x : Fbk) (s : State) : (setFbk x s).links = s.links := rfl
/-- `setFbk` leaves `atl` alone. -/
@[simp] theorem setFbk_atl (x : Fbk) (s : State) : (setFbk x s).atl = s.atl := rfl
/-- `setFbk` leaves `slc` alone. -/
@[simp] theorem setFbk_slc (x : Fbk) (s : State) : (setFbk x s).slc = s.slc := rfl
/-- `setFbk` leaves `asp` alone. -/
@[simp] theorem setFbk_asp (x : Fbk) (s : State) : (setFbk x s).asp = s.asp := rfl
/-- `setFbk` leaves `ssp` alone. -/
@[simp] theorem setFbk_ssp (x : Fbk) (s : State) : (setFbk x s).ssp = s.ssp := rfl
/-- `setFbk` leaves `tcu` alone. -/
@[simp] theorem setFbk_tcu (x : Fbk) (s : State) : (setFbk x s).tcu = s.tcu := rfl
/-- `setFbk` leaves `sec` alone. -/
@[simp] theorem setFbk_sec (x : Fbk) (s : State) : (setFbk x s).sec = s.sec := rfl
/-- `setFbk` leaves `spr` alone. -/
@[simp] theorem setFbk_spr (x : Fbk) (s : State) : (setFbk x s).spr = s.spr := rfl
/-- `setFbk` leaves `tst` alone. -/
@[simp] theorem setFbk_tst (x : Fbk) (s : State) : (setFbk x s).tst = s.tst := rfl

/-! ### setPwr -/

/-- `setPwr` leaves `pending` alone. -/
@[simp] theorem setPwr_pending (x : Pwr) (s : State) : (setPwr x s).pending = s.pending := rfl
/-- `setPwr` leaves `out` alone. -/
@[simp] theorem setPwr_out (x : Pwr) (s : State) : (setPwr x s).out = s.out := rfl
/-- `setPwr` leaves `fresh` alone. -/
@[simp] theorem setPwr_fresh (x : Pwr) (s : State) : (setPwr x s).fresh = s.fresh := rfl
/-- `setPwr` leaves `mem` alone. -/
@[simp] theorem setPwr_mem (x : Pwr) (s : State) : (setPwr x s).mem = s.mem := rfl
/-- `setPwr` leaves `bad` alone. -/
@[simp] theorem setPwr_bad (x : Pwr) (s : State) : (setPwr x s).bad = s.bad := rfl
/-- `setPwr` leaves `hdr` alone. -/
@[simp] theorem setPwr_hdr (x : Pwr) (s : State) : (setPwr x s).hdr = s.hdr := rfl
/-- `setPwr` leaves `glb` alone. -/
@[simp] theorem setPwr_glb (x : Pwr) (s : State) : (setPwr x s).glb = s.glb := rfl
/-- `setPwr` leaves `mer` alone. -/
@[simp] theorem setPwr_mer (x : Pwr) (s : State) : (setPwr x s).mer = s.mer := rfl
/-- `setPwr` leaves `fbk` alone. -/
@[simp] theorem setPwr_fbk (x : Pwr) (s : State) : (setPwr x s).fbk = s.fbk := rfl
/-- `setPwr` leaves `reeds` alone. -/
@[simp] theorem setPwr_reeds (x : Pwr) (s : State) : (setPwr x s).reeds = s.reeds := rfl
/-- `setPwr` leaves `binding` alone. -/
@[simp] theorem setPwr_binding (x : Pwr) (s : State) : (setPwr x s).binding = s.binding := rfl
/-- `setPwr` leaves `beds` alone. -/
@[simp] theorem setPwr_beds (x : Pwr) (s : State) : (setPwr x s).beds = s.beds := rfl
/-- `setPwr` leaves `hbm` alone. -/
@[simp] theorem setPwr_hbm (x : Pwr) (s : State) : (setPwr x s).hbm = s.hbm := rfl
/-- `setPwr` leaves `srcs` alone. -/
@[simp] theorem setPwr_srcs (x : Pwr) (s : State) : (setPwr x s).srcs = s.srcs := rfl
/-- `setPwr` leaves `qmg` alone. -/
@[simp] theorem setPwr_qmg (x : Pwr) (s : State) : (setPwr x s).qmg = s.qmg := rfl
/-- `setPwr` leaves `evr` alone. -/
@[simp] theorem setPwr_evr (x : Pwr) (s : State) : (setPwr x s).evr = s.evr := rfl
/-- `setPwr` leaves `cxl` alone. -/
@[simp] theorem setPwr_cxl (x : Pwr) (s : State) : (setPwr x s).cxl = s.cxl := rfl
/-- `setPwr` leaves `links` alone. -/
@[simp] theorem setPwr_links (x : Pwr) (s : State) : (setPwr x s).links = s.links := rfl
/-- `setPwr` leaves `atl` alone. -/
@[simp] theorem setPwr_atl (x : Pwr) (s : State) : (setPwr x s).atl = s.atl := rfl
/-- `setPwr` leaves `slc` alone. -/
@[simp] theorem setPwr_slc (x : Pwr) (s : State) : (setPwr x s).slc = s.slc := rfl
/-- `setPwr` leaves `asp` alone. -/
@[simp] theorem setPwr_asp (x : Pwr) (s : State) : (setPwr x s).asp = s.asp := rfl
/-- `setPwr` leaves `ssp` alone. -/
@[simp] theorem setPwr_ssp (x : Pwr) (s : State) : (setPwr x s).ssp = s.ssp := rfl
/-- `setPwr` leaves `tcu` alone. -/
@[simp] theorem setPwr_tcu (x : Pwr) (s : State) : (setPwr x s).tcu = s.tcu := rfl
/-- `setPwr` leaves `sec` alone. -/
@[simp] theorem setPwr_sec (x : Pwr) (s : State) : (setPwr x s).sec = s.sec := rfl
/-- `setPwr` leaves `spr` alone. -/
@[simp] theorem setPwr_spr (x : Pwr) (s : State) : (setPwr x s).spr = s.spr := rfl
/-- `setPwr` leaves `tst` alone. -/
@[simp] theorem setPwr_tst (x : Pwr) (s : State) : (setPwr x s).tst = s.tst := rfl

/-! ### setMer -/

/-- `setMer` leaves `pending` alone. -/
@[simp] theorem setMer_pending (x : Mer) (s : State) : (setMer x s).pending = s.pending := rfl
/-- `setMer` leaves `out` alone. -/
@[simp] theorem setMer_out (x : Mer) (s : State) : (setMer x s).out = s.out := rfl
/-- `setMer` leaves `fresh` alone. -/
@[simp] theorem setMer_fresh (x : Mer) (s : State) : (setMer x s).fresh = s.fresh := rfl
/-- `setMer` leaves `mem` alone. -/
@[simp] theorem setMer_mem (x : Mer) (s : State) : (setMer x s).mem = s.mem := rfl
/-- `setMer` leaves `bad` alone. -/
@[simp] theorem setMer_bad (x : Mer) (s : State) : (setMer x s).bad = s.bad := rfl
/-- `setMer` leaves `hdr` alone. -/
@[simp] theorem setMer_hdr (x : Mer) (s : State) : (setMer x s).hdr = s.hdr := rfl
/-- `setMer` leaves `glb` alone. -/
@[simp] theorem setMer_glb (x : Mer) (s : State) : (setMer x s).glb = s.glb := rfl
/-- `setMer` leaves `pwr` alone. -/
@[simp] theorem setMer_pwr (x : Mer) (s : State) : (setMer x s).pwr = s.pwr := rfl
/-- `setMer` leaves `fbk` alone. -/
@[simp] theorem setMer_fbk (x : Mer) (s : State) : (setMer x s).fbk = s.fbk := rfl
/-- `setMer` leaves `reeds` alone. -/
@[simp] theorem setMer_reeds (x : Mer) (s : State) : (setMer x s).reeds = s.reeds := rfl
/-- `setMer` leaves `binding` alone. -/
@[simp] theorem setMer_binding (x : Mer) (s : State) : (setMer x s).binding = s.binding := rfl
/-- `setMer` leaves `beds` alone. -/
@[simp] theorem setMer_beds (x : Mer) (s : State) : (setMer x s).beds = s.beds := rfl
/-- `setMer` leaves `hbm` alone. -/
@[simp] theorem setMer_hbm (x : Mer) (s : State) : (setMer x s).hbm = s.hbm := rfl
/-- `setMer` leaves `srcs` alone. -/
@[simp] theorem setMer_srcs (x : Mer) (s : State) : (setMer x s).srcs = s.srcs := rfl
/-- `setMer` leaves `qmg` alone. -/
@[simp] theorem setMer_qmg (x : Mer) (s : State) : (setMer x s).qmg = s.qmg := rfl
/-- `setMer` leaves `evr` alone. -/
@[simp] theorem setMer_evr (x : Mer) (s : State) : (setMer x s).evr = s.evr := rfl
/-- `setMer` leaves `cxl` alone. -/
@[simp] theorem setMer_cxl (x : Mer) (s : State) : (setMer x s).cxl = s.cxl := rfl
/-- `setMer` leaves `links` alone. -/
@[simp] theorem setMer_links (x : Mer) (s : State) : (setMer x s).links = s.links := rfl
/-- `setMer` leaves `atl` alone. -/
@[simp] theorem setMer_atl (x : Mer) (s : State) : (setMer x s).atl = s.atl := rfl
/-- `setMer` leaves `slc` alone. -/
@[simp] theorem setMer_slc (x : Mer) (s : State) : (setMer x s).slc = s.slc := rfl
/-- `setMer` leaves `asp` alone. -/
@[simp] theorem setMer_asp (x : Mer) (s : State) : (setMer x s).asp = s.asp := rfl
/-- `setMer` leaves `ssp` alone. -/
@[simp] theorem setMer_ssp (x : Mer) (s : State) : (setMer x s).ssp = s.ssp := rfl
/-- `setMer` leaves `tcu` alone. -/
@[simp] theorem setMer_tcu (x : Mer) (s : State) : (setMer x s).tcu = s.tcu := rfl
/-- `setMer` leaves `sec` alone. -/
@[simp] theorem setMer_sec (x : Mer) (s : State) : (setMer x s).sec = s.sec := rfl
/-- `setMer` leaves `spr` alone. -/
@[simp] theorem setMer_spr (x : Mer) (s : State) : (setMer x s).spr = s.spr := rfl
/-- `setMer` leaves `tst` alone. -/
@[simp] theorem setMer_tst (x : Mer) (s : State) : (setMer x s).tst = s.tst := rfl

/-! ### setEngine -/

/-- `setEngine` leaves `pending` alone. -/
@[simp] theorem setEngine_pending (b : Nat) (x : Engine) (s : State) : (setEngine b x s).pending = s.pending := rfl
/-- `setEngine` leaves `out` alone. -/
@[simp] theorem setEngine_out (b : Nat) (x : Engine) (s : State) : (setEngine b x s).out = s.out := rfl
/-- `setEngine` leaves `fresh` alone. -/
@[simp] theorem setEngine_fresh (b : Nat) (x : Engine) (s : State) : (setEngine b x s).fresh = s.fresh := rfl
/-- `setEngine` leaves `mem` alone. -/
@[simp] theorem setEngine_mem (b : Nat) (x : Engine) (s : State) : (setEngine b x s).mem = s.mem := rfl
/-- `setEngine` leaves `bad` alone. -/
@[simp] theorem setEngine_bad (b : Nat) (x : Engine) (s : State) : (setEngine b x s).bad = s.bad := rfl
/-- `setEngine` leaves `hdr` alone. -/
@[simp] theorem setEngine_hdr (b : Nat) (x : Engine) (s : State) : (setEngine b x s).hdr = s.hdr := rfl
/-- `setEngine` leaves `glb` alone. -/
@[simp] theorem setEngine_glb (b : Nat) (x : Engine) (s : State) : (setEngine b x s).glb = s.glb := rfl
/-- `setEngine` leaves `pwr` alone. -/
@[simp] theorem setEngine_pwr (b : Nat) (x : Engine) (s : State) : (setEngine b x s).pwr = s.pwr := rfl
/-- `setEngine` leaves `mer` alone. -/
@[simp] theorem setEngine_mer (b : Nat) (x : Engine) (s : State) : (setEngine b x s).mer = s.mer := rfl
/-- `setEngine` leaves `fbk` alone. -/
@[simp] theorem setEngine_fbk (b : Nat) (x : Engine) (s : State) : (setEngine b x s).fbk = s.fbk := rfl
/-- `setEngine` leaves `reeds` alone. -/
@[simp] theorem setEngine_reeds (b : Nat) (x : Engine) (s : State) : (setEngine b x s).reeds = s.reeds := rfl
/-- `setEngine` leaves `binding` alone. -/
@[simp] theorem setEngine_binding (b : Nat) (x : Engine) (s : State) : (setEngine b x s).binding = s.binding := rfl
/-- `setEngine` leaves `beds` alone. -/
@[simp] theorem setEngine_beds (b : Nat) (x : Engine) (s : State) : (setEngine b x s).beds = s.beds := rfl
/-- `setEngine` leaves `hbm` alone. -/
@[simp] theorem setEngine_hbm (b : Nat) (x : Engine) (s : State) : (setEngine b x s).hbm = s.hbm := rfl
/-- `setEngine` leaves `srcs` alone. -/
@[simp] theorem setEngine_srcs (b : Nat) (x : Engine) (s : State) : (setEngine b x s).srcs = s.srcs := rfl
/-- `setEngine` leaves `qmg` alone. -/
@[simp] theorem setEngine_qmg (b : Nat) (x : Engine) (s : State) : (setEngine b x s).qmg = s.qmg := rfl
/-- `setEngine` leaves `evr` alone. -/
@[simp] theorem setEngine_evr (b : Nat) (x : Engine) (s : State) : (setEngine b x s).evr = s.evr := rfl
/-- `setEngine` leaves `cxl` alone. -/
@[simp] theorem setEngine_cxl (b : Nat) (x : Engine) (s : State) : (setEngine b x s).cxl = s.cxl := rfl
/-- `setEngine` leaves `links` alone. -/
@[simp] theorem setEngine_links (b : Nat) (x : Engine) (s : State) : (setEngine b x s).links = s.links := rfl
/-- `setEngine` leaves `atl` alone. -/
@[simp] theorem setEngine_atl (b : Nat) (x : Engine) (s : State) : (setEngine b x s).atl = s.atl := rfl
/-- `setEngine` leaves `asp` alone. -/
@[simp] theorem setEngine_asp (b : Nat) (x : Engine) (s : State) : (setEngine b x s).asp = s.asp := rfl
/-- `setEngine` leaves `ssp` alone. -/
@[simp] theorem setEngine_ssp (b : Nat) (x : Engine) (s : State) : (setEngine b x s).ssp = s.ssp := rfl
/-- `setEngine` leaves `tcu` alone. -/
@[simp] theorem setEngine_tcu (b : Nat) (x : Engine) (s : State) : (setEngine b x s).tcu = s.tcu := rfl
/-- `setEngine` leaves `sec` alone. -/
@[simp] theorem setEngine_sec (b : Nat) (x : Engine) (s : State) : (setEngine b x s).sec = s.sec := rfl
/-- `setEngine` leaves `spr` alone. -/
@[simp] theorem setEngine_spr (b : Nat) (x : Engine) (s : State) : (setEngine b x s).spr = s.spr := rfl
/-- `setEngine` leaves `tst` alone. -/
@[simp] theorem setEngine_tst (b : Nat) (x : Engine) (s : State) : (setEngine b x s).tst = s.tst := rfl

/-! ### setStream -/

/-- `setStream` leaves `pending` alone. -/
@[simp] theorem setStream_pending (b i : Nat) (x : Stream) (s : State) : (setStream b i x s).pending = s.pending := rfl
/-- `setStream` leaves `out` alone. -/
@[simp] theorem setStream_out (b i : Nat) (x : Stream) (s : State) : (setStream b i x s).out = s.out := rfl
/-- `setStream` leaves `fresh` alone. -/
@[simp] theorem setStream_fresh (b i : Nat) (x : Stream) (s : State) : (setStream b i x s).fresh = s.fresh := rfl
/-- `setStream` leaves `mem` alone. -/
@[simp] theorem setStream_mem (b i : Nat) (x : Stream) (s : State) : (setStream b i x s).mem = s.mem := rfl
/-- `setStream` leaves `bad` alone. -/
@[simp] theorem setStream_bad (b i : Nat) (x : Stream) (s : State) : (setStream b i x s).bad = s.bad := rfl
/-- `setStream` leaves `hdr` alone. -/
@[simp] theorem setStream_hdr (b i : Nat) (x : Stream) (s : State) : (setStream b i x s).hdr = s.hdr := rfl
/-- `setStream` leaves `glb` alone. -/
@[simp] theorem setStream_glb (b i : Nat) (x : Stream) (s : State) : (setStream b i x s).glb = s.glb := rfl
/-- `setStream` leaves `pwr` alone. -/
@[simp] theorem setStream_pwr (b i : Nat) (x : Stream) (s : State) : (setStream b i x s).pwr = s.pwr := rfl
/-- `setStream` leaves `mer` alone. -/
@[simp] theorem setStream_mer (b i : Nat) (x : Stream) (s : State) : (setStream b i x s).mer = s.mer := rfl
/-- `setStream` leaves `fbk` alone. -/
@[simp] theorem setStream_fbk (b i : Nat) (x : Stream) (s : State) : (setStream b i x s).fbk = s.fbk := rfl
/-- `setStream` leaves `reeds` alone. -/
@[simp] theorem setStream_reeds (b i : Nat) (x : Stream) (s : State) : (setStream b i x s).reeds = s.reeds := rfl
/-- `setStream` leaves `binding` alone. -/
@[simp] theorem setStream_binding (b i : Nat) (x : Stream) (s : State) : (setStream b i x s).binding = s.binding := rfl
/-- `setStream` leaves `beds` alone. -/
@[simp] theorem setStream_beds (b i : Nat) (x : Stream) (s : State) : (setStream b i x s).beds = s.beds := rfl
/-- `setStream` leaves `hbm` alone. -/
@[simp] theorem setStream_hbm (b i : Nat) (x : Stream) (s : State) : (setStream b i x s).hbm = s.hbm := rfl
/-- `setStream` leaves `srcs` alone. -/
@[simp] theorem setStream_srcs (b i : Nat) (x : Stream) (s : State) : (setStream b i x s).srcs = s.srcs := rfl
/-- `setStream` leaves `qmg` alone. -/
@[simp] theorem setStream_qmg (b i : Nat) (x : Stream) (s : State) : (setStream b i x s).qmg = s.qmg := rfl
/-- `setStream` leaves `evr` alone. -/
@[simp] theorem setStream_evr (b i : Nat) (x : Stream) (s : State) : (setStream b i x s).evr = s.evr := rfl
/-- `setStream` leaves `cxl` alone. -/
@[simp] theorem setStream_cxl (b i : Nat) (x : Stream) (s : State) : (setStream b i x s).cxl = s.cxl := rfl
/-- `setStream` leaves `links` alone. -/
@[simp] theorem setStream_links (b i : Nat) (x : Stream) (s : State) : (setStream b i x s).links = s.links := rfl
/-- `setStream` leaves `atl` alone. -/
@[simp] theorem setStream_atl (b i : Nat) (x : Stream) (s : State) : (setStream b i x s).atl = s.atl := rfl
/-- `setStream` leaves `asp` alone. -/
@[simp] theorem setStream_asp (b i : Nat) (x : Stream) (s : State) : (setStream b i x s).asp = s.asp := rfl
/-- `setStream` leaves `ssp` alone. -/
@[simp] theorem setStream_ssp (b i : Nat) (x : Stream) (s : State) : (setStream b i x s).ssp = s.ssp := rfl
/-- `setStream` leaves `tcu` alone. -/
@[simp] theorem setStream_tcu (b i : Nat) (x : Stream) (s : State) : (setStream b i x s).tcu = s.tcu := rfl
/-- `setStream` leaves `sec` alone. -/
@[simp] theorem setStream_sec (b i : Nat) (x : Stream) (s : State) : (setStream b i x s).sec = s.sec := rfl
/-- `setStream` leaves `spr` alone. -/
@[simp] theorem setStream_spr (b i : Nat) (x : Stream) (s : State) : (setStream b i x s).spr = s.spr := rfl
/-- `setStream` leaves `tst` alone. -/
@[simp] theorem setStream_tst (b i : Nat) (x : Stream) (s : State) : (setStream b i x s).tst = s.tst := rfl

/-! ### setSpr -/

/-- `setSpr` leaves `pending` alone. -/
@[simp] theorem setSpr_pending (x : Spr) (s : State) : (setSpr x s).pending = s.pending := rfl
/-- `setSpr` leaves `out` alone. -/
@[simp] theorem setSpr_out (x : Spr) (s : State) : (setSpr x s).out = s.out := rfl
/-- `setSpr` leaves `fresh` alone. -/
@[simp] theorem setSpr_fresh (x : Spr) (s : State) : (setSpr x s).fresh = s.fresh := rfl
/-- `setSpr` leaves `mem` alone. -/
@[simp] theorem setSpr_mem (x : Spr) (s : State) : (setSpr x s).mem = s.mem := rfl
/-- `setSpr` leaves `bad` alone. -/
@[simp] theorem setSpr_bad (x : Spr) (s : State) : (setSpr x s).bad = s.bad := rfl
/-- `setSpr` leaves `hdr` alone. -/
@[simp] theorem setSpr_hdr (x : Spr) (s : State) : (setSpr x s).hdr = s.hdr := rfl
/-- `setSpr` leaves `glb` alone. -/
@[simp] theorem setSpr_glb (x : Spr) (s : State) : (setSpr x s).glb = s.glb := rfl
/-- `setSpr` leaves `pwr` alone. -/
@[simp] theorem setSpr_pwr (x : Spr) (s : State) : (setSpr x s).pwr = s.pwr := rfl
/-- `setSpr` leaves `mer` alone. -/
@[simp] theorem setSpr_mer (x : Spr) (s : State) : (setSpr x s).mer = s.mer := rfl
/-- `setSpr` leaves `fbk` alone. -/
@[simp] theorem setSpr_fbk (x : Spr) (s : State) : (setSpr x s).fbk = s.fbk := rfl
/-- `setSpr` leaves `reeds` alone. -/
@[simp] theorem setSpr_reeds (x : Spr) (s : State) : (setSpr x s).reeds = s.reeds := rfl
/-- `setSpr` leaves `binding` alone. -/
@[simp] theorem setSpr_binding (x : Spr) (s : State) : (setSpr x s).binding = s.binding := rfl
/-- `setSpr` leaves `beds` alone. -/
@[simp] theorem setSpr_beds (x : Spr) (s : State) : (setSpr x s).beds = s.beds := rfl
/-- `setSpr` leaves `hbm` alone. -/
@[simp] theorem setSpr_hbm (x : Spr) (s : State) : (setSpr x s).hbm = s.hbm := rfl
/-- `setSpr` leaves `srcs` alone. -/
@[simp] theorem setSpr_srcs (x : Spr) (s : State) : (setSpr x s).srcs = s.srcs := rfl
/-- `setSpr` leaves `qmg` alone. -/
@[simp] theorem setSpr_qmg (x : Spr) (s : State) : (setSpr x s).qmg = s.qmg := rfl
/-- `setSpr` leaves `evr` alone. -/
@[simp] theorem setSpr_evr (x : Spr) (s : State) : (setSpr x s).evr = s.evr := rfl
/-- `setSpr` leaves `cxl` alone. -/
@[simp] theorem setSpr_cxl (x : Spr) (s : State) : (setSpr x s).cxl = s.cxl := rfl
/-- `setSpr` leaves `links` alone. -/
@[simp] theorem setSpr_links (x : Spr) (s : State) : (setSpr x s).links = s.links := rfl
/-- `setSpr` leaves `atl` alone. -/
@[simp] theorem setSpr_atl (x : Spr) (s : State) : (setSpr x s).atl = s.atl := rfl
/-- `setSpr` leaves `slc` alone. -/
@[simp] theorem setSpr_slc (x : Spr) (s : State) : (setSpr x s).slc = s.slc := rfl
/-- `setSpr` leaves `asp` alone. -/
@[simp] theorem setSpr_asp (x : Spr) (s : State) : (setSpr x s).asp = s.asp := rfl
/-- `setSpr` leaves `ssp` alone. -/
@[simp] theorem setSpr_ssp (x : Spr) (s : State) : (setSpr x s).ssp = s.ssp := rfl
/-- `setSpr` leaves `tcu` alone. -/
@[simp] theorem setSpr_tcu (x : Spr) (s : State) : (setSpr x s).tcu = s.tcu := rfl
/-- `setSpr` leaves `sec` alone. -/
@[simp] theorem setSpr_sec (x : Spr) (s : State) : (setSpr x s).sec = s.sec := rfl
/-- `setSpr` leaves `tst` alone. -/
@[simp] theorem setSpr_tst (x : Spr) (s : State) : (setSpr x s).tst = s.tst := rfl

/-! ### setTst -/

/-- `setTst` leaves `pending` alone. -/
@[simp] theorem setTst_pending (x : Tst) (s : State) : (setTst x s).pending = s.pending := rfl
/-- `setTst` leaves `out` alone. -/
@[simp] theorem setTst_out (x : Tst) (s : State) : (setTst x s).out = s.out := rfl
/-- `setTst` leaves `fresh` alone. -/
@[simp] theorem setTst_fresh (x : Tst) (s : State) : (setTst x s).fresh = s.fresh := rfl
/-- `setTst` leaves `mem` alone. -/
@[simp] theorem setTst_mem (x : Tst) (s : State) : (setTst x s).mem = s.mem := rfl
/-- `setTst` leaves `bad` alone. -/
@[simp] theorem setTst_bad (x : Tst) (s : State) : (setTst x s).bad = s.bad := rfl
/-- `setTst` leaves `hdr` alone. -/
@[simp] theorem setTst_hdr (x : Tst) (s : State) : (setTst x s).hdr = s.hdr := rfl
/-- `setTst` leaves `glb` alone. -/
@[simp] theorem setTst_glb (x : Tst) (s : State) : (setTst x s).glb = s.glb := rfl
/-- `setTst` leaves `pwr` alone. -/
@[simp] theorem setTst_pwr (x : Tst) (s : State) : (setTst x s).pwr = s.pwr := rfl
/-- `setTst` leaves `mer` alone. -/
@[simp] theorem setTst_mer (x : Tst) (s : State) : (setTst x s).mer = s.mer := rfl
/-- `setTst` leaves `fbk` alone. -/
@[simp] theorem setTst_fbk (x : Tst) (s : State) : (setTst x s).fbk = s.fbk := rfl
/-- `setTst` leaves `reeds` alone. -/
@[simp] theorem setTst_reeds (x : Tst) (s : State) : (setTst x s).reeds = s.reeds := rfl
/-- `setTst` leaves `binding` alone. -/
@[simp] theorem setTst_binding (x : Tst) (s : State) : (setTst x s).binding = s.binding := rfl
/-- `setTst` leaves `beds` alone. -/
@[simp] theorem setTst_beds (x : Tst) (s : State) : (setTst x s).beds = s.beds := rfl
/-- `setTst` leaves `hbm` alone. -/
@[simp] theorem setTst_hbm (x : Tst) (s : State) : (setTst x s).hbm = s.hbm := rfl
/-- `setTst` leaves `srcs` alone. -/
@[simp] theorem setTst_srcs (x : Tst) (s : State) : (setTst x s).srcs = s.srcs := rfl
/-- `setTst` leaves `qmg` alone. -/
@[simp] theorem setTst_qmg (x : Tst) (s : State) : (setTst x s).qmg = s.qmg := rfl
/-- `setTst` leaves `evr` alone. -/
@[simp] theorem setTst_evr (x : Tst) (s : State) : (setTst x s).evr = s.evr := rfl
/-- `setTst` leaves `cxl` alone. -/
@[simp] theorem setTst_cxl (x : Tst) (s : State) : (setTst x s).cxl = s.cxl := rfl
/-- `setTst` leaves `links` alone. -/
@[simp] theorem setTst_links (x : Tst) (s : State) : (setTst x s).links = s.links := rfl
/-- `setTst` leaves `atl` alone. -/
@[simp] theorem setTst_atl (x : Tst) (s : State) : (setTst x s).atl = s.atl := rfl
/-- `setTst` leaves `slc` alone. -/
@[simp] theorem setTst_slc (x : Tst) (s : State) : (setTst x s).slc = s.slc := rfl
/-- `setTst` leaves `asp` alone. -/
@[simp] theorem setTst_asp (x : Tst) (s : State) : (setTst x s).asp = s.asp := rfl
/-- `setTst` leaves `ssp` alone. -/
@[simp] theorem setTst_ssp (x : Tst) (s : State) : (setTst x s).ssp = s.ssp := rfl
/-- `setTst` leaves `tcu` alone. -/
@[simp] theorem setTst_tcu (x : Tst) (s : State) : (setTst x s).tcu = s.tcu := rfl
/-- `setTst` leaves `sec` alone. -/
@[simp] theorem setTst_sec (x : Tst) (s : State) : (setTst x s).sec = s.sec := rfl
/-- `setTst` leaves `spr` alone. -/
@[simp] theorem setTst_spr (x : Tst) (s : State) : (setTst x s).spr = s.spr := rfl

/-! ### setSec -/

/-- `setSec` leaves `pending` alone. -/
@[simp] theorem setSec_pending (x : Sec) (s : State) : (setSec x s).pending = s.pending := rfl
/-- `setSec` leaves `out` alone. -/
@[simp] theorem setSec_out (x : Sec) (s : State) : (setSec x s).out = s.out := rfl
/-- `setSec` leaves `fresh` alone. -/
@[simp] theorem setSec_fresh (x : Sec) (s : State) : (setSec x s).fresh = s.fresh := rfl
/-- `setSec` leaves `mem` alone. -/
@[simp] theorem setSec_mem (x : Sec) (s : State) : (setSec x s).mem = s.mem := rfl
/-- `setSec` leaves `bad` alone. -/
@[simp] theorem setSec_bad (x : Sec) (s : State) : (setSec x s).bad = s.bad := rfl
/-- `setSec` leaves `hdr` alone. -/
@[simp] theorem setSec_hdr (x : Sec) (s : State) : (setSec x s).hdr = s.hdr := rfl
/-- `setSec` leaves `glb` alone. -/
@[simp] theorem setSec_glb (x : Sec) (s : State) : (setSec x s).glb = s.glb := rfl
/-- `setSec` leaves `pwr` alone. -/
@[simp] theorem setSec_pwr (x : Sec) (s : State) : (setSec x s).pwr = s.pwr := rfl
/-- `setSec` leaves `mer` alone. -/
@[simp] theorem setSec_mer (x : Sec) (s : State) : (setSec x s).mer = s.mer := rfl
/-- `setSec` leaves `fbk` alone. -/
@[simp] theorem setSec_fbk (x : Sec) (s : State) : (setSec x s).fbk = s.fbk := rfl
/-- `setSec` leaves `reeds` alone. -/
@[simp] theorem setSec_reeds (x : Sec) (s : State) : (setSec x s).reeds = s.reeds := rfl
/-- `setSec` leaves `binding` alone. -/
@[simp] theorem setSec_binding (x : Sec) (s : State) : (setSec x s).binding = s.binding := rfl
/-- `setSec` leaves `beds` alone. -/
@[simp] theorem setSec_beds (x : Sec) (s : State) : (setSec x s).beds = s.beds := rfl
/-- `setSec` leaves `hbm` alone. -/
@[simp] theorem setSec_hbm (x : Sec) (s : State) : (setSec x s).hbm = s.hbm := rfl
/-- `setSec` leaves `srcs` alone. -/
@[simp] theorem setSec_srcs (x : Sec) (s : State) : (setSec x s).srcs = s.srcs := rfl
/-- `setSec` leaves `qmg` alone. -/
@[simp] theorem setSec_qmg (x : Sec) (s : State) : (setSec x s).qmg = s.qmg := rfl
/-- `setSec` leaves `evr` alone. -/
@[simp] theorem setSec_evr (x : Sec) (s : State) : (setSec x s).evr = s.evr := rfl
/-- `setSec` leaves `cxl` alone. -/
@[simp] theorem setSec_cxl (x : Sec) (s : State) : (setSec x s).cxl = s.cxl := rfl
/-- `setSec` leaves `links` alone. -/
@[simp] theorem setSec_links (x : Sec) (s : State) : (setSec x s).links = s.links := rfl
/-- `setSec` leaves `atl` alone. -/
@[simp] theorem setSec_atl (x : Sec) (s : State) : (setSec x s).atl = s.atl := rfl
/-- `setSec` leaves `slc` alone. -/
@[simp] theorem setSec_slc (x : Sec) (s : State) : (setSec x s).slc = s.slc := rfl
/-- `setSec` leaves `asp` alone. -/
@[simp] theorem setSec_asp (x : Sec) (s : State) : (setSec x s).asp = s.asp := rfl
/-- `setSec` leaves `ssp` alone. -/
@[simp] theorem setSec_ssp (x : Sec) (s : State) : (setSec x s).ssp = s.ssp := rfl
/-- `setSec` leaves `tcu` alone. -/
@[simp] theorem setSec_tcu (x : Sec) (s : State) : (setSec x s).tcu = s.tcu := rfl
/-- `setSec` leaves `spr` alone. -/
@[simp] theorem setSec_spr (x : Sec) (s : State) : (setSec x s).spr = s.spr := rfl
/-- `setSec` leaves `tst` alone. -/
@[simp] theorem setSec_tst (x : Sec) (s : State) : (setSec x s).tst = s.tst := rfl

/-! ### fbRaise -/

/-- `fbRaise` leaves `pending` alone. -/
@[simp] theorem fbRaise_pending (code : Nat) (p : W64) (s : State) : (fbRaise code p s).pending = s.pending := rfl
/-- `fbRaise` leaves `out` alone. -/
@[simp] theorem fbRaise_out (code : Nat) (p : W64) (s : State) : (fbRaise code p s).out = s.out := rfl
/-- `fbRaise` leaves `fresh` alone. -/
@[simp] theorem fbRaise_fresh (code : Nat) (p : W64) (s : State) : (fbRaise code p s).fresh = s.fresh := rfl
/-- `fbRaise` leaves `mem` alone. -/
@[simp] theorem fbRaise_mem (code : Nat) (p : W64) (s : State) : (fbRaise code p s).mem = s.mem := rfl
/-- `fbRaise` leaves `bad` alone. -/
@[simp] theorem fbRaise_bad (code : Nat) (p : W64) (s : State) : (fbRaise code p s).bad = s.bad := rfl
/-- `fbRaise` leaves `hdr` alone. -/
@[simp] theorem fbRaise_hdr (code : Nat) (p : W64) (s : State) : (fbRaise code p s).hdr = s.hdr := rfl
/-- `fbRaise` leaves `glb` alone. -/
@[simp] theorem fbRaise_glb (code : Nat) (p : W64) (s : State) : (fbRaise code p s).glb = s.glb := rfl
/-- `fbRaise` leaves `pwr` alone. -/
@[simp] theorem fbRaise_pwr (code : Nat) (p : W64) (s : State) : (fbRaise code p s).pwr = s.pwr := rfl
/-- `fbRaise` leaves `mer` alone. -/
@[simp] theorem fbRaise_mer (code : Nat) (p : W64) (s : State) : (fbRaise code p s).mer = s.mer := rfl
/-- `fbRaise` leaves `reeds` alone. -/
@[simp] theorem fbRaise_reeds (code : Nat) (p : W64) (s : State) : (fbRaise code p s).reeds = s.reeds := rfl
/-- `fbRaise` leaves `binding` alone. -/
@[simp] theorem fbRaise_binding (code : Nat) (p : W64) (s : State) : (fbRaise code p s).binding = s.binding := rfl
/-- `fbRaise` leaves `beds` alone. -/
@[simp] theorem fbRaise_beds (code : Nat) (p : W64) (s : State) : (fbRaise code p s).beds = s.beds := rfl
/-- `fbRaise` leaves `hbm` alone. -/
@[simp] theorem fbRaise_hbm (code : Nat) (p : W64) (s : State) : (fbRaise code p s).hbm = s.hbm := rfl
/-- `fbRaise` leaves `srcs` alone. -/
@[simp] theorem fbRaise_srcs (code : Nat) (p : W64) (s : State) : (fbRaise code p s).srcs = s.srcs := rfl
/-- `fbRaise` leaves `qmg` alone. -/
@[simp] theorem fbRaise_qmg (code : Nat) (p : W64) (s : State) : (fbRaise code p s).qmg = s.qmg := rfl
/-- `fbRaise` leaves `evr` alone. -/
@[simp] theorem fbRaise_evr (code : Nat) (p : W64) (s : State) : (fbRaise code p s).evr = s.evr := rfl
/-- `fbRaise` leaves `cxl` alone. -/
@[simp] theorem fbRaise_cxl (code : Nat) (p : W64) (s : State) : (fbRaise code p s).cxl = s.cxl := rfl
/-- `fbRaise` leaves `links` alone. -/
@[simp] theorem fbRaise_links (code : Nat) (p : W64) (s : State) : (fbRaise code p s).links = s.links := rfl
/-- `fbRaise` leaves `atl` alone. -/
@[simp] theorem fbRaise_atl (code : Nat) (p : W64) (s : State) : (fbRaise code p s).atl = s.atl := rfl
/-- `fbRaise` leaves `slc` alone. -/
@[simp] theorem fbRaise_slc (code : Nat) (p : W64) (s : State) : (fbRaise code p s).slc = s.slc := rfl
/-- `fbRaise` leaves `asp` alone. -/
@[simp] theorem fbRaise_asp (code : Nat) (p : W64) (s : State) : (fbRaise code p s).asp = s.asp := rfl
/-- `fbRaise` leaves `ssp` alone. -/
@[simp] theorem fbRaise_ssp (code : Nat) (p : W64) (s : State) : (fbRaise code p s).ssp = s.ssp := rfl
/-- `fbRaise` leaves `tcu` alone. -/
@[simp] theorem fbRaise_tcu (code : Nat) (p : W64) (s : State) : (fbRaise code p s).tcu = s.tcu := rfl
/-- `fbRaise` leaves `sec` alone. -/
@[simp] theorem fbRaise_sec (code : Nat) (p : W64) (s : State) : (fbRaise code p s).sec = s.sec := rfl
/-- `fbRaise` leaves `spr` alone. -/
@[simp] theorem fbRaise_spr (code : Nat) (p : W64) (s : State) : (fbRaise code p s).spr = s.spr := rfl
/-- `fbRaise` leaves `tst` alone. -/
@[simp] theorem fbRaise_tst (code : Nat) (p : W64) (s : State) : (fbRaise code p s).tst = s.tst := rfl

/-! ### send -/

/-- `send` leaves `pending` alone. -/
@[simp] theorem send_pending (o : Out) (s : State) : (send o s).pending = s.pending := rfl
/-- `send` leaves `fresh` alone. -/
@[simp] theorem send_fresh (o : Out) (s : State) : (send o s).fresh = s.fresh := rfl
/-- `send` leaves `mem` alone. -/
@[simp] theorem send_mem (o : Out) (s : State) : (send o s).mem = s.mem := rfl
/-- `send` leaves `bad` alone. -/
@[simp] theorem send_bad (o : Out) (s : State) : (send o s).bad = s.bad := rfl
/-- `send` leaves `hdr` alone. -/
@[simp] theorem send_hdr (o : Out) (s : State) : (send o s).hdr = s.hdr := rfl
/-- `send` leaves `glb` alone. -/
@[simp] theorem send_glb (o : Out) (s : State) : (send o s).glb = s.glb := rfl
/-- `send` leaves `pwr` alone. -/
@[simp] theorem send_pwr (o : Out) (s : State) : (send o s).pwr = s.pwr := rfl
/-- `send` leaves `mer` alone. -/
@[simp] theorem send_mer (o : Out) (s : State) : (send o s).mer = s.mer := rfl
/-- `send` leaves `fbk` alone. -/
@[simp] theorem send_fbk (o : Out) (s : State) : (send o s).fbk = s.fbk := rfl
/-- `send` leaves `reeds` alone. -/
@[simp] theorem send_reeds (o : Out) (s : State) : (send o s).reeds = s.reeds := rfl
/-- `send` leaves `binding` alone. -/
@[simp] theorem send_binding (o : Out) (s : State) : (send o s).binding = s.binding := rfl
/-- `send` leaves `beds` alone. -/
@[simp] theorem send_beds (o : Out) (s : State) : (send o s).beds = s.beds := rfl
/-- `send` leaves `hbm` alone. -/
@[simp] theorem send_hbm (o : Out) (s : State) : (send o s).hbm = s.hbm := rfl
/-- `send` leaves `srcs` alone. -/
@[simp] theorem send_srcs (o : Out) (s : State) : (send o s).srcs = s.srcs := rfl
/-- `send` leaves `qmg` alone. -/
@[simp] theorem send_qmg (o : Out) (s : State) : (send o s).qmg = s.qmg := rfl
/-- `send` leaves `evr` alone. -/
@[simp] theorem send_evr (o : Out) (s : State) : (send o s).evr = s.evr := rfl
/-- `send` leaves `cxl` alone. -/
@[simp] theorem send_cxl (o : Out) (s : State) : (send o s).cxl = s.cxl := rfl
/-- `send` leaves `links` alone. -/
@[simp] theorem send_links (o : Out) (s : State) : (send o s).links = s.links := rfl
/-- `send` leaves `atl` alone. -/
@[simp] theorem send_atl (o : Out) (s : State) : (send o s).atl = s.atl := rfl
/-- `send` leaves `slc` alone. -/
@[simp] theorem send_slc (o : Out) (s : State) : (send o s).slc = s.slc := rfl
/-- `send` leaves `asp` alone. -/
@[simp] theorem send_asp (o : Out) (s : State) : (send o s).asp = s.asp := rfl
/-- `send` leaves `ssp` alone. -/
@[simp] theorem send_ssp (o : Out) (s : State) : (send o s).ssp = s.ssp := rfl
/-- `send` leaves `tcu` alone. -/
@[simp] theorem send_tcu (o : Out) (s : State) : (send o s).tcu = s.tcu := rfl
/-- `send` leaves `sec` alone. -/
@[simp] theorem send_sec (o : Out) (s : State) : (send o s).sec = s.sec := rfl
/-- `send` leaves `spr` alone. -/
@[simp] theorem send_spr (o : Out) (s : State) : (send o s).spr = s.spr := rfl
/-- `send` leaves `tst` alone. -/
@[simp] theorem send_tst (o : Out) (s : State) : (send o s).tst = s.tst := rfl

/-! ### pageError -/

/-- `pageError` leaves `pending` alone. -/
@[simp] theorem pageError_pending (pg code addr : Nat) (s : State) : (pageError pg code addr s).pending = s.pending := rfl
/-- `pageError` leaves `out` alone. -/
@[simp] theorem pageError_out (pg code addr : Nat) (s : State) : (pageError pg code addr s).out = s.out := rfl
/-- `pageError` leaves `fresh` alone. -/
@[simp] theorem pageError_fresh (pg code addr : Nat) (s : State) : (pageError pg code addr s).fresh = s.fresh := rfl
/-- `pageError` leaves `mem` alone. -/
@[simp] theorem pageError_mem (pg code addr : Nat) (s : State) : (pageError pg code addr s).mem = s.mem := rfl
/-- `pageError` leaves `bad` alone. -/
@[simp] theorem pageError_bad (pg code addr : Nat) (s : State) : (pageError pg code addr s).bad = s.bad := rfl
/-- `pageError` leaves `glb` alone. -/
@[simp] theorem pageError_glb (pg code addr : Nat) (s : State) : (pageError pg code addr s).glb = s.glb := rfl
/-- `pageError` leaves `pwr` alone. -/
@[simp] theorem pageError_pwr (pg code addr : Nat) (s : State) : (pageError pg code addr s).pwr = s.pwr := rfl
/-- `pageError` leaves `mer` alone. -/
@[simp] theorem pageError_mer (pg code addr : Nat) (s : State) : (pageError pg code addr s).mer = s.mer := rfl
/-- `pageError` leaves `fbk` alone. -/
@[simp] theorem pageError_fbk (pg code addr : Nat) (s : State) : (pageError pg code addr s).fbk = s.fbk := rfl
/-- `pageError` leaves `reeds` alone. -/
@[simp] theorem pageError_reeds (pg code addr : Nat) (s : State) : (pageError pg code addr s).reeds = s.reeds := rfl
/-- `pageError` leaves `binding` alone. -/
@[simp] theorem pageError_binding (pg code addr : Nat) (s : State) : (pageError pg code addr s).binding = s.binding := rfl
/-- `pageError` leaves `beds` alone. -/
@[simp] theorem pageError_beds (pg code addr : Nat) (s : State) : (pageError pg code addr s).beds = s.beds := rfl
/-- `pageError` leaves `hbm` alone. -/
@[simp] theorem pageError_hbm (pg code addr : Nat) (s : State) : (pageError pg code addr s).hbm = s.hbm := rfl
/-- `pageError` leaves `srcs` alone. -/
@[simp] theorem pageError_srcs (pg code addr : Nat) (s : State) : (pageError pg code addr s).srcs = s.srcs := rfl
/-- `pageError` leaves `qmg` alone. -/
@[simp] theorem pageError_qmg (pg code addr : Nat) (s : State) : (pageError pg code addr s).qmg = s.qmg := rfl
/-- `pageError` leaves `evr` alone. -/
@[simp] theorem pageError_evr (pg code addr : Nat) (s : State) : (pageError pg code addr s).evr = s.evr := rfl
/-- `pageError` leaves `cxl` alone. -/
@[simp] theorem pageError_cxl (pg code addr : Nat) (s : State) : (pageError pg code addr s).cxl = s.cxl := rfl
/-- `pageError` leaves `links` alone. -/
@[simp] theorem pageError_links (pg code addr : Nat) (s : State) : (pageError pg code addr s).links = s.links := rfl
/-- `pageError` leaves `atl` alone. -/
@[simp] theorem pageError_atl (pg code addr : Nat) (s : State) : (pageError pg code addr s).atl = s.atl := rfl
/-- `pageError` leaves `slc` alone. -/
@[simp] theorem pageError_slc (pg code addr : Nat) (s : State) : (pageError pg code addr s).slc = s.slc := rfl
/-- `pageError` leaves `asp` alone. -/
@[simp] theorem pageError_asp (pg code addr : Nat) (s : State) : (pageError pg code addr s).asp = s.asp := rfl
/-- `pageError` leaves `ssp` alone. -/
@[simp] theorem pageError_ssp (pg code addr : Nat) (s : State) : (pageError pg code addr s).ssp = s.ssp := rfl
/-- `pageError` leaves `tcu` alone. -/
@[simp] theorem pageError_tcu (pg code addr : Nat) (s : State) : (pageError pg code addr s).tcu = s.tcu := rfl
/-- `pageError` leaves `sec` alone. -/
@[simp] theorem pageError_sec (pg code addr : Nat) (s : State) : (pageError pg code addr s).sec = s.sec := rfl
/-- `pageError` leaves `spr` alone. -/
@[simp] theorem pageError_spr (pg code addr : Nat) (s : State) : (pageError pg code addr s).spr = s.spr := rfl
/-- `pageError` leaves `tst` alone. -/
@[simp] theorem pageError_tst (pg code addr : Nat) (s : State) : (pageError pg code addr s).tst = s.tst := rfl

/-! ### pendVector -/

/-- `pendVector` leaves `pending` alone. -/
@[simp] theorem pendVector_pending (v : Nat) (s : State) : (pendVector v s).pending = s.pending := rfl
/-- `pendVector` leaves `out` alone. -/
@[simp] theorem pendVector_out (v : Nat) (s : State) : (pendVector v s).out = s.out := rfl
/-- `pendVector` leaves `fresh` alone. -/
@[simp] theorem pendVector_fresh (v : Nat) (s : State) : (pendVector v s).fresh = s.fresh := rfl
/-- `pendVector` leaves `mem` alone. -/
@[simp] theorem pendVector_mem (v : Nat) (s : State) : (pendVector v s).mem = s.mem := rfl
/-- `pendVector` leaves `bad` alone. -/
@[simp] theorem pendVector_bad (v : Nat) (s : State) : (pendVector v s).bad = s.bad := rfl
/-- `pendVector` leaves `hdr` alone. -/
@[simp] theorem pendVector_hdr (v : Nat) (s : State) : (pendVector v s).hdr = s.hdr := rfl
/-- `pendVector` leaves `glb` alone. -/
@[simp] theorem pendVector_glb (v : Nat) (s : State) : (pendVector v s).glb = s.glb := rfl
/-- `pendVector` leaves `pwr` alone. -/
@[simp] theorem pendVector_pwr (v : Nat) (s : State) : (pendVector v s).pwr = s.pwr := rfl
/-- `pendVector` leaves `mer` alone. -/
@[simp] theorem pendVector_mer (v : Nat) (s : State) : (pendVector v s).mer = s.mer := rfl
/-- `pendVector` leaves `fbk` alone. -/
@[simp] theorem pendVector_fbk (v : Nat) (s : State) : (pendVector v s).fbk = s.fbk := rfl
/-- `pendVector` leaves `reeds` alone. -/
@[simp] theorem pendVector_reeds (v : Nat) (s : State) : (pendVector v s).reeds = s.reeds := rfl
/-- `pendVector` leaves `binding` alone. -/
@[simp] theorem pendVector_binding (v : Nat) (s : State) : (pendVector v s).binding = s.binding := rfl
/-- `pendVector` leaves `beds` alone. -/
@[simp] theorem pendVector_beds (v : Nat) (s : State) : (pendVector v s).beds = s.beds := rfl
/-- `pendVector` leaves `hbm` alone. -/
@[simp] theorem pendVector_hbm (v : Nat) (s : State) : (pendVector v s).hbm = s.hbm := rfl
/-- `pendVector` leaves `srcs` alone. -/
@[simp] theorem pendVector_srcs (v : Nat) (s : State) : (pendVector v s).srcs = s.srcs := rfl
/-- `pendVector` leaves `qmg` alone. -/
@[simp] theorem pendVector_qmg (v : Nat) (s : State) : (pendVector v s).qmg = s.qmg := rfl
/-- `pendVector` leaves `evr` alone. -/
@[simp] theorem pendVector_evr (v : Nat) (s : State) : (pendVector v s).evr = s.evr := rfl
/-- `pendVector` leaves `links` alone. -/
@[simp] theorem pendVector_links (v : Nat) (s : State) : (pendVector v s).links = s.links := rfl
/-- `pendVector` leaves `atl` alone. -/
@[simp] theorem pendVector_atl (v : Nat) (s : State) : (pendVector v s).atl = s.atl := rfl
/-- `pendVector` leaves `slc` alone. -/
@[simp] theorem pendVector_slc (v : Nat) (s : State) : (pendVector v s).slc = s.slc := rfl
/-- `pendVector` leaves `asp` alone. -/
@[simp] theorem pendVector_asp (v : Nat) (s : State) : (pendVector v s).asp = s.asp := rfl
/-- `pendVector` leaves `ssp` alone. -/
@[simp] theorem pendVector_ssp (v : Nat) (s : State) : (pendVector v s).ssp = s.ssp := rfl
/-- `pendVector` leaves `tcu` alone. -/
@[simp] theorem pendVector_tcu (v : Nat) (s : State) : (pendVector v s).tcu = s.tcu := rfl
/-- `pendVector` leaves `sec` alone. -/
@[simp] theorem pendVector_sec (v : Nat) (s : State) : (pendVector v s).sec = s.sec := rfl
/-- `pendVector` leaves `spr` alone. -/
@[simp] theorem pendVector_spr (v : Nat) (s : State) : (pendVector v s).spr = s.spr := rfl
/-- `pendVector` leaves `tst` alone. -/
@[simp] theorem pendVector_tst (v : Nat) (s : State) : (pendVector v s).tst = s.tst := rfl

/-! ### Each update as its readers see it -/

/-- What `setReed` writes is read back. -/
@[simp] theorem reedOf_setReed (r : Nat) (x : Reed) (s : State) : reedOf (setReed r x s) r = x := by
  simp [reedOf, setReed]
/-- Of two `setReed` of one the later stands. -/
@[simp] theorem setReed_setReed (r : Nat) (x y : Reed) (s : State) : setReed r y (setReed r x s) = setReed r y s := by
  simp [setReed]
/-- `setReed` leaves the others alone. -/
theorem reedOf_setReed_other (r q : Nat) (x : Reed) (s : State) (h : q ≠ r) : reedOf (setReed r x s) q = reedOf s q := by
  simp [reedOf, setReed, Tab.get_set_other _ _ _ _ _ h]
/-- What `setBed` writes is read back. -/
@[simp] theorem bedOf_setBed (b : Nat) (x : Bed) (s : State) : bedOf (setBed b x s) b = x := by
  simp [bedOf, setBed]
/-- Of two `setBed` of one the later stands. -/
@[simp] theorem setBed_setBed (b : Nat) (x y : Bed) (s : State) : setBed b y (setBed b x s) = setBed b y s := by
  simp [setBed]
/-- `setBed` leaves the others alone. -/
theorem bedOf_setBed_other (b q : Nat) (x : Bed) (s : State) (h : q ≠ b) : bedOf (setBed b x s) q = bedOf s q := by
  simp [bedOf, setBed, Tab.get_set_other _ _ _ _ _ h]
/-- What `setDom` writes is read back. -/
@[simp] theorem domOf_setDom (d : Nat) (x : Domain) (s : State) : domOf (setDom d x s) d = x := by
  simp [domOf, setDom]
/-- Of two `setDom` of one the later stands. -/
@[simp] theorem setDom_setDom (d : Nat) (x y : Domain) (s : State) : setDom d y (setDom d x s) = setDom d y s := by
  simp [setDom]
/-- `setDom` leaves the others alone. -/
theorem domOf_setDom_other (d q : Nat) (x : Domain) (s : State) (h : q ≠ d) : domOf (setDom d x s) q = domOf s q := by
  simp [domOf, setDom, Tab.get_set_other _ _ _ _ _ h]
/-- What `setHbmPage` writes is read back. -/
@[simp] theorem hbmPageOf_setHbmPage (p : Nat) (x : HbmPage) (s : State) : hbmPageOf (setHbmPage p x s) p = x := by
  simp [hbmPageOf, setHbmPage]
/-- Of two `setHbmPage` of one the later stands. -/
@[simp] theorem setHbmPage_setHbmPage (p : Nat) (x y : HbmPage) (s : State) : setHbmPage p y (setHbmPage p x s) = setHbmPage p y s := by
  simp [setHbmPage]
/-- `setHbmPage` leaves the others alone. -/
theorem hbmPageOf_setHbmPage_other (p q : Nat) (x : HbmPage) (s : State) (h : q ≠ p) : hbmPageOf (setHbmPage p x s) q = hbmPageOf s q := by
  simp [hbmPageOf, setHbmPage, Tab.get_set_other _ _ _ _ _ h]
/-- What `setAsp` writes is read back. -/
@[simp] theorem aspOf_setAsp (n : Nat) (x : Asp) (s : State) : aspOf (setAsp n x s) n = x := by
  simp [aspOf, setAsp]
/-- Of two `setAsp` of one the later stands. -/
@[simp] theorem setAsp_setAsp (n : Nat) (x y : Asp) (s : State) : setAsp n y (setAsp n x s) = setAsp n y s := by
  simp [setAsp]
/-- `setAsp` leaves the others alone. -/
theorem aspOf_setAsp_other (n q : Nat) (x : Asp) (s : State) (h : q ≠ n) : aspOf (setAsp n x s) q = aspOf s q := by
  simp [aspOf, setAsp, Tab.get_set_other _ _ _ _ _ h]
/-- What `setSsp` writes is read back. -/
@[simp] theorem sspOf_setSsp (n : Nat) (x : Ssp) (s : State) : sspOf (setSsp n x s) n = x := by
  simp [sspOf, setSsp]
/-- Of two `setSsp` of one the later stands. -/
@[simp] theorem setSsp_setSsp (n : Nat) (x y : Ssp) (s : State) : setSsp n y (setSsp n x s) = setSsp n y s := by
  simp [setSsp]
/-- `setSsp` leaves the others alone. -/
theorem sspOf_setSsp_other (n q : Nat) (x : Ssp) (s : State) (h : q ≠ n) : sspOf (setSsp n x s) q = sspOf s q := by
  simp [sspOf, setSsp, Tab.get_set_other _ _ _ _ _ h]
/-- What `setChan` writes is read back. -/
@[simp] theorem chanOf_setChan (c : Nat) (x : TcuChan) (s : State) : chanOf (setChan c x s) c = x := by
  simp [chanOf, setChan]
/-- Of two `setChan` of one the later stands. -/
@[simp] theorem setChan_setChan (c : Nat) (x y : TcuChan) (s : State) : setChan c y (setChan c x s) = setChan c y s := by
  simp [setChan]
/-- `setChan` leaves the others alone. -/
theorem chanOf_setChan_other (c q : Nat) (x : TcuChan) (s : State) (h : q ≠ c) : chanOf (setChan c x s) q = chanOf s q := by
  simp [chanOf, setChan, Tab.get_set_other _ _ _ _ _ h]
/-- What `setCap` writes is read back. -/
@[simp] theorem capOf_setCap (j : Nat) (x : CapInput) (s : State) : capOf (setCap j x s) j = x := by
  simp [capOf, setCap]
/-- Of two `setCap` of one the later stands. -/
@[simp] theorem setCap_setCap (j : Nat) (x y : CapInput) (s : State) : setCap j y (setCap j x s) = setCap j y s := by
  simp [setCap]
/-- `setCap` leaves the others alone. -/
theorem capOf_setCap_other (j q : Nat) (x : CapInput) (s : State) (h : q ≠ j) : capOf (setCap j x s) q = capOf s q := by
  simp [capOf, setCap, Tab.get_set_other _ _ _ _ _ h]
/-- What `setLink` writes is read back. -/
@[simp] theorem linkOf_setLink (l : Nat) (x : Link) (s : State) : linkOf (setLink l x s) l = x := by
  simp [linkOf, setLink]
/-- Of two `setLink` of one the later stands. -/
@[simp] theorem setLink_setLink (l : Nat) (x y : Link) (s : State) : setLink l y (setLink l x s) = setLink l y s := by
  simp [setLink]
/-- `setLink` leaves the others alone. -/
theorem linkOf_setLink_other (l q : Nat) (x : Link) (s : State) (h : q ≠ l) : linkOf (setLink l x s) q = linkOf s q := by
  simp [linkOf, setLink, Tab.get_set_other _ _ _ _ _ h]
/-- What `setQueue` writes is read back. -/
@[simp] theorem queueOf_setQueue (n : Nat) (x : Queue) (s : State) : queueOf (setQueue n x s) n = x := by
  simp [queueOf, setQueue]
/-- Of two `setQueue` of one the later stands. -/
@[simp] theorem setQueue_setQueue (n : Nat) (x y : Queue) (s : State) : setQueue n y (setQueue n x s) = setQueue n y s := by
  simp [setQueue]
/-- `setQueue` leaves the others alone. -/
theorem queueOf_setQueue_other (n q : Nat) (x : Queue) (s : State) (h : q ≠ n) : queueOf (setQueue n x s) q = queueOf s q := by
  simp [queueOf, setQueue, Tab.get_set_other _ _ _ _ _ h]
/-- What `setEngine` writes is read back. -/
@[simp] theorem engineOf_setEngine (b : Nat) (x : Engine) (s : State) : engineOf (setEngine b x s) b = x := by
  simp [engineOf, setEngine]
/-- Of two `setEngine` of one the later stands. -/
@[simp] theorem setEngine_setEngine (b : Nat) (x y : Engine) (s : State) : setEngine b y (setEngine b x s) = setEngine b y s := by
  simp [setEngine]
/-- `setEngine` leaves the others alone. -/
theorem engineOf_setEngine_other (b q : Nat) (x : Engine) (s : State) (h : q ≠ b) : engineOf (setEngine b x s) q = engineOf s q := by
  simp [engineOf, setEngine, Tab.get_set_other _ _ _ _ _ h]
/-- What `setSv` writes is read back. -/
@[simp] theorem svOf_setSv (n : Nat) (x : SvEvents) (s : State) : svOf (setSv n x s) n = x := by
  simp [svOf, setSv]
/-- Of two `setSv` of one the later stands. -/
@[simp] theorem setSv_setSv (n : Nat) (x y : SvEvents) (s : State) : setSv n y (setSv n x s) = setSv n y s := by
  simp [setSv]
/-- `setSv` leaves the others alone. -/
theorem svOf_setSv_other (n q : Nat) (x : SvEvents) (s : State) (h : q ≠ n) : svOf (setSv n x s) q = svOf s q := by
  simp [svOf, setSv, Tab.get_set_other _ _ _ _ _ h]

end Sys2Proof.Machine
end

