-- ==== Sys2Proof/Laws/Ops.lean ====
section
/-! SUPPORT. Sys2Proof/Laws/Ops.lean: what the operations that every block shares leave alone: raising an event, setting
IRQ_STAT, refusing an access, setting a token flag and retiring a reed or a page. -/

namespace Sys2Proof.Machine

/-- What every step of a fold keeps, the fold keeps. -/
theorem foldl_keeps {β γ : Type} (p : State → γ) (g : State → β → State) (h : ∀ t b, p (g t b) = p t) (l : List β)
    (s : State) : p (l.foldl g s) = p s := by
  induction l generalizing s with
  | nil => rfl
  | cons b l ih => rw [List.foldl_cons, ih, h]

/-- What every step of a fold preserves, the fold preserves. -/
theorem foldl_preserves {β σ : Type} (P : σ → Prop) (g : σ → β → σ) (h : ∀ t b, P t → P (g t b)) (l : List β) (s : σ)
    (hs : P s) : P (l.foldl g s) := by
  induction l generalizing s with
  | nil => exact hs
  | cons b l ih => exact ih _ (h _ _ hs)


/-! ### setToken -/

/-- `setToken` leaves `pending` alone. -/
@[simp] theorem setToken_pending (r k : Nat) (s : State) : (setToken r k s).pending = s.pending := by
  simp [setToken]
/-- `setToken` leaves `out` alone. -/
@[simp] theorem setToken_out (r k : Nat) (s : State) : (setToken r k s).out = s.out := by
  simp [setToken]
/-- `setToken` leaves `fresh` alone. -/
@[simp] theorem setToken_fresh (r k : Nat) (s : State) : (setToken r k s).fresh = s.fresh := by
  simp [setToken]
/-- `setToken` leaves `mem` alone. -/
@[simp] theorem setToken_mem (r k : Nat) (s : State) : (setToken r k s).mem = s.mem := by
  simp [setToken]
/-- `setToken` leaves `bad` alone. -/
@[simp] theorem setToken_bad (r k : Nat) (s : State) : (setToken r k s).bad = s.bad := by
  simp [setToken]
/-- `setToken` leaves `hdr` alone. -/
@[simp] theorem setToken_hdr (r k : Nat) (s : State) : (setToken r k s).hdr = s.hdr := by
  simp [setToken]
/-- `setToken` leaves `glb` alone. -/
@[simp] theorem setToken_glb (r k : Nat) (s : State) : (setToken r k s).glb = s.glb := by
  simp [setToken]
/-- `setToken` leaves `pwr` alone. -/
@[simp] theorem setToken_pwr (r k : Nat) (s : State) : (setToken r k s).pwr = s.pwr := by
  simp [setToken]
/-- `setToken` leaves `mer` alone. -/
@[simp] theorem setToken_mer (r k : Nat) (s : State) : (setToken r k s).mer = s.mer := by
  simp [setToken]
/-- `setToken` leaves `fbk` alone. -/
@[simp] theorem setToken_fbk (r k : Nat) (s : State) : (setToken r k s).fbk = s.fbk := by
  simp [setToken]
/-- `setToken` leaves `binding` alone. -/
@[simp] theorem setToken_binding (r k : Nat) (s : State) : (setToken r k s).binding = s.binding := by
  simp [setToken]
/-- `setToken` leaves `beds` alone. -/
@[simp] theorem setToken_beds (r k : Nat) (s : State) : (setToken r k s).beds = s.beds := by
  simp [setToken]
/-- `setToken` leaves `hbm` alone. -/
@[simp] theorem setToken_hbm (r k : Nat) (s : State) : (setToken r k s).hbm = s.hbm := by
  simp [setToken]
/-- `setToken` leaves `srcs` alone. -/
@[simp] theorem setToken_srcs (r k : Nat) (s : State) : (setToken r k s).srcs = s.srcs := by
  simp [setToken]
/-- `setToken` leaves `qmg` alone. -/
@[simp] theorem setToken_qmg (r k : Nat) (s : State) : (setToken r k s).qmg = s.qmg := by
  simp [setToken]
/-- `setToken` leaves `evr` alone. -/
@[simp] theorem setToken_evr (r k : Nat) (s : State) : (setToken r k s).evr = s.evr := by
  simp [setToken]
/-- `setToken` leaves `cxl` alone. -/
@[simp] theorem setToken_cxl (r k : Nat) (s : State) : (setToken r k s).cxl = s.cxl := by
  simp [setToken]
/-- `setToken` leaves `links` alone. -/
@[simp] theorem setToken_links (r k : Nat) (s : State) : (setToken r k s).links = s.links := by
  simp [setToken]
/-- `setToken` leaves `atl` alone. -/
@[simp] theorem setToken_atl (r k : Nat) (s : State) : (setToken r k s).atl = s.atl := by
  simp [setToken]
/-- `setToken` leaves `slc` alone. -/
@[simp] theorem setToken_slc (r k : Nat) (s : State) : (setToken r k s).slc = s.slc := by
  simp [setToken]
/-- `setToken` leaves `asp` alone. -/
@[simp] theorem setToken_asp (r k : Nat) (s : State) : (setToken r k s).asp = s.asp := by
  simp [setToken]
/-- `setToken` leaves `ssp` alone. -/
@[simp] theorem setToken_ssp (r k : Nat) (s : State) : (setToken r k s).ssp = s.ssp := by
  simp [setToken]
/-- `setToken` leaves `tcu` alone. -/
@[simp] theorem setToken_tcu (r k : Nat) (s : State) : (setToken r k s).tcu = s.tcu := by
  simp [setToken]
/-- `setToken` leaves `sec` alone. -/
@[simp] theorem setToken_sec (r k : Nat) (s : State) : (setToken r k s).sec = s.sec := by
  simp [setToken]
/-- `setToken` leaves `spr` alone. -/
@[simp] theorem setToken_spr (r k : Nat) (s : State) : (setToken r k s).spr = s.spr := by
  simp [setToken]
/-- `setToken` leaves `tst` alone. -/
@[simp] theorem setToken_tst (r k : Nat) (s : State) : (setToken r k s).tst = s.tst := by
  simp [setToken]

/-! ### setTokenLogical -/

/-- `setTokenLogical` leaves `pending` alone. -/
@[simp] theorem setTokenLogical_pending (l k : Nat) (s : State) : (setTokenLogical l k s).pending = s.pending := by
  unfold setTokenLogical; split <;> simp
/-- `setTokenLogical` leaves `out` alone. -/
@[simp] theorem setTokenLogical_out (l k : Nat) (s : State) : (setTokenLogical l k s).out = s.out := by
  unfold setTokenLogical; split <;> simp
/-- `setTokenLogical` leaves `fresh` alone. -/
@[simp] theorem setTokenLogical_fresh (l k : Nat) (s : State) : (setTokenLogical l k s).fresh = s.fresh := by
  unfold setTokenLogical; split <;> simp
/-- `setTokenLogical` leaves `mem` alone. -/
@[simp] theorem setTokenLogical_mem (l k : Nat) (s : State) : (setTokenLogical l k s).mem = s.mem := by
  unfold setTokenLogical; split <;> simp
/-- `setTokenLogical` leaves `bad` alone. -/
@[simp] theorem setTokenLogical_bad (l k : Nat) (s : State) : (setTokenLogical l k s).bad = s.bad := by
  unfold setTokenLogical; split <;> simp
/-- `setTokenLogical` leaves `hdr` alone. -/
@[simp] theorem setTokenLogical_hdr (l k : Nat) (s : State) : (setTokenLogical l k s).hdr = s.hdr := by
  unfold setTokenLogical; split <;> simp
/-- `setTokenLogical` leaves `glb` alone. -/
@[simp] theorem setTokenLogical_glb (l k : Nat) (s : State) : (setTokenLogical l k s).glb = s.glb := by
  unfold setTokenLogical; split <;> simp
/-- `setTokenLogical` leaves `pwr` alone. -/
@[simp] theorem setTokenLogical_pwr (l k : Nat) (s : State) : (setTokenLogical l k s).pwr = s.pwr := by
  unfold setTokenLogical; split <;> simp
/-- `setTokenLogical` leaves `mer` alone. -/
@[simp] theorem setTokenLogical_mer (l k : Nat) (s : State) : (setTokenLogical l k s).mer = s.mer := by
  unfold setTokenLogical; split <;> simp
/-- `setTokenLogical` leaves `fbk` alone. -/
@[simp] theorem setTokenLogical_fbk (l k : Nat) (s : State) : (setTokenLogical l k s).fbk = s.fbk := by
  unfold setTokenLogical; split <;> simp
/-- `setTokenLogical` leaves `binding` alone. -/
@[simp] theorem setTokenLogical_binding (l k : Nat) (s : State) : (setTokenLogical l k s).binding = s.binding := by
  unfold setTokenLogical; split <;> simp
/-- `setTokenLogical` leaves `beds` alone. -/
@[simp] theorem setTokenLogical_beds (l k : Nat) (s : State) : (setTokenLogical l k s).beds = s.beds := by
  unfold setTokenLogical; split <;> simp
/-- `setTokenLogical` leaves `hbm` alone. -/
@[simp] theorem setTokenLogical_hbm (l k : Nat) (s : State) : (setTokenLogical l k s).hbm = s.hbm := by
  unfold setTokenLogical; split <;> simp
/-- `setTokenLogical` leaves `srcs` alone. -/
@[simp] theorem setTokenLogical_srcs (l k : Nat) (s : State) : (setTokenLogical l k s).srcs = s.srcs := by
  unfold setTokenLogical; split <;> simp
/-- `setTokenLogical` leaves `qmg` alone. -/
@[simp] theorem setTokenLogical_qmg (l k : Nat) (s : State) : (setTokenLogical l k s).qmg = s.qmg := by
  unfold setTokenLogical; split <;> simp
/-- `setTokenLogical` leaves `evr` alone. -/
@[simp] theorem setTokenLogical_evr (l k : Nat) (s : State) : (setTokenLogical l k s).evr = s.evr := by
  unfold setTokenLogical; split <;> simp
/-- `setTokenLogical` leaves `cxl` alone. -/
@[simp] theorem setTokenLogical_cxl (l k : Nat) (s : State) : (setTokenLogical l k s).cxl = s.cxl := by
  unfold setTokenLogical; split <;> simp
/-- `setTokenLogical` leaves `links` alone. -/
@[simp] theorem setTokenLogical_links (l k : Nat) (s : State) : (setTokenLogical l k s).links = s.links := by
  unfold setTokenLogical; split <;> simp
/-- `setTokenLogical` leaves `atl` alone. -/
@[simp] theorem setTokenLogical_atl (l k : Nat) (s : State) : (setTokenLogical l k s).atl = s.atl := by
  unfold setTokenLogical; split <;> simp
/-- `setTokenLogical` leaves `slc` alone. -/
@[simp] theorem setTokenLogical_slc (l k : Nat) (s : State) : (setTokenLogical l k s).slc = s.slc := by
  unfold setTokenLogical; split <;> simp
/-- `setTokenLogical` leaves `asp` alone. -/
@[simp] theorem setTokenLogical_asp (l k : Nat) (s : State) : (setTokenLogical l k s).asp = s.asp := by
  unfold setTokenLogical; split <;> simp
/-- `setTokenLogical` leaves `ssp` alone. -/
@[simp] theorem setTokenLogical_ssp (l k : Nat) (s : State) : (setTokenLogical l k s).ssp = s.ssp := by
  unfold setTokenLogical; split <;> simp
/-- `setTokenLogical` leaves `tcu` alone. -/
@[simp] theorem setTokenLogical_tcu (l k : Nat) (s : State) : (setTokenLogical l k s).tcu = s.tcu := by
  unfold setTokenLogical; split <;> simp
/-- `setTokenLogical` leaves `sec` alone. -/
@[simp] theorem setTokenLogical_sec (l k : Nat) (s : State) : (setTokenLogical l k s).sec = s.sec := by
  unfold setTokenLogical; split <;> simp
/-- `setTokenLogical` leaves `spr` alone. -/
@[simp] theorem setTokenLogical_spr (l k : Nat) (s : State) : (setTokenLogical l k s).spr = s.spr := by
  unfold setTokenLogical; split <;> simp
/-- `setTokenLogical` leaves `tst` alone. -/
@[simp] theorem setTokenLogical_tst (l k : Nat) (s : State) : (setTokenLogical l k s).tst = s.tst := by
  unfold setTokenLogical; split <;> simp

/-! ### issueMsix -/

/-- `issueMsix` leaves `pending` alone. -/
@[simp] theorem issueMsix_pending (v : Nat) (s : State) : (issueMsix v s).pending = s.pending := by
  unfold issueMsix; split <;> simp
/-- `issueMsix` leaves `fresh` alone. -/
@[simp] theorem issueMsix_fresh (v : Nat) (s : State) : (issueMsix v s).fresh = s.fresh := by
  unfold issueMsix; split <;> simp
/-- `issueMsix` leaves `mem` alone. -/
@[simp] theorem issueMsix_mem (v : Nat) (s : State) : (issueMsix v s).mem = s.mem := by
  unfold issueMsix; split <;> simp
/-- `issueMsix` leaves `bad` alone. -/
@[simp] theorem issueMsix_bad (v : Nat) (s : State) : (issueMsix v s).bad = s.bad := by
  unfold issueMsix; split <;> simp
/-- `issueMsix` leaves `hdr` alone. -/
@[simp] theorem issueMsix_hdr (v : Nat) (s : State) : (issueMsix v s).hdr = s.hdr := by
  unfold issueMsix; split <;> simp
/-- `issueMsix` leaves `glb` alone. -/
@[simp] theorem issueMsix_glb (v : Nat) (s : State) : (issueMsix v s).glb = s.glb := by
  unfold issueMsix; split <;> simp
/-- `issueMsix` leaves `pwr` alone. -/
@[simp] theorem issueMsix_pwr (v : Nat) (s : State) : (issueMsix v s).pwr = s.pwr := by
  unfold issueMsix; split <;> simp
/-- `issueMsix` leaves `mer` alone. -/
@[simp] theorem issueMsix_mer (v : Nat) (s : State) : (issueMsix v s).mer = s.mer := by
  unfold issueMsix; split <;> simp
/-- `issueMsix` leaves `fbk` alone. -/
@[simp] theorem issueMsix_fbk (v : Nat) (s : State) : (issueMsix v s).fbk = s.fbk := by
  unfold issueMsix; split <;> simp
/-- `issueMsix` leaves `reeds` alone. -/
@[simp] theorem issueMsix_reeds (v : Nat) (s : State) : (issueMsix v s).reeds = s.reeds := by
  unfold issueMsix; split <;> simp
/-- `issueMsix` leaves `binding` alone. -/
@[simp] theorem issueMsix_binding (v : Nat) (s : State) : (issueMsix v s).binding = s.binding := by
  unfold issueMsix; split <;> simp
/-- `issueMsix` leaves `beds` alone. -/
@[simp] theorem issueMsix_beds (v : Nat) (s : State) : (issueMsix v s).beds = s.beds := by
  unfold issueMsix; split <;> simp
/-- `issueMsix` leaves `hbm` alone. -/
@[simp] theorem issueMsix_hbm (v : Nat) (s : State) : (issueMsix v s).hbm = s.hbm := by
  unfold issueMsix; split <;> simp
/-- `issueMsix` leaves `srcs` alone. -/
@[simp] theorem issueMsix_srcs (v : Nat) (s : State) : (issueMsix v s).srcs = s.srcs := by
  unfold issueMsix; split <;> simp
/-- `issueMsix` leaves `qmg` alone. -/
@[simp] theorem issueMsix_qmg (v : Nat) (s : State) : (issueMsix v s).qmg = s.qmg := by
  unfold issueMsix; split <;> simp
/-- `issueMsix` leaves `evr` alone. -/
@[simp] theorem issueMsix_evr (v : Nat) (s : State) : (issueMsix v s).evr = s.evr := by
  unfold issueMsix; split <;> simp
/-- `issueMsix` leaves `links` alone. -/
@[simp] theorem issueMsix_links (v : Nat) (s : State) : (issueMsix v s).links = s.links := by
  unfold issueMsix; split <;> simp
/-- `issueMsix` leaves `atl` alone. -/
@[simp] theorem issueMsix_atl (v : Nat) (s : State) : (issueMsix v s).atl = s.atl := by
  unfold issueMsix; split <;> simp
/-- `issueMsix` leaves `slc` alone. -/
@[simp] theorem issueMsix_slc (v : Nat) (s : State) : (issueMsix v s).slc = s.slc := by
  unfold issueMsix; split <;> simp
/-- `issueMsix` leaves `asp` alone. -/
@[simp] theorem issueMsix_asp (v : Nat) (s : State) : (issueMsix v s).asp = s.asp := by
  unfold issueMsix; split <;> simp
/-- `issueMsix` leaves `ssp` alone. -/
@[simp] theorem issueMsix_ssp (v : Nat) (s : State) : (issueMsix v s).ssp = s.ssp := by
  unfold issueMsix; split <;> simp
/-- `issueMsix` leaves `tcu` alone. -/
@[simp] theorem issueMsix_tcu (v : Nat) (s : State) : (issueMsix v s).tcu = s.tcu := by
  unfold issueMsix; split <;> simp
/-- `issueMsix` leaves `sec` alone. -/
@[simp] theorem issueMsix_sec (v : Nat) (s : State) : (issueMsix v s).sec = s.sec := by
  unfold issueMsix; split <;> simp
/-- `issueMsix` leaves `spr` alone. -/
@[simp] theorem issueMsix_spr (v : Nat) (s : State) : (issueMsix v s).spr = s.spr := by
  unfold issueMsix; split <;> simp
/-- `issueMsix` leaves `tst` alone. -/
@[simp] theorem issueMsix_tst (v : Nat) (s : State) : (issueMsix v s).tst = s.tst := by
  unfold issueMsix; split <;> simp

/-! ### sendPme -/

/-- `sendPme` leaves `pending` alone. -/
@[simp] theorem sendPme_pending  (s : State) : (sendPme s).pending = s.pending := by
  simp [sendPme]
/-- `sendPme` leaves `fresh` alone. -/
@[simp] theorem sendPme_fresh  (s : State) : (sendPme s).fresh = s.fresh := by
  simp [sendPme]
/-- `sendPme` leaves `mem` alone. -/
@[simp] theorem sendPme_mem  (s : State) : (sendPme s).mem = s.mem := by
  simp [sendPme]
/-- `sendPme` leaves `bad` alone. -/
@[simp] theorem sendPme_bad  (s : State) : (sendPme s).bad = s.bad := by
  simp [sendPme]
/-- `sendPme` leaves `hdr` alone. -/
@[simp] theorem sendPme_hdr  (s : State) : (sendPme s).hdr = s.hdr := by
  simp [sendPme]
/-- `sendPme` leaves `glb` alone. -/
@[simp] theorem sendPme_glb  (s : State) : (sendPme s).glb = s.glb := by
  simp [sendPme]
/-- `sendPme` leaves `pwr` alone. -/
@[simp] theorem sendPme_pwr  (s : State) : (sendPme s).pwr = s.pwr := by
  simp [sendPme]
/-- `sendPme` leaves `mer` alone. -/
@[simp] theorem sendPme_mer  (s : State) : (sendPme s).mer = s.mer := by
  simp [sendPme]
/-- `sendPme` leaves `reeds` alone. -/
@[simp] theorem sendPme_reeds  (s : State) : (sendPme s).reeds = s.reeds := by
  simp [sendPme]
/-- `sendPme` leaves `binding` alone. -/
@[simp] theorem sendPme_binding  (s : State) : (sendPme s).binding = s.binding := by
  simp [sendPme]
/-- `sendPme` leaves `beds` alone. -/
@[simp] theorem sendPme_beds  (s : State) : (sendPme s).beds = s.beds := by
  simp [sendPme]
/-- `sendPme` leaves `hbm` alone. -/
@[simp] theorem sendPme_hbm  (s : State) : (sendPme s).hbm = s.hbm := by
  simp [sendPme]
/-- `sendPme` leaves `srcs` alone. -/
@[simp] theorem sendPme_srcs  (s : State) : (sendPme s).srcs = s.srcs := by
  simp [sendPme]
/-- `sendPme` leaves `qmg` alone. -/
@[simp] theorem sendPme_qmg  (s : State) : (sendPme s).qmg = s.qmg := by
  simp [sendPme]
/-- `sendPme` leaves `evr` alone. -/
@[simp] theorem sendPme_evr  (s : State) : (sendPme s).evr = s.evr := by
  simp [sendPme]
/-- `sendPme` leaves `links` alone. -/
@[simp] theorem sendPme_links  (s : State) : (sendPme s).links = s.links := by
  simp [sendPme]
/-- `sendPme` leaves `atl` alone. -/
@[simp] theorem sendPme_atl  (s : State) : (sendPme s).atl = s.atl := by
  simp [sendPme]
/-- `sendPme` leaves `slc` alone. -/
@[simp] theorem sendPme_slc  (s : State) : (sendPme s).slc = s.slc := by
  simp [sendPme]
/-- `sendPme` leaves `asp` alone. -/
@[simp] theorem sendPme_asp  (s : State) : (sendPme s).asp = s.asp := by
  simp [sendPme]
/-- `sendPme` leaves `ssp` alone. -/
@[simp] theorem sendPme_ssp  (s : State) : (sendPme s).ssp = s.ssp := by
  simp [sendPme]
/-- `sendPme` leaves `tcu` alone. -/
@[simp] theorem sendPme_tcu  (s : State) : (sendPme s).tcu = s.tcu := by
  simp [sendPme]
/-- `sendPme` leaves `sec` alone. -/
@[simp] theorem sendPme_sec  (s : State) : (sendPme s).sec = s.sec := by
  simp [sendPme]
/-- `sendPme` leaves `spr` alone. -/
@[simp] theorem sendPme_spr  (s : State) : (sendPme s).spr = s.spr := by
  simp [sendPme]
/-- `sendPme` leaves `tst` alone. -/
@[simp] theorem sendPme_tst  (s : State) : (sendPme s).tst = s.tst := by
  simp [sendPme]

/-! ### assertWake -/

/-- `assertWake` leaves `pending` alone. -/
@[simp] theorem assertWake_pending  (s : State) : (assertWake s).pending = s.pending := by
  unfold assertWake; split <;> simp
/-- `assertWake` leaves `out` alone. -/
@[simp] theorem assertWake_out  (s : State) : (assertWake s).out = s.out := by
  unfold assertWake; split <;> simp
/-- `assertWake` leaves `fresh` alone. -/
@[simp] theorem assertWake_fresh  (s : State) : (assertWake s).fresh = s.fresh := by
  unfold assertWake; split <;> simp
/-- `assertWake` leaves `mem` alone. -/
@[simp] theorem assertWake_mem  (s : State) : (assertWake s).mem = s.mem := by
  unfold assertWake; split <;> simp
/-- `assertWake` leaves `bad` alone. -/
@[simp] theorem assertWake_bad  (s : State) : (assertWake s).bad = s.bad := by
  unfold assertWake; split <;> simp
/-- `assertWake` leaves `hdr` alone. -/
@[simp] theorem assertWake_hdr  (s : State) : (assertWake s).hdr = s.hdr := by
  unfold assertWake; split <;> simp
/-- `assertWake` leaves `glb` alone. -/
@[simp] theorem assertWake_glb  (s : State) : (assertWake s).glb = s.glb := by
  unfold assertWake; split <;> simp
/-- `assertWake` leaves `pwr` alone. -/
@[simp] theorem assertWake_pwr  (s : State) : (assertWake s).pwr = s.pwr := by
  unfold assertWake; split <;> simp
/-- `assertWake` leaves `mer` alone. -/
@[simp] theorem assertWake_mer  (s : State) : (assertWake s).mer = s.mer := by
  unfold assertWake; split <;> simp
/-- `assertWake` leaves `reeds` alone. -/
@[simp] theorem assertWake_reeds  (s : State) : (assertWake s).reeds = s.reeds := by
  unfold assertWake; split <;> simp
/-- `assertWake` leaves `binding` alone. -/
@[simp] theorem assertWake_binding  (s : State) : (assertWake s).binding = s.binding := by
  unfold assertWake; split <;> simp
/-- `assertWake` leaves `beds` alone. -/
@[simp] theorem assertWake_beds  (s : State) : (assertWake s).beds = s.beds := by
  unfold assertWake; split <;> simp
/-- `assertWake` leaves `hbm` alone. -/
@[simp] theorem assertWake_hbm  (s : State) : (assertWake s).hbm = s.hbm := by
  unfold assertWake; split <;> simp
/-- `assertWake` leaves `srcs` alone. -/
@[simp] theorem assertWake_srcs  (s : State) : (assertWake s).srcs = s.srcs := by
  unfold assertWake; split <;> simp
/-- `assertWake` leaves `qmg` alone. -/
@[simp] theorem assertWake_qmg  (s : State) : (assertWake s).qmg = s.qmg := by
  unfold assertWake; split <;> simp
/-- `assertWake` leaves `evr` alone. -/
@[simp] theorem assertWake_evr  (s : State) : (assertWake s).evr = s.evr := by
  unfold assertWake; split <;> simp
/-- `assertWake` leaves `links` alone. -/
@[simp] theorem assertWake_links  (s : State) : (assertWake s).links = s.links := by
  unfold assertWake; split <;> simp
/-- `assertWake` leaves `atl` alone. -/
@[simp] theorem assertWake_atl  (s : State) : (assertWake s).atl = s.atl := by
  unfold assertWake; split <;> simp
/-- `assertWake` leaves `slc` alone. -/
@[simp] theorem assertWake_slc  (s : State) : (assertWake s).slc = s.slc := by
  unfold assertWake; split <;> simp
/-- `assertWake` leaves `asp` alone. -/
@[simp] theorem assertWake_asp  (s : State) : (assertWake s).asp = s.asp := by
  unfold assertWake; split <;> simp
/-- `assertWake` leaves `ssp` alone. -/
@[simp] theorem assertWake_ssp  (s : State) : (assertWake s).ssp = s.ssp := by
  unfold assertWake; split <;> simp
/-- `assertWake` leaves `tcu` alone. -/
@[simp] theorem assertWake_tcu  (s : State) : (assertWake s).tcu = s.tcu := by
  unfold assertWake; split <;> simp
/-- `assertWake` leaves `sec` alone. -/
@[simp] theorem assertWake_sec  (s : State) : (assertWake s).sec = s.sec := by
  unfold assertWake; split <;> simp
/-- `assertWake` leaves `spr` alone. -/
@[simp] theorem assertWake_spr  (s : State) : (assertWake s).spr = s.spr := by
  unfold assertWake; split <;> simp
/-- `assertWake` leaves `tst` alone. -/
@[simp] theorem assertWake_tst  (s : State) : (assertWake s).tst = s.tst := by
  unfold assertWake; split <;> simp

/-! ### signalWake -/

/-- `signalWake` leaves `pending` alone. -/
@[simp] theorem signalWake_pending  (s : State) : (signalWake s).pending = s.pending := by
  unfold signalWake; repeat' split
  all_goals simp
/-- `signalWake` leaves `fresh` alone. -/
@[simp] theorem signalWake_fresh  (s : State) : (signalWake s).fresh = s.fresh := by
  unfold signalWake; repeat' split
  all_goals simp
/-- `signalWake` leaves `mem` alone. -/
@[simp] theorem signalWake_mem  (s : State) : (signalWake s).mem = s.mem := by
  unfold signalWake; repeat' split
  all_goals simp
/-- `signalWake` leaves `bad` alone. -/
@[simp] theorem signalWake_bad  (s : State) : (signalWake s).bad = s.bad := by
  unfold signalWake; repeat' split
  all_goals simp
/-- `signalWake` leaves `hdr` alone. -/
@[simp] theorem signalWake_hdr  (s : State) : (signalWake s).hdr = s.hdr := by
  unfold signalWake; repeat' split
  all_goals simp
/-- `signalWake` leaves `glb` alone. -/
@[simp] theorem signalWake_glb  (s : State) : (signalWake s).glb = s.glb := by
  unfold signalWake; repeat' split
  all_goals simp
/-- `signalWake` leaves `pwr` alone. -/
@[simp] theorem signalWake_pwr  (s : State) : (signalWake s).pwr = s.pwr := by
  unfold signalWake; repeat' split
  all_goals simp
/-- `signalWake` leaves `mer` alone. -/
@[simp] theorem signalWake_mer  (s : State) : (signalWake s).mer = s.mer := by
  unfold signalWake; repeat' split
  all_goals simp
/-- `signalWake` leaves `reeds` alone. -/
@[simp] theorem signalWake_reeds  (s : State) : (signalWake s).reeds = s.reeds := by
  unfold signalWake; repeat' split
  all_goals simp
/-- `signalWake` leaves `binding` alone. -/
@[simp] theorem signalWake_binding  (s : State) : (signalWake s).binding = s.binding := by
  unfold signalWake; repeat' split
  all_goals simp
/-- `signalWake` leaves `beds` alone. -/
@[simp] theorem signalWake_beds  (s : State) : (signalWake s).beds = s.beds := by
  unfold signalWake; repeat' split
  all_goals simp
/-- `signalWake` leaves `hbm` alone. -/
@[simp] theorem signalWake_hbm  (s : State) : (signalWake s).hbm = s.hbm := by
  unfold signalWake; repeat' split
  all_goals simp
/-- `signalWake` leaves `srcs` alone. -/
@[simp] theorem signalWake_srcs  (s : State) : (signalWake s).srcs = s.srcs := by
  unfold signalWake; repeat' split
  all_goals simp
/-- `signalWake` leaves `qmg` alone. -/
@[simp] theorem signalWake_qmg  (s : State) : (signalWake s).qmg = s.qmg := by
  unfold signalWake; repeat' split
  all_goals simp
/-- `signalWake` leaves `evr` alone. -/
@[simp] theorem signalWake_evr  (s : State) : (signalWake s).evr = s.evr := by
  unfold signalWake; repeat' split
  all_goals simp
/-- `signalWake` leaves `links` alone. -/
@[simp] theorem signalWake_links  (s : State) : (signalWake s).links = s.links := by
  unfold signalWake; repeat' split
  all_goals simp
/-- `signalWake` leaves `atl` alone. -/
@[simp] theorem signalWake_atl  (s : State) : (signalWake s).atl = s.atl := by
  unfold signalWake; repeat' split
  all_goals simp
/-- `signalWake` leaves `slc` alone. -/
@[simp] theorem signalWake_slc  (s : State) : (signalWake s).slc = s.slc := by
  unfold signalWake; repeat' split
  all_goals simp
/-- `signalWake` leaves `asp` alone. -/
@[simp] theorem signalWake_asp  (s : State) : (signalWake s).asp = s.asp := by
  unfold signalWake; repeat' split
  all_goals simp
/-- `signalWake` leaves `ssp` alone. -/
@[simp] theorem signalWake_ssp  (s : State) : (signalWake s).ssp = s.ssp := by
  unfold signalWake; repeat' split
  all_goals simp
/-- `signalWake` leaves `tcu` alone. -/
@[simp] theorem signalWake_tcu  (s : State) : (signalWake s).tcu = s.tcu := by
  unfold signalWake; repeat' split
  all_goals simp
/-- `signalWake` leaves `sec` alone. -/
@[simp] theorem signalWake_sec  (s : State) : (signalWake s).sec = s.sec := by
  unfold signalWake; repeat' split
  all_goals simp
/-- `signalWake` leaves `spr` alone. -/
@[simp] theorem signalWake_spr  (s : State) : (signalWake s).spr = s.spr := by
  unfold signalWake; repeat' split
  all_goals simp
/-- `signalWake` leaves `tst` alone. -/
@[simp] theorem signalWake_tst  (s : State) : (signalWake s).tst = s.tst := by
  unfold signalWake; repeat' split
  all_goals simp

/-! ### dormantWake -/

/-- `dormantWake` leaves `pending` alone. -/
@[simp] theorem dormantWake_pending (x : Source) (s : State) : (dormantWake x s).pending = s.pending := by
  unfold dormantWake; repeat' split
  all_goals simp
/-- `dormantWake` leaves `fresh` alone. -/
@[simp] theorem dormantWake_fresh (x : Source) (s : State) : (dormantWake x s).fresh = s.fresh := by
  unfold dormantWake; repeat' split
  all_goals simp
/-- `dormantWake` leaves `mem` alone. -/
@[simp] theorem dormantWake_mem (x : Source) (s : State) : (dormantWake x s).mem = s.mem := by
  unfold dormantWake; repeat' split
  all_goals simp
/-- `dormantWake` leaves `bad` alone. -/
@[simp] theorem dormantWake_bad (x : Source) (s : State) : (dormantWake x s).bad = s.bad := by
  unfold dormantWake; repeat' split
  all_goals simp
/-- `dormantWake` leaves `hdr` alone. -/
@[simp] theorem dormantWake_hdr (x : Source) (s : State) : (dormantWake x s).hdr = s.hdr := by
  unfold dormantWake; repeat' split
  all_goals simp
/-- `dormantWake` leaves `glb` alone. -/
@[simp] theorem dormantWake_glb (x : Source) (s : State) : (dormantWake x s).glb = s.glb := by
  unfold dormantWake; repeat' split
  all_goals simp
/-- `dormantWake` leaves `pwr` alone. -/
@[simp] theorem dormantWake_pwr (x : Source) (s : State) : (dormantWake x s).pwr = s.pwr := by
  unfold dormantWake; repeat' split
  all_goals simp
/-- `dormantWake` leaves `mer` alone. -/
@[simp] theorem dormantWake_mer (x : Source) (s : State) : (dormantWake x s).mer = s.mer := by
  unfold dormantWake; repeat' split
  all_goals simp
/-- `dormantWake` leaves `reeds` alone. -/
@[simp] theorem dormantWake_reeds (x : Source) (s : State) : (dormantWake x s).reeds = s.reeds := by
  unfold dormantWake; repeat' split
  all_goals simp
/-- `dormantWake` leaves `binding` alone. -/
@[simp] theorem dormantWake_binding (x : Source) (s : State) : (dormantWake x s).binding = s.binding := by
  unfold dormantWake; repeat' split
  all_goals simp
/-- `dormantWake` leaves `beds` alone. -/
@[simp] theorem dormantWake_beds (x : Source) (s : State) : (dormantWake x s).beds = s.beds := by
  unfold dormantWake; repeat' split
  all_goals simp
/-- `dormantWake` leaves `hbm` alone. -/
@[simp] theorem dormantWake_hbm (x : Source) (s : State) : (dormantWake x s).hbm = s.hbm := by
  unfold dormantWake; repeat' split
  all_goals simp
/-- `dormantWake` leaves `srcs` alone. -/
@[simp] theorem dormantWake_srcs (x : Source) (s : State) : (dormantWake x s).srcs = s.srcs := by
  unfold dormantWake; repeat' split
  all_goals simp
/-- `dormantWake` leaves `qmg` alone. -/
@[simp] theorem dormantWake_qmg (x : Source) (s : State) : (dormantWake x s).qmg = s.qmg := by
  unfold dormantWake; repeat' split
  all_goals simp
/-- `dormantWake` leaves `evr` alone. -/
@[simp] theorem dormantWake_evr (x : Source) (s : State) : (dormantWake x s).evr = s.evr := by
  unfold dormantWake; repeat' split
  all_goals simp
/-- `dormantWake` leaves `links` alone. -/
@[simp] theorem dormantWake_links (x : Source) (s : State) : (dormantWake x s).links = s.links := by
  unfold dormantWake; repeat' split
  all_goals simp
/-- `dormantWake` leaves `atl` alone. -/
@[simp] theorem dormantWake_atl (x : Source) (s : State) : (dormantWake x s).atl = s.atl := by
  unfold dormantWake; repeat' split
  all_goals simp
/-- `dormantWake` leaves `slc` alone. -/
@[simp] theorem dormantWake_slc (x : Source) (s : State) : (dormantWake x s).slc = s.slc := by
  unfold dormantWake; repeat' split
  all_goals simp
/-- `dormantWake` leaves `asp` alone. -/
@[simp] theorem dormantWake_asp (x : Source) (s : State) : (dormantWake x s).asp = s.asp := by
  unfold dormantWake; repeat' split
  all_goals simp
/-- `dormantWake` leaves `ssp` alone. -/
@[simp] theorem dormantWake_ssp (x : Source) (s : State) : (dormantWake x s).ssp = s.ssp := by
  unfold dormantWake; repeat' split
  all_goals simp
/-- `dormantWake` leaves `tcu` alone. -/
@[simp] theorem dormantWake_tcu (x : Source) (s : State) : (dormantWake x s).tcu = s.tcu := by
  unfold dormantWake; repeat' split
  all_goals simp
/-- `dormantWake` leaves `sec` alone. -/
@[simp] theorem dormantWake_sec (x : Source) (s : State) : (dormantWake x s).sec = s.sec := by
  unfold dormantWake; repeat' split
  all_goals simp
/-- `dormantWake` leaves `spr` alone. -/
@[simp] theorem dormantWake_spr (x : Source) (s : State) : (dormantWake x s).spr = s.spr := by
  unfold dormantWake; repeat' split
  all_goals simp
/-- `dormantWake` leaves `tst` alone. -/
@[simp] theorem dormantWake_tst (x : Source) (s : State) : (dormantWake x s).tst = s.tst := by
  unfold dormantWake; repeat' split
  all_goals simp

/-! ### fireSource -/

/-- `fireSource` leaves `pending` alone. -/
@[simp] theorem fireSource_pending (n : Nat) (s : State) : (fireSource n s).pending = s.pending := by
  unfold fireSource; simp only []; split <;> simp
/-- `fireSource` leaves `fresh` alone. -/
@[simp] theorem fireSource_fresh (n : Nat) (s : State) : (fireSource n s).fresh = s.fresh := by
  unfold fireSource; simp only []; split <;> simp
/-- `fireSource` leaves `mem` alone. -/
@[simp] theorem fireSource_mem (n : Nat) (s : State) : (fireSource n s).mem = s.mem := by
  unfold fireSource; simp only []; split <;> simp
/-- `fireSource` leaves `bad` alone. -/
@[simp] theorem fireSource_bad (n : Nat) (s : State) : (fireSource n s).bad = s.bad := by
  unfold fireSource; simp only []; split <;> simp
/-- `fireSource` leaves `hdr` alone. -/
@[simp] theorem fireSource_hdr (n : Nat) (s : State) : (fireSource n s).hdr = s.hdr := by
  unfold fireSource; simp only []; split <;> simp
/-- `fireSource` leaves `glb` alone. -/
@[simp] theorem fireSource_glb (n : Nat) (s : State) : (fireSource n s).glb = s.glb := by
  unfold fireSource; simp only []; split <;> simp
/-- `fireSource` leaves `pwr` alone. -/
@[simp] theorem fireSource_pwr (n : Nat) (s : State) : (fireSource n s).pwr = s.pwr := by
  unfold fireSource; simp only []; split <;> simp
/-- `fireSource` leaves `mer` alone. -/
@[simp] theorem fireSource_mer (n : Nat) (s : State) : (fireSource n s).mer = s.mer := by
  unfold fireSource; simp only []; split <;> simp
/-- `fireSource` leaves `reeds` alone. -/
@[simp] theorem fireSource_reeds (n : Nat) (s : State) : (fireSource n s).reeds = s.reeds := by
  unfold fireSource; simp only []; split <;> simp
/-- `fireSource` leaves `binding` alone. -/
@[simp] theorem fireSource_binding (n : Nat) (s : State) : (fireSource n s).binding = s.binding := by
  unfold fireSource; simp only []; split <;> simp
/-- `fireSource` leaves `beds` alone. -/
@[simp] theorem fireSource_beds (n : Nat) (s : State) : (fireSource n s).beds = s.beds := by
  unfold fireSource; simp only []; split <;> simp
/-- `fireSource` leaves `hbm` alone. -/
@[simp] theorem fireSource_hbm (n : Nat) (s : State) : (fireSource n s).hbm = s.hbm := by
  unfold fireSource; simp only []; split <;> simp
/-- `fireSource` leaves `qmg` alone. -/
@[simp] theorem fireSource_qmg (n : Nat) (s : State) : (fireSource n s).qmg = s.qmg := by
  unfold fireSource; simp only []; split <;> simp
/-- `fireSource` leaves `evr` alone. -/
@[simp] theorem fireSource_evr (n : Nat) (s : State) : (fireSource n s).evr = s.evr := by
  unfold fireSource; simp only []; split <;> simp
/-- `fireSource` leaves `links` alone. -/
@[simp] theorem fireSource_links (n : Nat) (s : State) : (fireSource n s).links = s.links := by
  unfold fireSource; simp only []; split <;> simp
/-- `fireSource` leaves `atl` alone. -/
@[simp] theorem fireSource_atl (n : Nat) (s : State) : (fireSource n s).atl = s.atl := by
  unfold fireSource; simp only []; split <;> simp
/-- `fireSource` leaves `slc` alone. -/
@[simp] theorem fireSource_slc (n : Nat) (s : State) : (fireSource n s).slc = s.slc := by
  unfold fireSource; simp only []; split <;> simp
/-- `fireSource` leaves `asp` alone. -/
@[simp] theorem fireSource_asp (n : Nat) (s : State) : (fireSource n s).asp = s.asp := by
  unfold fireSource; simp only []; split <;> simp
/-- `fireSource` leaves `ssp` alone. -/
@[simp] theorem fireSource_ssp (n : Nat) (s : State) : (fireSource n s).ssp = s.ssp := by
  unfold fireSource; simp only []; split <;> simp
/-- `fireSource` leaves `tcu` alone. -/
@[simp] theorem fireSource_tcu (n : Nat) (s : State) : (fireSource n s).tcu = s.tcu := by
  unfold fireSource; simp only []; split <;> simp
/-- `fireSource` leaves `sec` alone. -/
@[simp] theorem fireSource_sec (n : Nat) (s : State) : (fireSource n s).sec = s.sec := by
  unfold fireSource; simp only []; split <;> simp
/-- `fireSource` leaves `spr` alone. -/
@[simp] theorem fireSource_spr (n : Nat) (s : State) : (fireSource n s).spr = s.spr := by
  unfold fireSource; simp only []; split <;> simp
/-- `fireSource` leaves `tst` alone. -/
@[simp] theorem fireSource_tst (n : Nat) (s : State) : (fireSource n s).tst = s.tst := by
  unfold fireSource; simp only []; split <;> simp

/-! ### setHdr -/

/-- `setHdr` leaves `pending` alone. -/
@[simp] theorem setHdr_pending (pg : Nat) (h : PageHdr) (s : State) : (setHdr pg h s).pending = s.pending := by
  unfold setHdr; simp only []
  rw [foldl_keeps (fun t => t.pending) _ (by intro t b; split <;> simp)]
/-- `setHdr` leaves `fresh` alone. -/
@[simp] theorem setHdr_fresh (pg : Nat) (h : PageHdr) (s : State) : (setHdr pg h s).fresh = s.fresh := by
  unfold setHdr; simp only []
  rw [foldl_keeps (fun t => t.fresh) _ (by intro t b; split <;> simp)]
/-- `setHdr` leaves `mem` alone. -/
@[simp] theorem setHdr_mem (pg : Nat) (h : PageHdr) (s : State) : (setHdr pg h s).mem = s.mem := by
  unfold setHdr; simp only []
  rw [foldl_keeps (fun t => t.mem) _ (by intro t b; split <;> simp)]
/-- `setHdr` leaves `bad` alone. -/
@[simp] theorem setHdr_bad (pg : Nat) (h : PageHdr) (s : State) : (setHdr pg h s).bad = s.bad := by
  unfold setHdr; simp only []
  rw [foldl_keeps (fun t => t.bad) _ (by intro t b; split <;> simp)]
/-- `setHdr` leaves `glb` alone. -/
@[simp] theorem setHdr_glb (pg : Nat) (h : PageHdr) (s : State) : (setHdr pg h s).glb = s.glb := by
  unfold setHdr; simp only []
  rw [foldl_keeps (fun t => t.glb) _ (by intro t b; split <;> simp)]
/-- `setHdr` leaves `pwr` alone. -/
@[simp] theorem setHdr_pwr (pg : Nat) (h : PageHdr) (s : State) : (setHdr pg h s).pwr = s.pwr := by
  unfold setHdr; simp only []
  rw [foldl_keeps (fun t => t.pwr) _ (by intro t b; split <;> simp)]
/-- `setHdr` leaves `mer` alone. -/
@[simp] theorem setHdr_mer (pg : Nat) (h : PageHdr) (s : State) : (setHdr pg h s).mer = s.mer := by
  unfold setHdr; simp only []
  rw [foldl_keeps (fun t => t.mer) _ (by intro t b; split <;> simp)]
/-- `setHdr` leaves `reeds` alone. -/
@[simp] theorem setHdr_reeds (pg : Nat) (h : PageHdr) (s : State) : (setHdr pg h s).reeds = s.reeds := by
  unfold setHdr; simp only []
  rw [foldl_keeps (fun t => t.reeds) _ (by intro t b; split <;> simp)]
/-- `setHdr` leaves `binding` alone. -/
@[simp] theorem setHdr_binding (pg : Nat) (h : PageHdr) (s : State) : (setHdr pg h s).binding = s.binding := by
  unfold setHdr; simp only []
  rw [foldl_keeps (fun t => t.binding) _ (by intro t b; split <;> simp)]
/-- `setHdr` leaves `beds` alone. -/
@[simp] theorem setHdr_beds (pg : Nat) (h : PageHdr) (s : State) : (setHdr pg h s).beds = s.beds := by
  unfold setHdr; simp only []
  rw [foldl_keeps (fun t => t.beds) _ (by intro t b; split <;> simp)]
/-- `setHdr` leaves `hbm` alone. -/
@[simp] theorem setHdr_hbm (pg : Nat) (h : PageHdr) (s : State) : (setHdr pg h s).hbm = s.hbm := by
  unfold setHdr; simp only []
  rw [foldl_keeps (fun t => t.hbm) _ (by intro t b; split <;> simp)]
/-- `setHdr` leaves `qmg` alone. -/
@[simp] theorem setHdr_qmg (pg : Nat) (h : PageHdr) (s : State) : (setHdr pg h s).qmg = s.qmg := by
  unfold setHdr; simp only []
  rw [foldl_keeps (fun t => t.qmg) _ (by intro t b; split <;> simp)]
/-- `setHdr` leaves `evr` alone. -/
@[simp] theorem setHdr_evr (pg : Nat) (h : PageHdr) (s : State) : (setHdr pg h s).evr = s.evr := by
  unfold setHdr; simp only []
  rw [foldl_keeps (fun t => t.evr) _ (by intro t b; split <;> simp)]
/-- `setHdr` leaves `links` alone. -/
@[simp] theorem setHdr_links (pg : Nat) (h : PageHdr) (s : State) : (setHdr pg h s).links = s.links := by
  unfold setHdr; simp only []
  rw [foldl_keeps (fun t => t.links) _ (by intro t b; split <;> simp)]
/-- `setHdr` leaves `atl` alone. -/
@[simp] theorem setHdr_atl (pg : Nat) (h : PageHdr) (s : State) : (setHdr pg h s).atl = s.atl := by
  unfold setHdr; simp only []
  rw [foldl_keeps (fun t => t.atl) _ (by intro t b; split <;> simp)]
/-- `setHdr` leaves `slc` alone. -/
@[simp] theorem setHdr_slc (pg : Nat) (h : PageHdr) (s : State) : (setHdr pg h s).slc = s.slc := by
  unfold setHdr; simp only []
  rw [foldl_keeps (fun t => t.slc) _ (by intro t b; split <;> simp)]
/-- `setHdr` leaves `asp` alone. -/
@[simp] theorem setHdr_asp (pg : Nat) (h : PageHdr) (s : State) : (setHdr pg h s).asp = s.asp := by
  unfold setHdr; simp only []
  rw [foldl_keeps (fun t => t.asp) _ (by intro t b; split <;> simp)]
/-- `setHdr` leaves `ssp` alone. -/
@[simp] theorem setHdr_ssp (pg : Nat) (h : PageHdr) (s : State) : (setHdr pg h s).ssp = s.ssp := by
  unfold setHdr; simp only []
  rw [foldl_keeps (fun t => t.ssp) _ (by intro t b; split <;> simp)]
/-- `setHdr` leaves `tcu` alone. -/
@[simp] theorem setHdr_tcu (pg : Nat) (h : PageHdr) (s : State) : (setHdr pg h s).tcu = s.tcu := by
  unfold setHdr; simp only []
  rw [foldl_keeps (fun t => t.tcu) _ (by intro t b; split <;> simp)]
/-- `setHdr` leaves `sec` alone. -/
@[simp] theorem setHdr_sec (pg : Nat) (h : PageHdr) (s : State) : (setHdr pg h s).sec = s.sec := by
  unfold setHdr; simp only []
  rw [foldl_keeps (fun t => t.sec) _ (by intro t b; split <;> simp)]
/-- `setHdr` leaves `spr` alone. -/
@[simp] theorem setHdr_spr (pg : Nat) (h : PageHdr) (s : State) : (setHdr pg h s).spr = s.spr := by
  unfold setHdr; simp only []
  rw [foldl_keeps (fun t => t.spr) _ (by intro t b; split <;> simp)]
/-- `setHdr` leaves `tst` alone. -/
@[simp] theorem setHdr_tst (pg : Nat) (h : PageHdr) (s : State) : (setHdr pg h s).tst = s.tst := by
  unfold setHdr; simp only []
  rw [foldl_keeps (fun t => t.tst) _ (by intro t b; split <;> simp)]

/-! ### irqSet -/

/-- `irqSet` leaves `pending` alone. -/
@[simp] theorem irqSet_pending (pg : Nat) (mask : W32) (s : State) : (irqSet pg mask s).pending = s.pending := by
  simp [irqSet]
/-- `irqSet` leaves `fresh` alone. -/
@[simp] theorem irqSet_fresh (pg : Nat) (mask : W32) (s : State) : (irqSet pg mask s).fresh = s.fresh := by
  simp [irqSet]
/-- `irqSet` leaves `mem` alone. -/
@[simp] theorem irqSet_mem (pg : Nat) (mask : W32) (s : State) : (irqSet pg mask s).mem = s.mem := by
  simp [irqSet]
/-- `irqSet` leaves `bad` alone. -/
@[simp] theorem irqSet_bad (pg : Nat) (mask : W32) (s : State) : (irqSet pg mask s).bad = s.bad := by
  simp [irqSet]
/-- `irqSet` leaves `glb` alone. -/
@[simp] theorem irqSet_glb (pg : Nat) (mask : W32) (s : State) : (irqSet pg mask s).glb = s.glb := by
  simp [irqSet]
/-- `irqSet` leaves `pwr` alone. -/
@[simp] theorem irqSet_pwr (pg : Nat) (mask : W32) (s : State) : (irqSet pg mask s).pwr = s.pwr := by
  simp [irqSet]
/-- `irqSet` leaves `mer` alone. -/
@[simp] theorem irqSet_mer (pg : Nat) (mask : W32) (s : State) : (irqSet pg mask s).mer = s.mer := by
  simp [irqSet]
/-- `irqSet` leaves `reeds` alone. -/
@[simp] theorem irqSet_reeds (pg : Nat) (mask : W32) (s : State) : (irqSet pg mask s).reeds = s.reeds := by
  simp [irqSet]
/-- `irqSet` leaves `binding` alone. -/
@[simp] theorem irqSet_binding (pg : Nat) (mask : W32) (s : State) : (irqSet pg mask s).binding = s.binding := by
  simp [irqSet]
/-- `irqSet` leaves `beds` alone. -/
@[simp] theorem irqSet_beds (pg : Nat) (mask : W32) (s : State) : (irqSet pg mask s).beds = s.beds := by
  simp [irqSet]
/-- `irqSet` leaves `hbm` alone. -/
@[simp] theorem irqSet_hbm (pg : Nat) (mask : W32) (s : State) : (irqSet pg mask s).hbm = s.hbm := by
  simp [irqSet]
/-- `irqSet` leaves `qmg` alone. -/
@[simp] theorem irqSet_qmg (pg : Nat) (mask : W32) (s : State) : (irqSet pg mask s).qmg = s.qmg := by
  simp [irqSet]
/-- `irqSet` leaves `evr` alone. -/
@[simp] theorem irqSet_evr (pg : Nat) (mask : W32) (s : State) : (irqSet pg mask s).evr = s.evr := by
  simp [irqSet]
/-- `irqSet` leaves `links` alone. -/
@[simp] theorem irqSet_links (pg : Nat) (mask : W32) (s : State) : (irqSet pg mask s).links = s.links := by
  simp [irqSet]
/-- `irqSet` leaves `atl` alone. -/
@[simp] theorem irqSet_atl (pg : Nat) (mask : W32) (s : State) : (irqSet pg mask s).atl = s.atl := by
  simp [irqSet]
/-- `irqSet` leaves `slc` alone. -/
@[simp] theorem irqSet_slc (pg : Nat) (mask : W32) (s : State) : (irqSet pg mask s).slc = s.slc := by
  simp [irqSet]
/-- `irqSet` leaves `asp` alone. -/
@[simp] theorem irqSet_asp (pg : Nat) (mask : W32) (s : State) : (irqSet pg mask s).asp = s.asp := by
  simp [irqSet]
/-- `irqSet` leaves `ssp` alone. -/
@[simp] theorem irqSet_ssp (pg : Nat) (mask : W32) (s : State) : (irqSet pg mask s).ssp = s.ssp := by
  simp [irqSet]
/-- `irqSet` leaves `tcu` alone. -/
@[simp] theorem irqSet_tcu (pg : Nat) (mask : W32) (s : State) : (irqSet pg mask s).tcu = s.tcu := by
  simp [irqSet]
/-- `irqSet` leaves `sec` alone. -/
@[simp] theorem irqSet_sec (pg : Nat) (mask : W32) (s : State) : (irqSet pg mask s).sec = s.sec := by
  simp [irqSet]
/-- `irqSet` leaves `spr` alone. -/
@[simp] theorem irqSet_spr (pg : Nat) (mask : W32) (s : State) : (irqSet pg mask s).spr = s.spr := by
  simp [irqSet]
/-- `irqSet` leaves `tst` alone. -/
@[simp] theorem irqSet_tst (pg : Nat) (mask : W32) (s : State) : (irqSet pg mask s).tst = s.tst := by
  simp [irqSet]

/-! ### glbErr -/

/-- `glbErr` leaves `pending` alone. -/
@[simp] theorem glbErr_pending (cause : Nat) (ag : Agent) (ix : Nat) (s : State) : (glbErr cause ag ix s).pending = s.pending := by
  simp [glbErr]
/-- `glbErr` leaves `fresh` alone. -/
@[simp] theorem glbErr_fresh (cause : Nat) (ag : Agent) (ix : Nat) (s : State) : (glbErr cause ag ix s).fresh = s.fresh := by
  simp [glbErr]
/-- `glbErr` leaves `mem` alone. -/
@[simp] theorem glbErr_mem (cause : Nat) (ag : Agent) (ix : Nat) (s : State) : (glbErr cause ag ix s).mem = s.mem := by
  simp [glbErr]
/-- `glbErr` leaves `bad` alone. -/
@[simp] theorem glbErr_bad (cause : Nat) (ag : Agent) (ix : Nat) (s : State) : (glbErr cause ag ix s).bad = s.bad := by
  simp [glbErr]
/-- `glbErr` leaves `pwr` alone. -/
@[simp] theorem glbErr_pwr (cause : Nat) (ag : Agent) (ix : Nat) (s : State) : (glbErr cause ag ix s).pwr = s.pwr := by
  simp [glbErr]
/-- `glbErr` leaves `mer` alone. -/
@[simp] theorem glbErr_mer (cause : Nat) (ag : Agent) (ix : Nat) (s : State) : (glbErr cause ag ix s).mer = s.mer := by
  simp [glbErr]
/-- `glbErr` leaves `reeds` alone. -/
@[simp] theorem glbErr_reeds (cause : Nat) (ag : Agent) (ix : Nat) (s : State) : (glbErr cause ag ix s).reeds = s.reeds := by
  simp [glbErr]
/-- `glbErr` leaves `binding` alone. -/
@[simp] theorem glbErr_binding (cause : Nat) (ag : Agent) (ix : Nat) (s : State) : (glbErr cause ag ix s).binding = s.binding := by
  simp [glbErr]
/-- `glbErr` leaves `beds` alone. -/
@[simp] theorem glbErr_beds (cause : Nat) (ag : Agent) (ix : Nat) (s : State) : (glbErr cause ag ix s).beds = s.beds := by
  simp [glbErr]
/-- `glbErr` leaves `hbm` alone. -/
@[simp] theorem glbErr_hbm (cause : Nat) (ag : Agent) (ix : Nat) (s : State) : (glbErr cause ag ix s).hbm = s.hbm := by
  simp [glbErr]
/-- `glbErr` leaves `qmg` alone. -/
@[simp] theorem glbErr_qmg (cause : Nat) (ag : Agent) (ix : Nat) (s : State) : (glbErr cause ag ix s).qmg = s.qmg := by
  simp [glbErr]
/-- `glbErr` leaves `evr` alone. -/
@[simp] theorem glbErr_evr (cause : Nat) (ag : Agent) (ix : Nat) (s : State) : (glbErr cause ag ix s).evr = s.evr := by
  simp [glbErr]
/-- `glbErr` leaves `links` alone. -/
@[simp] theorem glbErr_links (cause : Nat) (ag : Agent) (ix : Nat) (s : State) : (glbErr cause ag ix s).links = s.links := by
  simp [glbErr]
/-- `glbErr` leaves `atl` alone. -/
@[simp] theorem glbErr_atl (cause : Nat) (ag : Agent) (ix : Nat) (s : State) : (glbErr cause ag ix s).atl = s.atl := by
  simp [glbErr]
/-- `glbErr` leaves `slc` alone. -/
@[simp] theorem glbErr_slc (cause : Nat) (ag : Agent) (ix : Nat) (s : State) : (glbErr cause ag ix s).slc = s.slc := by
  simp [glbErr]
/-- `glbErr` leaves `asp` alone. -/
@[simp] theorem glbErr_asp (cause : Nat) (ag : Agent) (ix : Nat) (s : State) : (glbErr cause ag ix s).asp = s.asp := by
  simp [glbErr]
/-- `glbErr` leaves `ssp` alone. -/
@[simp] theorem glbErr_ssp (cause : Nat) (ag : Agent) (ix : Nat) (s : State) : (glbErr cause ag ix s).ssp = s.ssp := by
  simp [glbErr]
/-- `glbErr` leaves `tcu` alone. -/
@[simp] theorem glbErr_tcu (cause : Nat) (ag : Agent) (ix : Nat) (s : State) : (glbErr cause ag ix s).tcu = s.tcu := by
  simp [glbErr]
/-- `glbErr` leaves `sec` alone. -/
@[simp] theorem glbErr_sec (cause : Nat) (ag : Agent) (ix : Nat) (s : State) : (glbErr cause ag ix s).sec = s.sec := by
  simp [glbErr]
/-- `glbErr` leaves `spr` alone. -/
@[simp] theorem glbErr_spr (cause : Nat) (ag : Agent) (ix : Nat) (s : State) : (glbErr cause ag ix s).spr = s.spr := by
  simp [glbErr]
/-- `glbErr` leaves `tst` alone. -/
@[simp] theorem glbErr_tst (cause : Nat) (ag : Agent) (ix : Nat) (s : State) : (glbErr cause ag ix s).tst = s.tst := by
  simp [glbErr]

/-! ### refuseReg -/

/-- `refuseReg` leaves `pending` alone. -/
@[simp] theorem refuseReg_pending (cause ag off : Nat) (s : State) : (refuseReg cause ag off s).pending = s.pending := by
  simp [refuseReg]
/-- `refuseReg` leaves `fresh` alone. -/
@[simp] theorem refuseReg_fresh (cause ag off : Nat) (s : State) : (refuseReg cause ag off s).fresh = s.fresh := by
  simp [refuseReg]
/-- `refuseReg` leaves `mem` alone. -/
@[simp] theorem refuseReg_mem (cause ag off : Nat) (s : State) : (refuseReg cause ag off s).mem = s.mem := by
  simp [refuseReg]
/-- `refuseReg` leaves `bad` alone. -/
@[simp] theorem refuseReg_bad (cause ag off : Nat) (s : State) : (refuseReg cause ag off s).bad = s.bad := by
  simp [refuseReg]
/-- `refuseReg` leaves `pwr` alone. -/
@[simp] theorem refuseReg_pwr (cause ag off : Nat) (s : State) : (refuseReg cause ag off s).pwr = s.pwr := by
  simp [refuseReg]
/-- `refuseReg` leaves `mer` alone. -/
@[simp] theorem refuseReg_mer (cause ag off : Nat) (s : State) : (refuseReg cause ag off s).mer = s.mer := by
  simp [refuseReg]
/-- `refuseReg` leaves `reeds` alone. -/
@[simp] theorem refuseReg_reeds (cause ag off : Nat) (s : State) : (refuseReg cause ag off s).reeds = s.reeds := by
  simp [refuseReg]
/-- `refuseReg` leaves `binding` alone. -/
@[simp] theorem refuseReg_binding (cause ag off : Nat) (s : State) : (refuseReg cause ag off s).binding = s.binding := by
  simp [refuseReg]
/-- `refuseReg` leaves `beds` alone. -/
@[simp] theorem refuseReg_beds (cause ag off : Nat) (s : State) : (refuseReg cause ag off s).beds = s.beds := by
  simp [refuseReg]
/-- `refuseReg` leaves `hbm` alone. -/
@[simp] theorem refuseReg_hbm (cause ag off : Nat) (s : State) : (refuseReg cause ag off s).hbm = s.hbm := by
  simp [refuseReg]
/-- `refuseReg` leaves `qmg` alone. -/
@[simp] theorem refuseReg_qmg (cause ag off : Nat) (s : State) : (refuseReg cause ag off s).qmg = s.qmg := by
  simp [refuseReg]
/-- `refuseReg` leaves `evr` alone. -/
@[simp] theorem refuseReg_evr (cause ag off : Nat) (s : State) : (refuseReg cause ag off s).evr = s.evr := by
  simp [refuseReg]
/-- `refuseReg` leaves `links` alone. -/
@[simp] theorem refuseReg_links (cause ag off : Nat) (s : State) : (refuseReg cause ag off s).links = s.links := by
  simp [refuseReg]
/-- `refuseReg` leaves `atl` alone. -/
@[simp] theorem refuseReg_atl (cause ag off : Nat) (s : State) : (refuseReg cause ag off s).atl = s.atl := by
  simp [refuseReg]
/-- `refuseReg` leaves `slc` alone. -/
@[simp] theorem refuseReg_slc (cause ag off : Nat) (s : State) : (refuseReg cause ag off s).slc = s.slc := by
  simp [refuseReg]
/-- `refuseReg` leaves `asp` alone. -/
@[simp] theorem refuseReg_asp (cause ag off : Nat) (s : State) : (refuseReg cause ag off s).asp = s.asp := by
  simp [refuseReg]
/-- `refuseReg` leaves `ssp` alone. -/
@[simp] theorem refuseReg_ssp (cause ag off : Nat) (s : State) : (refuseReg cause ag off s).ssp = s.ssp := by
  simp [refuseReg]
/-- `refuseReg` leaves `tcu` alone. -/
@[simp] theorem refuseReg_tcu (cause ag off : Nat) (s : State) : (refuseReg cause ag off s).tcu = s.tcu := by
  simp [refuseReg]
/-- `refuseReg` leaves `sec` alone. -/
@[simp] theorem refuseReg_sec (cause ag off : Nat) (s : State) : (refuseReg cause ag off s).sec = s.sec := by
  simp [refuseReg]
/-- `refuseReg` leaves `spr` alone. -/
@[simp] theorem refuseReg_spr (cause ag off : Nat) (s : State) : (refuseReg cause ag off s).spr = s.spr := by
  simp [refuseReg]
/-- `refuseReg` leaves `tst` alone. -/
@[simp] theorem refuseReg_tst (cause ag off : Nat) (s : State) : (refuseReg cause ag off s).tst = s.tst := by
  simp [refuseReg]

/-! ### retireReed -/

/-- `retireReed` leaves `pending` alone. -/
@[simp] theorem retireReed_pending (l : Nat) (u f : Bool) (s : State) : (retireReed l u f s).pending = s.pending := by
  unfold retireReed; simp only []; split <;> rfl
/-- `retireReed` leaves `out` alone. -/
@[simp] theorem retireReed_out (l : Nat) (u f : Bool) (s : State) : (retireReed l u f s).out = s.out := by
  unfold retireReed; simp only []; split <;> rfl
/-- `retireReed` leaves `fresh` alone. -/
@[simp] theorem retireReed_fresh (l : Nat) (u f : Bool) (s : State) : (retireReed l u f s).fresh = s.fresh := by
  unfold retireReed; simp only []; split <;> rfl
/-- `retireReed` leaves `mem` alone. -/
@[simp] theorem retireReed_mem (l : Nat) (u f : Bool) (s : State) : (retireReed l u f s).mem = s.mem := by
  unfold retireReed; simp only []; split <;> rfl
/-- `retireReed` leaves `bad` alone. -/
@[simp] theorem retireReed_bad (l : Nat) (u f : Bool) (s : State) : (retireReed l u f s).bad = s.bad := by
  unfold retireReed; simp only []; split <;> rfl
/-- `retireReed` leaves `hdr` alone. -/
@[simp] theorem retireReed_hdr (l : Nat) (u f : Bool) (s : State) : (retireReed l u f s).hdr = s.hdr := by
  unfold retireReed; simp only []; split <;> rfl
/-- `retireReed` leaves `glb` alone. -/
@[simp] theorem retireReed_glb (l : Nat) (u f : Bool) (s : State) : (retireReed l u f s).glb = s.glb := by
  unfold retireReed; simp only []; split <;> rfl
/-- `retireReed` leaves `pwr` alone. -/
@[simp] theorem retireReed_pwr (l : Nat) (u f : Bool) (s : State) : (retireReed l u f s).pwr = s.pwr := by
  unfold retireReed; simp only []; split <;> rfl
/-- `retireReed` leaves `mer` alone. -/
@[simp] theorem retireReed_mer (l : Nat) (u f : Bool) (s : State) : (retireReed l u f s).mer = s.mer := by
  unfold retireReed; simp only []; split <;> rfl
/-- `retireReed` leaves `fbk` alone. -/
@[simp] theorem retireReed_fbk (l : Nat) (u f : Bool) (s : State) : (retireReed l u f s).fbk = s.fbk := by
  unfold retireReed; simp only []; split <;> rfl
/-- `retireReed` leaves `reeds` alone. -/
@[simp] theorem retireReed_reeds (l : Nat) (u f : Bool) (s : State) : (retireReed l u f s).reeds = s.reeds := by
  unfold retireReed; simp only []; split <;> rfl
/-- `retireReed` leaves `binding` alone. -/
@[simp] theorem retireReed_binding (l : Nat) (u f : Bool) (s : State) : (retireReed l u f s).binding = s.binding := by
  unfold retireReed; simp only []; split <;> rfl
/-- `retireReed` leaves `beds` alone. -/
@[simp] theorem retireReed_beds (l : Nat) (u f : Bool) (s : State) : (retireReed l u f s).beds = s.beds := by
  unfold retireReed; simp only []; split <;> rfl
/-- `retireReed` leaves `hbm` alone. -/
@[simp] theorem retireReed_hbm (l : Nat) (u f : Bool) (s : State) : (retireReed l u f s).hbm = s.hbm := by
  unfold retireReed; simp only []; split <;> rfl
/-- `retireReed` leaves `srcs` alone. -/
@[simp] theorem retireReed_srcs (l : Nat) (u f : Bool) (s : State) : (retireReed l u f s).srcs = s.srcs := by
  unfold retireReed; simp only []; split <;> rfl
/-- `retireReed` leaves `qmg` alone. -/
@[simp] theorem retireReed_qmg (l : Nat) (u f : Bool) (s : State) : (retireReed l u f s).qmg = s.qmg := by
  unfold retireReed; simp only []; split <;> rfl
/-- `retireReed` leaves `evr` alone. -/
@[simp] theorem retireReed_evr (l : Nat) (u f : Bool) (s : State) : (retireReed l u f s).evr = s.evr := by
  unfold retireReed; simp only []; split <;> rfl
/-- `retireReed` leaves `cxl` alone. -/
@[simp] theorem retireReed_cxl (l : Nat) (u f : Bool) (s : State) : (retireReed l u f s).cxl = s.cxl := by
  unfold retireReed; simp only []; split <;> rfl
/-- `retireReed` leaves `links` alone. -/
@[simp] theorem retireReed_links (l : Nat) (u f : Bool) (s : State) : (retireReed l u f s).links = s.links := by
  unfold retireReed; simp only []; split <;> rfl
/-- `retireReed` leaves `atl` alone. -/
@[simp] theorem retireReed_atl (l : Nat) (u f : Bool) (s : State) : (retireReed l u f s).atl = s.atl := by
  unfold retireReed; simp only []; split <;> rfl
/-- `retireReed` leaves `slc` alone. -/
@[simp] theorem retireReed_slc (l : Nat) (u f : Bool) (s : State) : (retireReed l u f s).slc = s.slc := by
  unfold retireReed; simp only []; split <;> rfl
/-- `retireReed` leaves `asp` alone. -/
@[simp] theorem retireReed_asp (l : Nat) (u f : Bool) (s : State) : (retireReed l u f s).asp = s.asp := by
  unfold retireReed; simp only []; split <;> rfl
/-- `retireReed` leaves `ssp` alone. -/
@[simp] theorem retireReed_ssp (l : Nat) (u f : Bool) (s : State) : (retireReed l u f s).ssp = s.ssp := by
  unfold retireReed; simp only []; split <;> rfl
/-- `retireReed` leaves `tcu` alone. -/
@[simp] theorem retireReed_tcu (l : Nat) (u f : Bool) (s : State) : (retireReed l u f s).tcu = s.tcu := by
  unfold retireReed; simp only []; split <;> rfl
/-- `retireReed` leaves `sec` alone. -/
@[simp] theorem retireReed_sec (l : Nat) (u f : Bool) (s : State) : (retireReed l u f s).sec = s.sec := by
  unfold retireReed; simp only []; split <;> rfl
/-- `retireReed` leaves `tst` alone. -/
@[simp] theorem retireReed_tst (l : Nat) (u f : Bool) (s : State) : (retireReed l u f s).tst = s.tst := by
  unfold retireReed; simp only []; split <;> rfl

/-! ### retirePage -/

/-- `retirePage` leaves `pending` alone. -/
@[simp] theorem retirePage_pending (n : Nat) (s : State) : (retirePage n s).pending = s.pending := by
  unfold retirePage; repeat' split
  all_goals simp
/-- `retirePage` leaves `out` alone. -/
@[simp] theorem retirePage_out (n : Nat) (s : State) : (retirePage n s).out = s.out := by
  unfold retirePage; repeat' split
  all_goals simp
/-- `retirePage` leaves `fresh` alone. -/
@[simp] theorem retirePage_fresh (n : Nat) (s : State) : (retirePage n s).fresh = s.fresh := by
  unfold retirePage; repeat' split
  all_goals simp
/-- `retirePage` leaves `mem` alone. -/
@[simp] theorem retirePage_mem (n : Nat) (s : State) : (retirePage n s).mem = s.mem := by
  unfold retirePage; repeat' split
  all_goals simp
/-- `retirePage` leaves `bad` alone. -/
@[simp] theorem retirePage_bad (n : Nat) (s : State) : (retirePage n s).bad = s.bad := by
  unfold retirePage; repeat' split
  all_goals simp
/-- `retirePage` leaves `hdr` alone. -/
@[simp] theorem retirePage_hdr (n : Nat) (s : State) : (retirePage n s).hdr = s.hdr := by
  unfold retirePage; repeat' split
  all_goals simp
/-- `retirePage` leaves `glb` alone. -/
@[simp] theorem retirePage_glb (n : Nat) (s : State) : (retirePage n s).glb = s.glb := by
  unfold retirePage; repeat' split
  all_goals simp
/-- `retirePage` leaves `pwr` alone. -/
@[simp] theorem retirePage_pwr (n : Nat) (s : State) : (retirePage n s).pwr = s.pwr := by
  unfold retirePage; repeat' split
  all_goals simp
/-- `retirePage` leaves `mer` alone. -/
@[simp] theorem retirePage_mer (n : Nat) (s : State) : (retirePage n s).mer = s.mer := by
  unfold retirePage; repeat' split
  all_goals simp
/-- `retirePage` leaves `reeds` alone. -/
@[simp] theorem retirePage_reeds (n : Nat) (s : State) : (retirePage n s).reeds = s.reeds := by
  unfold retirePage; repeat' split
  all_goals simp
/-- `retirePage` leaves `binding` alone. -/
@[simp] theorem retirePage_binding (n : Nat) (s : State) : (retirePage n s).binding = s.binding := by
  unfold retirePage; repeat' split
  all_goals simp
/-- `retirePage` leaves `beds` alone. -/
@[simp] theorem retirePage_beds (n : Nat) (s : State) : (retirePage n s).beds = s.beds := by
  unfold retirePage; repeat' split
  all_goals simp
/-- `retirePage` leaves `srcs` alone. -/
@[simp] theorem retirePage_srcs (n : Nat) (s : State) : (retirePage n s).srcs = s.srcs := by
  unfold retirePage; repeat' split
  all_goals simp
/-- `retirePage` leaves `qmg` alone. -/
@[simp] theorem retirePage_qmg (n : Nat) (s : State) : (retirePage n s).qmg = s.qmg := by
  unfold retirePage; repeat' split
  all_goals simp
/-- `retirePage` leaves `evr` alone. -/
@[simp] theorem retirePage_evr (n : Nat) (s : State) : (retirePage n s).evr = s.evr := by
  unfold retirePage; repeat' split
  all_goals simp
/-- `retirePage` leaves `cxl` alone. -/
@[simp] theorem retirePage_cxl (n : Nat) (s : State) : (retirePage n s).cxl = s.cxl := by
  unfold retirePage; repeat' split
  all_goals simp
/-- `retirePage` leaves `links` alone. -/
@[simp] theorem retirePage_links (n : Nat) (s : State) : (retirePage n s).links = s.links := by
  unfold retirePage; repeat' split
  all_goals simp
/-- `retirePage` leaves `atl` alone. -/
@[simp] theorem retirePage_atl (n : Nat) (s : State) : (retirePage n s).atl = s.atl := by
  unfold retirePage; repeat' split
  all_goals simp
/-- `retirePage` leaves `slc` alone. -/
@[simp] theorem retirePage_slc (n : Nat) (s : State) : (retirePage n s).slc = s.slc := by
  unfold retirePage; repeat' split
  all_goals simp
/-- `retirePage` leaves `asp` alone. -/
@[simp] theorem retirePage_asp (n : Nat) (s : State) : (retirePage n s).asp = s.asp := by
  unfold retirePage; repeat' split
  all_goals simp
/-- `retirePage` leaves `ssp` alone. -/
@[simp] theorem retirePage_ssp (n : Nat) (s : State) : (retirePage n s).ssp = s.ssp := by
  unfold retirePage; repeat' split
  all_goals simp
/-- `retirePage` leaves `tcu` alone. -/
@[simp] theorem retirePage_tcu (n : Nat) (s : State) : (retirePage n s).tcu = s.tcu := by
  unfold retirePage; repeat' split
  all_goals simp
/-- `retirePage` leaves `sec` alone. -/
@[simp] theorem retirePage_sec (n : Nat) (s : State) : (retirePage n s).sec = s.sec := by
  unfold retirePage; repeat' split
  all_goals simp
/-- `retirePage` leaves `spr` alone. -/
@[simp] theorem retirePage_spr (n : Nat) (s : State) : (retirePage n s).spr = s.spr := by
  unfold retirePage; repeat' split
  all_goals simp
/-- `retirePage` leaves `tst` alone. -/
@[simp] theorem retirePage_tst (n : Nat) (s : State) : (retirePage n s).tst = s.tst := by
  unfold retirePage; repeat' split
  all_goals simp

/-! ### Time -/

/-- The tide counter is read from the MER page. -/
theorem now_of_mer {s t : State} (h : s.mer = t.mer) : now s = now t := by simp [now, h]

end Sys2Proof.Machine
end

