-- ==== Sys2Proof/Laws/Memory.lean ====
section
/-! SUPPORT. Sys2Proof/Laws/Memory.lean: reading after writing, and that every operation on the memory keeps its canonical
form. -/

namespace Sys2Proof.Machine

/-! ### The canonical form -/

/-- The canonical form, said of the whole list. -/
theorem memory_wf_iff (m : List Host.Cell) :
    Memory.wf m = true ↔ m.Pairwise (fun c d => c.1 < d.1) ∧ ∀ c ∈ m, c.2 ≠ 0 := by
  induction m with
  | nil => simp [Memory.wf]
  | cons c m ih =>
    cases m with
    | nil => simp [Memory.wf]
    | cons d m =>
      simp only [Memory.wf, Bool.and_eq_true, decide_eq_true_eq, bne_iff_ne, ih, List.pairwise_cons, List.mem_cons]
      constructor
      · rintro ⟨⟨hv, hlt⟩, ⟨hd, hp⟩, hz⟩
        refine ⟨⟨?_, hd, hp⟩, ?_⟩
        · rintro e (rfl | he)
          · exact hlt
          · exact Nat.lt_trans hlt (hd e he)
        · rintro e (rfl | he)
          · exact hv
          · exact hz e he
      · rintro ⟨⟨hc, hd, hp⟩, hz⟩
        exact ⟨⟨hz c (Or.inl rfl), hc d (Or.inl rfl)⟩, ⟨hd, hp⟩, fun e he => hz e (Or.inr he)⟩

/-- The empty memory is canonical. -/
@[simp] theorem memory_wf_nil : Memory.wf [] = true := rfl

/-- A part of a canonical memory is canonical. -/
theorem memory_wf_filter (p : Host.Cell → Bool) {m : List Host.Cell} (h : Memory.wf m = true) :
    Memory.wf (m.filter p) = true := by
  rw [memory_wf_iff] at *
  exact ⟨h.1.filter p, fun c hc => h.2 c (List.mem_filter.1 hc).1⟩

/-- The addresses of a memory after a write are old ones or the one written. -/
theorem memSet_mem {m : List Host.Cell} {a : Nat} {v : Byte} {c : Host.Cell} (h : c ∈ memSet m a v) :
    c ∈ m ∨ c = (a, v) ∧ v ≠ 0 := by
  induction m with
  | nil =>
    simp only [memSet] at h
    split at h <;> simp_all
  | cons e m ih =>
    simp only [memSet] at h
    split at h
    · split at h <;> simp_all
      rcases h with h | h <;> simp_all
    · split at h
      · split at h <;> simp_all
        rcases h with h | h <;> simp_all
      · rcases List.mem_cons.1 h with h | h
        · simp [h]
        · rcases ih h with h | h <;> simp_all

/-- A write keeps the canonical form. -/
theorem memSet_wf {m : List Host.Cell} (a : Nat) (v : Byte) (h : Memory.wf m = true) : Memory.wf (memSet m a v) = true := by
  rw [memory_wf_iff] at *
  refine ⟨?_, fun c hc => ?_⟩
  · obtain ⟨hp, -⟩ := h
    induction m with
    | nil => simp only [memSet]; split <;> simp
    | cons e m ih =>
      obtain ⟨he, hm⟩ := List.pairwise_cons.1 hp
      simp only [memSet]
      split
      · rename_i hlt
        split
        · exact hp
        · refine List.pairwise_cons.2 ⟨fun c hc => ?_, hp⟩
          rcases List.mem_cons.1 hc with rfl | hc
          · exact hlt
          · exact Nat.lt_trans hlt (he c hc)
      · split
        · rename_i heq
          split
          · exact hm
          · exact List.pairwise_cons.2 ⟨fun c hc => heq ▸ he c hc, hm⟩
        · refine List.pairwise_cons.2 ⟨fun c hc => ?_, ih hm⟩
          rcases memSet_mem hc with hc | ⟨rfl, -⟩
          · exact he c hc
          · show e.1 < a
            omega
  · rcases memSet_mem hc with hc | ⟨rfl, hv⟩
    · exact h.2 c hc
    · exact hv

/-! ### Reading after writing -/

/-- An address below every listed one reads 0. -/
theorem memGet_below {m : List Host.Cell} {a : Nat} (h : ∀ c ∈ m, a < c.1) : memGet m a = 0 := by
  induction m with
  | nil => rfl
  | cons e m ih =>
    have he := h e (List.mem_cons_self ..)
    simp only [memGet]
    rw [if_neg (by omega)]
    exact ih fun c hc => h c (List.mem_cons_of_mem _ hc)

/-- The byte written is read back. -/
theorem memGet_memSet_same {m : List Host.Cell} (a : Nat) (v : Byte) (h : Memory.wf m = true) :
    memGet (memSet m a v) a = v := by
  rw [memory_wf_iff] at h
  obtain ⟨hp, -⟩ := h
  induction m with
  | nil => simp only [memSet]; split <;> simp_all [memGet]
  | cons e m ih =>
    obtain ⟨he, hm⟩ := List.pairwise_cons.1 hp
    simp only [memSet]
    split
    · rename_i hlt
      split
      · rename_i hv
        rw [hv]
        refine memGet_below fun c hc => ?_
        rcases List.mem_cons.1 hc with rfl | hc
        · exact hlt
        · exact Nat.lt_trans hlt (he c hc)
      · simp [memGet]
    · split
      · rename_i heq
        subst heq
        split
        · rename_i hv
          rw [hv]
          exact memGet_below he
        · simp [memGet]
      · rename_i h1 h2
        simp only [memGet]
        rw [if_neg (fun h => h2 h.symm)]
        exact ih hm

/-- The other bytes are read as before. -/
theorem memGet_memSet_other (m : List Host.Cell) (a b : Nat) (v : Byte) (h : b ≠ a) :
    memGet (memSet m a v) b = memGet m b := by
  induction m with
  | nil => simp only [memSet]; split <;> simp [memGet, Ne.symm h]
  | cons e m ih =>
    simp only [memSet]
    split
    · split <;> simp [memGet, Ne.symm h]
    · split
      · rename_i heq
        subst heq
        split <;> simp [memGet, Ne.symm h]
      · simp [memGet, ih]

/-! ### Words -/

/-- Writing a word keeps the canonical form. -/
theorem memSetWord_wf {m : List Host.Cell} (w : Nat) (v : W16) (h : Memory.wf m = true) :
    Memory.wf (memSetWord m w v) = true := memSet_wf _ _ (memSet_wf _ _ h)

/-- The word written is read back. -/
theorem memWord_memSetWord_same {m : List Host.Cell} (w : Nat) (v : W16) (h : Memory.wf m = true) :
    memWord (memSetWord m w v) w = v := by
  simp only [memWord, memSetWord]
  rw [memGet_memSet_same _ _ (memSet_wf _ _ h), memGet_memSet_other _ _ _ _ (by omega), memGet_memSet_same _ _ h]
  apply BitVec.eq_of_getLsbD_eq
  intro i hi
  rw [BitVec.getLsbD_append]
  split
  · rename_i h8
    simp [BitVec.getLsbD_setWidth, h8]
  · simp only [BitVec.getLsbD_setWidth, BitVec.getLsbD_ushiftRight]
    have : decide (i - 8 < 8) = true := by simp; omega
    rw [this, Bool.true_and]
    congr 1; omega

/-- The other words are read as before. -/
theorem memWord_memSetWord_other (m : List Host.Cell) (w x : Nat) (v : W16) (h : x ≠ w) :
    memWord (memSetWord m w v) x = memWord m x := by
  simp only [memWord, memSetWord]
  rw [memGet_memSet_other _ _ _ _ (by omega), memGet_memSet_other _ _ _ _ (by omega),
    memGet_memSet_other _ _ _ _ (by omega), memGet_memSet_other _ _ _ _ (by omega)]

/-- Writing the bytes of a word that a store names keeps the canonical form. -/
theorem putWord_wf {m : List Host.Cell} (w : Nat) (x : StoreWord) (h : Memory.wf m = true) :
    Memory.wf (putWord m w x) = true := by
  unfold putWord
  simp only []
  split <;> split <;> first | exact h | exact memSet_wf _ _ h | exact memSet_wf _ _ (memSet_wf _ _ h)

/-- Writing a word at its place keeps the canonical form. -/
theorem putPlaced_wf {m : List Host.Cell} (p : PlacedWord) (h : Memory.wf m = true) : Memory.wf (putPlaced m p) = true := by
  unfold putPlaced
  split
  · exact putWord_wf _ _ h
  · exact h

/-- Writing words at their places keeps the canonical form. -/
theorem foldl_putPlaced_wf (ws : List PlacedWord) {m : List Host.Cell} (h : Memory.wf m = true) :
    Memory.wf (ws.foldl putPlaced m) = true :=
  foldl_preserves (fun m => Memory.wf m = true) putPlaced (fun _ p hm => putPlaced_wf p hm) ws m h

/-! ### What else changes the memory -/

/-- Clearing the reed memories and pools keeps the canonical form. -/
theorem dropReedMem_wf {m : List Host.Cell} (h : Memory.wf m = true) : Memory.wf (dropReedMem m) = true :=
  memory_wf_filter _ h

/-- Loading bytes into Surveyor memory keeps the canonical form. -/
theorem loadBytes_wf (o : Nat) (bs : List Byte) {m : List Host.Cell} (h : Memory.wf m = true) :
    Memory.wf (loadBytes o bs m) = true :=
  foldl_preserves (fun (a : Nat × List Host.Cell) => Memory.wf a.2 = true) _ (fun _ _ hm => memSet_wf _ _ hm) bs (o, m) h

/-- Loading an image keeps the canonical form. -/
theorem imageMem_wf (i : Image) (r : Nat) {m : List Host.Cell} (h : Memory.wf m = true) :
    Memory.wf (imageMem i r m) = true :=
  foldl_preserves (fun (a : Nat × List Host.Cell) => Memory.wf a.2 = true) _
    (fun _ _ hm => memSetWord_wf _ _ (memSetWord_wf _ _ hm)) i.im (i.imOff, m) h

/-- Copying a reed's memories keeps the canonical form. -/
theorem copyReedBytes_wf (worn spare : Nat) {m : List Host.Cell} (h : Memory.wf m = true) :
    Memory.wf (copyReedBytes worn spare m) = true := by
  rw [memory_wf_iff] at *
  obtain ⟨hp, hz⟩ := h
  unfold copyReedBytes
  refine ⟨?_, ?_⟩
  · simp only [List.append_assoc]
    refine List.pairwise_append.2 ⟨hp.filter _, List.pairwise_append.2 ⟨?_, hp.filter _, ?_⟩, ?_⟩
    · refine List.pairwise_map.2 ((hp.filter _).imp_of_mem ?_)
      intro c d hc hd hlt
      simp only [List.mem_filter, decide_eq_true_eq] at hc hd
      show c.1 - 2 * reedBase worn + 2 * reedBase spare < d.1 - 2 * reedBase worn + 2 * reedBase spare
      omega
    · intro c hc d hd
      simp only [List.mem_map, List.mem_filter, decide_eq_true_eq] at hc hd
      obtain ⟨e, he, rfl⟩ := hc
      show e.1 - 2 * reedBase worn + 2 * reedBase spare < d.1
      omega
    · intro c hc d hd
      simp only [List.mem_append, List.mem_map, List.mem_filter, decide_eq_true_eq] at hc hd
      rcases hd with ⟨e, he, rfl⟩ | hd
      · show c.1 < e.1 - 2 * reedBase worn + 2 * reedBase spare
        omega
      · omega
  · intro c hc
    simp only [List.mem_append, List.mem_map, List.mem_filter] at hc
    rcases hc with (hc | ⟨e, he, rfl⟩) | hc
    · exact hz c hc.1
    · exact hz e he.1
    · exact hz c hc.1

/-- The memory after reset is canonical. -/
theorem reset_memory_wf : Memory.wf State.reset.mem = true := rfl

end Sys2Proof.Machine
end

