-- ==== Sys2Proof/Laws/Store.lean ====
section
/-! SUPPORT. Sys2Proof/Laws/Store.lean: what a write to the device's memories leaves alone: error codes, page retirement,
snoops, and the buses and output slots that a reed's own store triggers. -/

namespace Sys2Proof.Machine

/-- A fold over pairs keeps what every step keeps of the first part. -/
theorem foldl_keeps_fst {α β γ : Type} (p : State → γ) (g : State × α → β → State × α)
    (h : ∀ t b, p (g t b).1 = p t.1) (l : List β) (s : State × α) : p (l.foldl g s).1 = p s.1 := by
  induction l generalizing s with
  | nil => rfl
  | cons b l ih => rw [List.foldl_cons, ih, h]


/-! ### noteUe -/

/-- `noteUe` leaves `pending` alone. -/
@[simp] theorem noteUe_pending (pl : Place) (s : State) : (noteUe pl s).pending = s.pending := by
  simp only [noteUe]
  repeat' split
  all_goals simp
/-- `noteUe` leaves `fresh` alone. -/
@[simp] theorem noteUe_fresh (pl : Place) (s : State) : (noteUe pl s).fresh = s.fresh := by
  simp only [noteUe]
  repeat' split
  all_goals simp
/-- `noteUe` leaves `mem` alone. -/
@[simp] theorem noteUe_mem (pl : Place) (s : State) : (noteUe pl s).mem = s.mem := by
  simp only [noteUe]
  repeat' split
  all_goals simp
/-- `noteUe` leaves `glb` alone. -/
@[simp] theorem noteUe_glb (pl : Place) (s : State) : (noteUe pl s).glb = s.glb := by
  simp only [noteUe]
  repeat' split
  all_goals simp
/-- `noteUe` leaves `pwr` alone. -/
@[simp] theorem noteUe_pwr (pl : Place) (s : State) : (noteUe pl s).pwr = s.pwr := by
  simp only [noteUe]
  repeat' split
  all_goals simp
/-- `noteUe` leaves `mer` alone. -/
@[simp] theorem noteUe_mer (pl : Place) (s : State) : (noteUe pl s).mer = s.mer := by
  simp only [noteUe]
  repeat' split
  all_goals simp
/-- `noteUe` leaves `reeds` alone. -/
@[simp] theorem noteUe_reeds (pl : Place) (s : State) : (noteUe pl s).reeds = s.reeds := by
  simp only [noteUe]
  repeat' split
  all_goals simp
/-- `noteUe` leaves `binding` alone. -/
@[simp] theorem noteUe_binding (pl : Place) (s : State) : (noteUe pl s).binding = s.binding := by
  simp only [noteUe]
  repeat' split
  all_goals simp
/-- `noteUe` leaves `qmg` alone. -/
@[simp] theorem noteUe_qmg (pl : Place) (s : State) : (noteUe pl s).qmg = s.qmg := by
  simp only [noteUe]
  repeat' split
  all_goals simp
/-- `noteUe` leaves `evr` alone. -/
@[simp] theorem noteUe_evr (pl : Place) (s : State) : (noteUe pl s).evr = s.evr := by
  simp only [noteUe]
  repeat' split
  all_goals simp
/-- `noteUe` leaves `links` alone. -/
@[simp] theorem noteUe_links (pl : Place) (s : State) : (noteUe pl s).links = s.links := by
  simp only [noteUe]
  repeat' split
  all_goals simp
/-- `noteUe` leaves `atl` alone. -/
@[simp] theorem noteUe_atl (pl : Place) (s : State) : (noteUe pl s).atl = s.atl := by
  simp only [noteUe]
  repeat' split
  all_goals simp
/-- `noteUe` leaves `slc` alone. -/
@[simp] theorem noteUe_slc (pl : Place) (s : State) : (noteUe pl s).slc = s.slc := by
  simp only [noteUe]
  repeat' split
  all_goals simp
/-- `noteUe` leaves `asp` alone. -/
@[simp] theorem noteUe_asp (pl : Place) (s : State) : (noteUe pl s).asp = s.asp := by
  simp only [noteUe]
  repeat' split
  all_goals simp
/-- `noteUe` leaves `ssp` alone. -/
@[simp] theorem noteUe_ssp (pl : Place) (s : State) : (noteUe pl s).ssp = s.ssp := by
  simp only [noteUe]
  repeat' split
  all_goals simp
/-- `noteUe` leaves `tcu` alone. -/
@[simp] theorem noteUe_tcu (pl : Place) (s : State) : (noteUe pl s).tcu = s.tcu := by
  simp only [noteUe]
  repeat' split
  all_goals simp
/-- `noteUe` leaves `sec` alone. -/
@[simp] theorem noteUe_sec (pl : Place) (s : State) : (noteUe pl s).sec = s.sec := by
  simp only [noteUe]
  repeat' split
  all_goals simp
/-- `noteUe` leaves `tst` alone. -/
@[simp] theorem noteUe_tst (pl : Place) (s : State) : (noteUe pl s).tst = s.tst := by
  simp only [noteUe]
  repeat' split
  all_goals simp

/-! ### unitAfter -/

/-- `unitAfter` leaves `pending` alone. -/
@[simp] theorem unitAfter_pending (ws : List PlacedWord) (p : PlacedWord) (s : State) : (unitAfter ws p s).pending = s.pending := by
  simp only [unitAfter]
  repeat' split
  all_goals simp
/-- `unitAfter` leaves `fresh` alone. -/
@[simp] theorem unitAfter_fresh (ws : List PlacedWord) (p : PlacedWord) (s : State) : (unitAfter ws p s).fresh = s.fresh := by
  simp only [unitAfter]
  repeat' split
  all_goals simp
/-- `unitAfter` leaves `mem` alone. -/
@[simp] theorem unitAfter_mem (ws : List PlacedWord) (p : PlacedWord) (s : State) : (unitAfter ws p s).mem = s.mem := by
  simp only [unitAfter]
  repeat' split
  all_goals simp
/-- `unitAfter` leaves `glb` alone. -/
@[simp] theorem unitAfter_glb (ws : List PlacedWord) (p : PlacedWord) (s : State) : (unitAfter ws p s).glb = s.glb := by
  simp only [unitAfter]
  repeat' split
  all_goals simp
/-- `unitAfter` leaves `pwr` alone. -/
@[simp] theorem unitAfter_pwr (ws : List PlacedWord) (p : PlacedWord) (s : State) : (unitAfter ws p s).pwr = s.pwr := by
  simp only [unitAfter]
  repeat' split
  all_goals simp
/-- `unitAfter` leaves `mer` alone. -/
@[simp] theorem unitAfter_mer (ws : List PlacedWord) (p : PlacedWord) (s : State) : (unitAfter ws p s).mer = s.mer := by
  simp only [unitAfter]
  repeat' split
  all_goals simp
/-- `unitAfter` leaves `reeds` alone. -/
@[simp] theorem unitAfter_reeds (ws : List PlacedWord) (p : PlacedWord) (s : State) : (unitAfter ws p s).reeds = s.reeds := by
  simp only [unitAfter]
  repeat' split
  all_goals simp
/-- `unitAfter` leaves `binding` alone. -/
@[simp] theorem unitAfter_binding (ws : List PlacedWord) (p : PlacedWord) (s : State) : (unitAfter ws p s).binding = s.binding := by
  simp only [unitAfter]
  repeat' split
  all_goals simp
/-- `unitAfter` leaves `qmg` alone. -/
@[simp] theorem unitAfter_qmg (ws : List PlacedWord) (p : PlacedWord) (s : State) : (unitAfter ws p s).qmg = s.qmg := by
  simp only [unitAfter]
  repeat' split
  all_goals simp
/-- `unitAfter` leaves `evr` alone. -/
@[simp] theorem unitAfter_evr (ws : List PlacedWord) (p : PlacedWord) (s : State) : (unitAfter ws p s).evr = s.evr := by
  simp only [unitAfter]
  repeat' split
  all_goals simp
/-- `unitAfter` leaves `links` alone. -/
@[simp] theorem unitAfter_links (ws : List PlacedWord) (p : PlacedWord) (s : State) : (unitAfter ws p s).links = s.links := by
  simp only [unitAfter]
  repeat' split
  all_goals simp
/-- `unitAfter` leaves `atl` alone. -/
@[simp] theorem unitAfter_atl (ws : List PlacedWord) (p : PlacedWord) (s : State) : (unitAfter ws p s).atl = s.atl := by
  simp only [unitAfter]
  repeat' split
  all_goals simp
/-- `unitAfter` leaves `slc` alone. -/
@[simp] theorem unitAfter_slc (ws : List PlacedWord) (p : PlacedWord) (s : State) : (unitAfter ws p s).slc = s.slc := by
  simp only [unitAfter]
  repeat' split
  all_goals simp
/-- `unitAfter` leaves `asp` alone. -/
@[simp] theorem unitAfter_asp (ws : List PlacedWord) (p : PlacedWord) (s : State) : (unitAfter ws p s).asp = s.asp := by
  simp only [unitAfter]
  repeat' split
  all_goals simp
/-- `unitAfter` leaves `ssp` alone. -/
@[simp] theorem unitAfter_ssp (ws : List PlacedWord) (p : PlacedWord) (s : State) : (unitAfter ws p s).ssp = s.ssp := by
  simp only [unitAfter]
  repeat' split
  all_goals simp
/-- `unitAfter` leaves `tcu` alone. -/
@[simp] theorem unitAfter_tcu (ws : List PlacedWord) (p : PlacedWord) (s : State) : (unitAfter ws p s).tcu = s.tcu := by
  simp only [unitAfter]
  repeat' split
  all_goals simp
/-- `unitAfter` leaves `sec` alone. -/
@[simp] theorem unitAfter_sec (ws : List PlacedWord) (p : PlacedWord) (s : State) : (unitAfter ws p s).sec = s.sec := by
  simp only [unitAfter]
  repeat' split
  all_goals simp
/-- `unitAfter` leaves `tst` alone. -/
@[simp] theorem unitAfter_tst (ws : List PlacedWord) (p : PlacedWord) (s : State) : (unitAfter ws p s).tst = s.tst := by
  simp only [unitAfter]
  repeat' split
  all_goals simp

/-! ### writePlaced -/

/-- `writePlaced` leaves `pending` alone. -/
@[simp] theorem writePlaced_pending (ws : List PlacedWord) (s : State) : (writePlaced ws s).pending = s.pending := by
  rw [writePlaced, foldl_keeps (fun t => t.pending) _ (fun t p => unitAfter_pending ws p t)]
/-- `writePlaced` leaves `fresh` alone. -/
@[simp] theorem writePlaced_fresh (ws : List PlacedWord) (s : State) : (writePlaced ws s).fresh = s.fresh := by
  rw [writePlaced, foldl_keeps (fun t => t.fresh) _ (fun t p => unitAfter_fresh ws p t)]
/-- `writePlaced` leaves `glb` alone. -/
@[simp] theorem writePlaced_glb (ws : List PlacedWord) (s : State) : (writePlaced ws s).glb = s.glb := by
  rw [writePlaced, foldl_keeps (fun t => t.glb) _ (fun t p => unitAfter_glb ws p t)]
/-- `writePlaced` leaves `pwr` alone. -/
@[simp] theorem writePlaced_pwr (ws : List PlacedWord) (s : State) : (writePlaced ws s).pwr = s.pwr := by
  rw [writePlaced, foldl_keeps (fun t => t.pwr) _ (fun t p => unitAfter_pwr ws p t)]
/-- `writePlaced` leaves `mer` alone. -/
@[simp] theorem writePlaced_mer (ws : List PlacedWord) (s : State) : (writePlaced ws s).mer = s.mer := by
  rw [writePlaced, foldl_keeps (fun t => t.mer) _ (fun t p => unitAfter_mer ws p t)]
/-- `writePlaced` leaves `reeds` alone. -/
@[simp] theorem writePlaced_reeds (ws : List PlacedWord) (s : State) : (writePlaced ws s).reeds = s.reeds := by
  rw [writePlaced, foldl_keeps (fun t => t.reeds) _ (fun t p => unitAfter_reeds ws p t)]
/-- `writePlaced` leaves `binding` alone. -/
@[simp] theorem writePlaced_binding (ws : List PlacedWord) (s : State) : (writePlaced ws s).binding = s.binding := by
  rw [writePlaced, foldl_keeps (fun t => t.binding) _ (fun t p => unitAfter_binding ws p t)]
/-- `writePlaced` leaves `qmg` alone. -/
@[simp] theorem writePlaced_qmg (ws : List PlacedWord) (s : State) : (writePlaced ws s).qmg = s.qmg := by
  rw [writePlaced, foldl_keeps (fun t => t.qmg) _ (fun t p => unitAfter_qmg ws p t)]
/-- `writePlaced` leaves `evr` alone. -/
@[simp] theorem writePlaced_evr (ws : List PlacedWord) (s : State) : (writePlaced ws s).evr = s.evr := by
  rw [writePlaced, foldl_keeps (fun t => t.evr) _ (fun t p => unitAfter_evr ws p t)]
/-- `writePlaced` leaves `links` alone. -/
@[simp] theorem writePlaced_links (ws : List PlacedWord) (s : State) : (writePlaced ws s).links = s.links := by
  rw [writePlaced, foldl_keeps (fun t => t.links) _ (fun t p => unitAfter_links ws p t)]
/-- `writePlaced` leaves `atl` alone. -/
@[simp] theorem writePlaced_atl (ws : List PlacedWord) (s : State) : (writePlaced ws s).atl = s.atl := by
  rw [writePlaced, foldl_keeps (fun t => t.atl) _ (fun t p => unitAfter_atl ws p t)]
/-- `writePlaced` leaves `slc` alone. -/
@[simp] theorem writePlaced_slc (ws : List PlacedWord) (s : State) : (writePlaced ws s).slc = s.slc := by
  rw [writePlaced, foldl_keeps (fun t => t.slc) _ (fun t p => unitAfter_slc ws p t)]
/-- `writePlaced` leaves `asp` alone. -/
@[simp] theorem writePlaced_asp (ws : List PlacedWord) (s : State) : (writePlaced ws s).asp = s.asp := by
  rw [writePlaced, foldl_keeps (fun t => t.asp) _ (fun t p => unitAfter_asp ws p t)]
/-- `writePlaced` leaves `ssp` alone. -/
@[simp] theorem writePlaced_ssp (ws : List PlacedWord) (s : State) : (writePlaced ws s).ssp = s.ssp := by
  rw [writePlaced, foldl_keeps (fun t => t.ssp) _ (fun t p => unitAfter_ssp ws p t)]
/-- `writePlaced` leaves `tcu` alone. -/
@[simp] theorem writePlaced_tcu (ws : List PlacedWord) (s : State) : (writePlaced ws s).tcu = s.tcu := by
  rw [writePlaced, foldl_keeps (fun t => t.tcu) _ (fun t p => unitAfter_tcu ws p t)]
/-- `writePlaced` leaves `sec` alone. -/
@[simp] theorem writePlaced_sec (ws : List PlacedWord) (s : State) : (writePlaced ws s).sec = s.sec := by
  rw [writePlaced, foldl_keeps (fun t => t.sec) _ (fun t p => unitAfter_sec ws p t)]
/-- `writePlaced` leaves `tst` alone. -/
@[simp] theorem writePlaced_tst (ws : List PlacedWord) (s : State) : (writePlaced ws s).tst = s.tst := by
  rw [writePlaced, foldl_keeps (fun t => t.tst) _ (fun t p => unitAfter_tst ws p t)]

/-! ### sendBisnp -/

/-- `sendBisnp` leaves `pending` alone. -/
@[simp] theorem sendBisnp_pending (line : Nat) (s : State) : (sendBisnp line s).pending = s.pending := by
  simp only [sendBisnp]
  split <;> simp
/-- `sendBisnp` leaves `fresh` alone. -/
@[simp] theorem sendBisnp_fresh (line : Nat) (s : State) : (sendBisnp line s).fresh = s.fresh := by
  simp only [sendBisnp]
  split <;> simp
/-- `sendBisnp` leaves `mem` alone. -/
@[simp] theorem sendBisnp_mem (line : Nat) (s : State) : (sendBisnp line s).mem = s.mem := by
  simp only [sendBisnp]
  split <;> simp
/-- `sendBisnp` leaves `bad` alone. -/
@[simp] theorem sendBisnp_bad (line : Nat) (s : State) : (sendBisnp line s).bad = s.bad := by
  simp only [sendBisnp]
  split <;> simp
/-- `sendBisnp` leaves `hdr` alone. -/
@[simp] theorem sendBisnp_hdr (line : Nat) (s : State) : (sendBisnp line s).hdr = s.hdr := by
  simp only [sendBisnp]
  split <;> simp
/-- `sendBisnp` leaves `glb` alone. -/
@[simp] theorem sendBisnp_glb (line : Nat) (s : State) : (sendBisnp line s).glb = s.glb := by
  simp only [sendBisnp]
  split <;> simp
/-- `sendBisnp` leaves `pwr` alone. -/
@[simp] theorem sendBisnp_pwr (line : Nat) (s : State) : (sendBisnp line s).pwr = s.pwr := by
  simp only [sendBisnp]
  split <;> simp
/-- `sendBisnp` leaves `mer` alone. -/
@[simp] theorem sendBisnp_mer (line : Nat) (s : State) : (sendBisnp line s).mer = s.mer := by
  simp only [sendBisnp]
  split <;> simp
/-- `sendBisnp` leaves `fbk` alone. -/
@[simp] theorem sendBisnp_fbk (line : Nat) (s : State) : (sendBisnp line s).fbk = s.fbk := by
  simp only [sendBisnp]
  split <;> simp
/-- `sendBisnp` leaves `reeds` alone. -/
@[simp] theorem sendBisnp_reeds (line : Nat) (s : State) : (sendBisnp line s).reeds = s.reeds := by
  simp only [sendBisnp]
  split <;> simp
/-- `sendBisnp` leaves `binding` alone. -/
@[simp] theorem sendBisnp_binding (line : Nat) (s : State) : (sendBisnp line s).binding = s.binding := by
  simp only [sendBisnp]
  split <;> simp
/-- `sendBisnp` leaves `beds` alone. -/
@[simp] theorem sendBisnp_beds (line : Nat) (s : State) : (sendBisnp line s).beds = s.beds := by
  simp only [sendBisnp]
  split <;> simp
/-- `sendBisnp` leaves `srcs` alone. -/
@[simp] theorem sendBisnp_srcs (line : Nat) (s : State) : (sendBisnp line s).srcs = s.srcs := by
  simp only [sendBisnp]
  split <;> simp
/-- `sendBisnp` leaves `qmg` alone. -/
@[simp] theorem sendBisnp_qmg (line : Nat) (s : State) : (sendBisnp line s).qmg = s.qmg := by
  simp only [sendBisnp]
  split <;> simp
/-- `sendBisnp` leaves `evr` alone. -/
@[simp] theorem sendBisnp_evr (line : Nat) (s : State) : (sendBisnp line s).evr = s.evr := by
  simp only [sendBisnp]
  split <;> simp
/-- `sendBisnp` leaves `cxl` alone. -/
@[simp] theorem sendBisnp_cxl (line : Nat) (s : State) : (sendBisnp line s).cxl = s.cxl := by
  simp only [sendBisnp]
  split <;> simp
/-- `sendBisnp` leaves `links` alone. -/
@[simp] theorem sendBisnp_links (line : Nat) (s : State) : (sendBisnp line s).links = s.links := by
  simp only [sendBisnp]
  split <;> simp
/-- `sendBisnp` leaves `atl` alone. -/
@[simp] theorem sendBisnp_atl (line : Nat) (s : State) : (sendBisnp line s).atl = s.atl := by
  simp only [sendBisnp]
  split <;> simp
/-- `sendBisnp` leaves `slc` alone. -/
@[simp] theorem sendBisnp_slc (line : Nat) (s : State) : (sendBisnp line s).slc = s.slc := by
  simp only [sendBisnp]
  split <;> simp
/-- `sendBisnp` leaves `asp` alone. -/
@[simp] theorem sendBisnp_asp (line : Nat) (s : State) : (sendBisnp line s).asp = s.asp := by
  simp only [sendBisnp]
  split <;> simp
/-- `sendBisnp` leaves `ssp` alone. -/
@[simp] theorem sendBisnp_ssp (line : Nat) (s : State) : (sendBisnp line s).ssp = s.ssp := by
  simp only [sendBisnp]
  split <;> simp
/-- `sendBisnp` leaves `tcu` alone. -/
@[simp] theorem sendBisnp_tcu (line : Nat) (s : State) : (sendBisnp line s).tcu = s.tcu := by
  simp only [sendBisnp]
  split <;> simp
/-- `sendBisnp` leaves `sec` alone. -/
@[simp] theorem sendBisnp_sec (line : Nat) (s : State) : (sendBisnp line s).sec = s.sec := by
  simp only [sendBisnp]
  split <;> simp
/-- `sendBisnp` leaves `spr` alone. -/
@[simp] theorem sendBisnp_spr (line : Nat) (s : State) : (sendBisnp line s).spr = s.spr := by
  simp only [sendBisnp]
  split <;> simp
/-- `sendBisnp` leaves `tst` alone. -/
@[simp] theorem sendBisnp_tst (line : Nat) (s : State) : (sendBisnp line s).tst = s.tst := by
  simp only [sendBisnp]
  split <;> simp

/-! ### snoopOrKeep -/

/-- `snoopOrKeep` leaves `pending` alone. -/
@[simp] theorem snoopOrKeep_pending (acc : State × List PlacedWord) (p : PlacedWord) : (snoopOrKeep acc p).1.pending = acc.1.pending := by
  simp only [snoopOrKeep]
  split <;> simp
/-- `snoopOrKeep` leaves `fresh` alone. -/
@[simp] theorem snoopOrKeep_fresh (acc : State × List PlacedWord) (p : PlacedWord) : (snoopOrKeep acc p).1.fresh = acc.1.fresh := by
  simp only [snoopOrKeep]
  split <;> simp
/-- `snoopOrKeep` leaves `mem` alone. -/
@[simp] theorem snoopOrKeep_mem (acc : State × List PlacedWord) (p : PlacedWord) : (snoopOrKeep acc p).1.mem = acc.1.mem := by
  simp only [snoopOrKeep]
  split <;> simp
/-- `snoopOrKeep` leaves `bad` alone. -/
@[simp] theorem snoopOrKeep_bad (acc : State × List PlacedWord) (p : PlacedWord) : (snoopOrKeep acc p).1.bad = acc.1.bad := by
  simp only [snoopOrKeep]
  split <;> simp
/-- `snoopOrKeep` leaves `hdr` alone. -/
@[simp] theorem snoopOrKeep_hdr (acc : State × List PlacedWord) (p : PlacedWord) : (snoopOrKeep acc p).1.hdr = acc.1.hdr := by
  simp only [snoopOrKeep]
  split <;> simp
/-- `snoopOrKeep` leaves `glb` alone. -/
@[simp] theorem snoopOrKeep_glb (acc : State × List PlacedWord) (p : PlacedWord) : (snoopOrKeep acc p).1.glb = acc.1.glb := by
  simp only [snoopOrKeep]
  split <;> simp
/-- `snoopOrKeep` leaves `pwr` alone. -/
@[simp] theorem snoopOrKeep_pwr (acc : State × List PlacedWord) (p : PlacedWord) : (snoopOrKeep acc p).1.pwr = acc.1.pwr := by
  simp only [snoopOrKeep]
  split <;> simp
/-- `snoopOrKeep` leaves `mer` alone. -/
@[simp] theorem snoopOrKeep_mer (acc : State × List PlacedWord) (p : PlacedWord) : (snoopOrKeep acc p).1.mer = acc.1.mer := by
  simp only [snoopOrKeep]
  split <;> simp
/-- `snoopOrKeep` leaves `fbk` alone. -/
@[simp] theorem snoopOrKeep_fbk (acc : State × List PlacedWord) (p : PlacedWord) : (snoopOrKeep acc p).1.fbk = acc.1.fbk := by
  simp only [snoopOrKeep]
  split <;> simp
/-- `snoopOrKeep` leaves `reeds` alone. -/
@[simp] theorem snoopOrKeep_reeds (acc : State × List PlacedWord) (p : PlacedWord) : (snoopOrKeep acc p).1.reeds = acc.1.reeds := by
  simp only [snoopOrKeep]
  split <;> simp
/-- `snoopOrKeep` leaves `binding` alone. -/
@[simp] theorem snoopOrKeep_binding (acc : State × List PlacedWord) (p : PlacedWord) : (snoopOrKeep acc p).1.binding = acc.1.binding := by
  simp only [snoopOrKeep]
  split <;> simp
/-- `snoopOrKeep` leaves `beds` alone. -/
@[simp] theorem snoopOrKeep_beds (acc : State × List PlacedWord) (p : PlacedWord) : (snoopOrKeep acc p).1.beds = acc.1.beds := by
  simp only [snoopOrKeep]
  split <;> simp
/-- `snoopOrKeep` leaves `srcs` alone. -/
@[simp] theorem snoopOrKeep_srcs (acc : State × List PlacedWord) (p : PlacedWord) : (snoopOrKeep acc p).1.srcs = acc.1.srcs := by
  simp only [snoopOrKeep]
  split <;> simp
/-- `snoopOrKeep` leaves `qmg` alone. -/
@[simp] theorem snoopOrKeep_qmg (acc : State × List PlacedWord) (p : PlacedWord) : (snoopOrKeep acc p).1.qmg = acc.1.qmg := by
  simp only [snoopOrKeep]
  split <;> simp
/-- `snoopOrKeep` leaves `evr` alone. -/
@[simp] theorem snoopOrKeep_evr (acc : State × List PlacedWord) (p : PlacedWord) : (snoopOrKeep acc p).1.evr = acc.1.evr := by
  simp only [snoopOrKeep]
  split <;> simp
/-- `snoopOrKeep` leaves `cxl` alone. -/
@[simp] theorem snoopOrKeep_cxl (acc : State × List PlacedWord) (p : PlacedWord) : (snoopOrKeep acc p).1.cxl = acc.1.cxl := by
  simp only [snoopOrKeep]
  split <;> simp
/-- `snoopOrKeep` leaves `links` alone. -/
@[simp] theorem snoopOrKeep_links (acc : State × List PlacedWord) (p : PlacedWord) : (snoopOrKeep acc p).1.links = acc.1.links := by
  simp only [snoopOrKeep]
  split <;> simp
/-- `snoopOrKeep` leaves `atl` alone. -/
@[simp] theorem snoopOrKeep_atl (acc : State × List PlacedWord) (p : PlacedWord) : (snoopOrKeep acc p).1.atl = acc.1.atl := by
  simp only [snoopOrKeep]
  split <;> simp
/-- `snoopOrKeep` leaves `slc` alone. -/
@[simp] theorem snoopOrKeep_slc (acc : State × List PlacedWord) (p : PlacedWord) : (snoopOrKeep acc p).1.slc = acc.1.slc := by
  simp only [snoopOrKeep]
  split <;> simp
/-- `snoopOrKeep` leaves `asp` alone. -/
@[simp] theorem snoopOrKeep_asp (acc : State × List PlacedWord) (p : PlacedWord) : (snoopOrKeep acc p).1.asp = acc.1.asp := by
  simp only [snoopOrKeep]
  split <;> simp
/-- `snoopOrKeep` leaves `ssp` alone. -/
@[simp] theorem snoopOrKeep_ssp (acc : State × List PlacedWord) (p : PlacedWord) : (snoopOrKeep acc p).1.ssp = acc.1.ssp := by
  simp only [snoopOrKeep]
  split <;> simp
/-- `snoopOrKeep` leaves `tcu` alone. -/
@[simp] theorem snoopOrKeep_tcu (acc : State × List PlacedWord) (p : PlacedWord) : (snoopOrKeep acc p).1.tcu = acc.1.tcu := by
  simp only [snoopOrKeep]
  split <;> simp
/-- `snoopOrKeep` leaves `sec` alone. -/
@[simp] theorem snoopOrKeep_sec (acc : State × List PlacedWord) (p : PlacedWord) : (snoopOrKeep acc p).1.sec = acc.1.sec := by
  simp only [snoopOrKeep]
  split <;> simp
/-- `snoopOrKeep` leaves `spr` alone. -/
@[simp] theorem snoopOrKeep_spr (acc : State × List PlacedWord) (p : PlacedWord) : (snoopOrKeep acc p).1.spr = acc.1.spr := by
  simp only [snoopOrKeep]
  split <;> simp
/-- `snoopOrKeep` leaves `tst` alone. -/
@[simp] theorem snoopOrKeep_tst (acc : State × List PlacedWord) (p : PlacedWord) : (snoopOrKeep acc p).1.tst = acc.1.tst := by
  simp only [snoopOrKeep]
  split <;> simp

/-! ### deviceWrite -/

/-- `deviceWrite` leaves `pending` alone. -/
@[simp] theorem deviceWrite_pending (ws : List PlacedWord) (s : State) : (deviceWrite ws s).pending = s.pending := by
  rw [deviceWrite, writePlaced_pending, foldl_keeps_fst (fun t => t.pending) _ snoopOrKeep_pending]
/-- `deviceWrite` leaves `fresh` alone. -/
@[simp] theorem deviceWrite_fresh (ws : List PlacedWord) (s : State) : (deviceWrite ws s).fresh = s.fresh := by
  rw [deviceWrite, writePlaced_fresh, foldl_keeps_fst (fun t => t.fresh) _ snoopOrKeep_fresh]
/-- `deviceWrite` leaves `glb` alone. -/
@[simp] theorem deviceWrite_glb (ws : List PlacedWord) (s : State) : (deviceWrite ws s).glb = s.glb := by
  rw [deviceWrite, writePlaced_glb, foldl_keeps_fst (fun t => t.glb) _ snoopOrKeep_glb]
/-- `deviceWrite` leaves `pwr` alone. -/
@[simp] theorem deviceWrite_pwr (ws : List PlacedWord) (s : State) : (deviceWrite ws s).pwr = s.pwr := by
  rw [deviceWrite, writePlaced_pwr, foldl_keeps_fst (fun t => t.pwr) _ snoopOrKeep_pwr]
/-- `deviceWrite` leaves `mer` alone. -/
@[simp] theorem deviceWrite_mer (ws : List PlacedWord) (s : State) : (deviceWrite ws s).mer = s.mer := by
  rw [deviceWrite, writePlaced_mer, foldl_keeps_fst (fun t => t.mer) _ snoopOrKeep_mer]
/-- `deviceWrite` leaves `reeds` alone. -/
@[simp] theorem deviceWrite_reeds (ws : List PlacedWord) (s : State) : (deviceWrite ws s).reeds = s.reeds := by
  rw [deviceWrite, writePlaced_reeds, foldl_keeps_fst (fun t => t.reeds) _ snoopOrKeep_reeds]
/-- `deviceWrite` leaves `binding` alone. -/
@[simp] theorem deviceWrite_binding (ws : List PlacedWord) (s : State) : (deviceWrite ws s).binding = s.binding := by
  rw [deviceWrite, writePlaced_binding, foldl_keeps_fst (fun t => t.binding) _ snoopOrKeep_binding]
/-- `deviceWrite` leaves `qmg` alone. -/
@[simp] theorem deviceWrite_qmg (ws : List PlacedWord) (s : State) : (deviceWrite ws s).qmg = s.qmg := by
  rw [deviceWrite, writePlaced_qmg, foldl_keeps_fst (fun t => t.qmg) _ snoopOrKeep_qmg]
/-- `deviceWrite` leaves `evr` alone. -/
@[simp] theorem deviceWrite_evr (ws : List PlacedWord) (s : State) : (deviceWrite ws s).evr = s.evr := by
  rw [deviceWrite, writePlaced_evr, foldl_keeps_fst (fun t => t.evr) _ snoopOrKeep_evr]
/-- `deviceWrite` leaves `links` alone. -/
@[simp] theorem deviceWrite_links (ws : List PlacedWord) (s : State) : (deviceWrite ws s).links = s.links := by
  rw [deviceWrite, writePlaced_links, foldl_keeps_fst (fun t => t.links) _ snoopOrKeep_links]
/-- `deviceWrite` leaves `atl` alone. -/
@[simp] theorem deviceWrite_atl (ws : List PlacedWord) (s : State) : (deviceWrite ws s).atl = s.atl := by
  rw [deviceWrite, writePlaced_atl, foldl_keeps_fst (fun t => t.atl) _ snoopOrKeep_atl]
/-- `deviceWrite` leaves `slc` alone. -/
@[simp] theorem deviceWrite_slc (ws : List PlacedWord) (s : State) : (deviceWrite ws s).slc = s.slc := by
  rw [deviceWrite, writePlaced_slc, foldl_keeps_fst (fun t => t.slc) _ snoopOrKeep_slc]
/-- `deviceWrite` leaves `asp` alone. -/
@[simp] theorem deviceWrite_asp (ws : List PlacedWord) (s : State) : (deviceWrite ws s).asp = s.asp := by
  rw [deviceWrite, writePlaced_asp, foldl_keeps_fst (fun t => t.asp) _ snoopOrKeep_asp]
/-- `deviceWrite` leaves `ssp` alone. -/
@[simp] theorem deviceWrite_ssp (ws : List PlacedWord) (s : State) : (deviceWrite ws s).ssp = s.ssp := by
  rw [deviceWrite, writePlaced_ssp, foldl_keeps_fst (fun t => t.ssp) _ snoopOrKeep_ssp]
/-- `deviceWrite` leaves `tcu` alone. -/
@[simp] theorem deviceWrite_tcu (ws : List PlacedWord) (s : State) : (deviceWrite ws s).tcu = s.tcu := by
  rw [deviceWrite, writePlaced_tcu, foldl_keeps_fst (fun t => t.tcu) _ snoopOrKeep_tcu]
/-- `deviceWrite` leaves `sec` alone. -/
@[simp] theorem deviceWrite_sec (ws : List PlacedWord) (s : State) : (deviceWrite ws s).sec = s.sec := by
  rw [deviceWrite, writePlaced_sec, foldl_keeps_fst (fun t => t.sec) _ snoopOrKeep_sec]
/-- `deviceWrite` leaves `tst` alone. -/
@[simp] theorem deviceWrite_tst (ws : List PlacedWord) (s : State) : (deviceWrite ws s).tst = s.tst := by
  rw [deviceWrite, writePlaced_tst, foldl_keeps_fst (fun t => t.tst) _ snoopOrKeep_tst]

/-! ### sendOne -/

/-- `sendOne` leaves `pending` alone. -/
@[simp] theorem sendOne_pending (l : Nat) (s : State) : (sendOne l s).pending = s.pending := by
  simp only [sendOne]
  split <;> simp
/-- `sendOne` leaves `fresh` alone. -/
@[simp] theorem sendOne_fresh (l : Nat) (s : State) : (sendOne l s).fresh = s.fresh := by
  simp only [sendOne]
  split <;> simp
/-- `sendOne` leaves `mem` alone. -/
@[simp] theorem sendOne_mem (l : Nat) (s : State) : (sendOne l s).mem = s.mem := by
  simp only [sendOne]
  split <;> simp
/-- `sendOne` leaves `bad` alone. -/
@[simp] theorem sendOne_bad (l : Nat) (s : State) : (sendOne l s).bad = s.bad := by
  simp only [sendOne]
  split <;> simp
/-- `sendOne` leaves `hdr` alone. -/
@[simp] theorem sendOne_hdr (l : Nat) (s : State) : (sendOne l s).hdr = s.hdr := by
  simp only [sendOne]
  split <;> simp
/-- `sendOne` leaves `glb` alone. -/
@[simp] theorem sendOne_glb (l : Nat) (s : State) : (sendOne l s).glb = s.glb := by
  simp only [sendOne]
  split <;> simp
/-- `sendOne` leaves `pwr` alone. -/
@[simp] theorem sendOne_pwr (l : Nat) (s : State) : (sendOne l s).pwr = s.pwr := by
  simp only [sendOne]
  split <;> simp
/-- `sendOne` leaves `mer` alone. -/
@[simp] theorem sendOne_mer (l : Nat) (s : State) : (sendOne l s).mer = s.mer := by
  simp only [sendOne]
  split <;> simp
/-- `sendOne` leaves `fbk` alone. -/
@[simp] theorem sendOne_fbk (l : Nat) (s : State) : (sendOne l s).fbk = s.fbk := by
  simp only [sendOne]
  split <;> simp
/-- `sendOne` leaves `reeds` alone. -/
@[simp] theorem sendOne_reeds (l : Nat) (s : State) : (sendOne l s).reeds = s.reeds := by
  simp only [sendOne]
  split <;> simp
/-- `sendOne` leaves `binding` alone. -/
@[simp] theorem sendOne_binding (l : Nat) (s : State) : (sendOne l s).binding = s.binding := by
  simp only [sendOne]
  split <;> simp
/-- `sendOne` leaves `beds` alone. -/
@[simp] theorem sendOne_beds (l : Nat) (s : State) : (sendOne l s).beds = s.beds := by
  simp only [sendOne]
  split <;> simp
/-- `sendOne` leaves `hbm` alone. -/
@[simp] theorem sendOne_hbm (l : Nat) (s : State) : (sendOne l s).hbm = s.hbm := by
  simp only [sendOne]
  split <;> simp
/-- `sendOne` leaves `srcs` alone. -/
@[simp] theorem sendOne_srcs (l : Nat) (s : State) : (sendOne l s).srcs = s.srcs := by
  simp only [sendOne]
  split <;> simp
/-- `sendOne` leaves `qmg` alone. -/
@[simp] theorem sendOne_qmg (l : Nat) (s : State) : (sendOne l s).qmg = s.qmg := by
  simp only [sendOne]
  split <;> simp
/-- `sendOne` leaves `evr` alone. -/
@[simp] theorem sendOne_evr (l : Nat) (s : State) : (sendOne l s).evr = s.evr := by
  simp only [sendOne]
  split <;> simp
/-- `sendOne` leaves `cxl` alone. -/
@[simp] theorem sendOne_cxl (l : Nat) (s : State) : (sendOne l s).cxl = s.cxl := by
  simp only [sendOne]
  split <;> simp
/-- `sendOne` leaves `atl` alone. -/
@[simp] theorem sendOne_atl (l : Nat) (s : State) : (sendOne l s).atl = s.atl := by
  simp only [sendOne]
  split <;> simp
/-- `sendOne` leaves `slc` alone. -/
@[simp] theorem sendOne_slc (l : Nat) (s : State) : (sendOne l s).slc = s.slc := by
  simp only [sendOne]
  split <;> simp
/-- `sendOne` leaves `asp` alone. -/
@[simp] theorem sendOne_asp (l : Nat) (s : State) : (sendOne l s).asp = s.asp := by
  simp only [sendOne]
  split <;> simp
/-- `sendOne` leaves `ssp` alone. -/
@[simp] theorem sendOne_ssp (l : Nat) (s : State) : (sendOne l s).ssp = s.ssp := by
  simp only [sendOne]
  split <;> simp
/-- `sendOne` leaves `tcu` alone. -/
@[simp] theorem sendOne_tcu (l : Nat) (s : State) : (sendOne l s).tcu = s.tcu := by
  simp only [sendOne]
  split <;> simp
/-- `sendOne` leaves `sec` alone. -/
@[simp] theorem sendOne_sec (l : Nat) (s : State) : (sendOne l s).sec = s.sec := by
  simp only [sendOne]
  split <;> simp
/-- `sendOne` leaves `spr` alone. -/
@[simp] theorem sendOne_spr (l : Nat) (s : State) : (sendOne l s).spr = s.spr := by
  simp only [sendOne]
  split <;> simp
/-- `sendOne` leaves `tst` alone. -/
@[simp] theorem sendOne_tst (l : Nat) (s : State) : (sendOne l s).tst = s.tst := by
  simp only [sendOne]
  split <;> simp

/-! ### pump -/

/-- `pump` leaves `pending` alone. -/
@[simp] theorem pump_pending (l : Nat) (s : State) : (pump l s).pending = s.pending := by
  rw [pump, foldl_keeps (fun t => t.pending) _ (fun t _ => sendOne_pending l t)]
/-- `pump` leaves `fresh` alone. -/
@[simp] theorem pump_fresh (l : Nat) (s : State) : (pump l s).fresh = s.fresh := by
  rw [pump, foldl_keeps (fun t => t.fresh) _ (fun t _ => sendOne_fresh l t)]
/-- `pump` leaves `mem` alone. -/
@[simp] theorem pump_mem (l : Nat) (s : State) : (pump l s).mem = s.mem := by
  rw [pump, foldl_keeps (fun t => t.mem) _ (fun t _ => sendOne_mem l t)]
/-- `pump` leaves `bad` alone. -/
@[simp] theorem pump_bad (l : Nat) (s : State) : (pump l s).bad = s.bad := by
  rw [pump, foldl_keeps (fun t => t.bad) _ (fun t _ => sendOne_bad l t)]
/-- `pump` leaves `hdr` alone. -/
@[simp] theorem pump_hdr (l : Nat) (s : State) : (pump l s).hdr = s.hdr := by
  rw [pump, foldl_keeps (fun t => t.hdr) _ (fun t _ => sendOne_hdr l t)]
/-- `pump` leaves `glb` alone. -/
@[simp] theorem pump_glb (l : Nat) (s : State) : (pump l s).glb = s.glb := by
  rw [pump, foldl_keeps (fun t => t.glb) _ (fun t _ => sendOne_glb l t)]
/-- `pump` leaves `pwr` alone. -/
@[simp] theorem pump_pwr (l : Nat) (s : State) : (pump l s).pwr = s.pwr := by
  rw [pump, foldl_keeps (fun t => t.pwr) _ (fun t _ => sendOne_pwr l t)]
/-- `pump` leaves `mer` alone. -/
@[simp] theorem pump_mer (l : Nat) (s : State) : (pump l s).mer = s.mer := by
  rw [pump, foldl_keeps (fun t => t.mer) _ (fun t _ => sendOne_mer l t)]
/-- `pump` leaves `fbk` alone. -/
@[simp] theorem pump_fbk (l : Nat) (s : State) : (pump l s).fbk = s.fbk := by
  rw [pump, foldl_keeps (fun t => t.fbk) _ (fun t _ => sendOne_fbk l t)]
/-- `pump` leaves `reeds` alone. -/
@[simp] theorem pump_reeds (l : Nat) (s : State) : (pump l s).reeds = s.reeds := by
  rw [pump, foldl_keeps (fun t => t.reeds) _ (fun t _ => sendOne_reeds l t)]
/-- `pump` leaves `binding` alone. -/
@[simp] theorem pump_binding (l : Nat) (s : State) : (pump l s).binding = s.binding := by
  rw [pump, foldl_keeps (fun t => t.binding) _ (fun t _ => sendOne_binding l t)]
/-- `pump` leaves `beds` alone. -/
@[simp] theorem pump_beds (l : Nat) (s : State) : (pump l s).beds = s.beds := by
  rw [pump, foldl_keeps (fun t => t.beds) _ (fun t _ => sendOne_beds l t)]
/-- `pump` leaves `hbm` alone. -/
@[simp] theorem pump_hbm (l : Nat) (s : State) : (pump l s).hbm = s.hbm := by
  rw [pump, foldl_keeps (fun t => t.hbm) _ (fun t _ => sendOne_hbm l t)]
/-- `pump` leaves `srcs` alone. -/
@[simp] theorem pump_srcs (l : Nat) (s : State) : (pump l s).srcs = s.srcs := by
  rw [pump, foldl_keeps (fun t => t.srcs) _ (fun t _ => sendOne_srcs l t)]
/-- `pump` leaves `qmg` alone. -/
@[simp] theorem pump_qmg (l : Nat) (s : State) : (pump l s).qmg = s.qmg := by
  rw [pump, foldl_keeps (fun t => t.qmg) _ (fun t _ => sendOne_qmg l t)]
/-- `pump` leaves `evr` alone. -/
@[simp] theorem pump_evr (l : Nat) (s : State) : (pump l s).evr = s.evr := by
  rw [pump, foldl_keeps (fun t => t.evr) _ (fun t _ => sendOne_evr l t)]
/-- `pump` leaves `cxl` alone. -/
@[simp] theorem pump_cxl (l : Nat) (s : State) : (pump l s).cxl = s.cxl := by
  rw [pump, foldl_keeps (fun t => t.cxl) _ (fun t _ => sendOne_cxl l t)]
/-- `pump` leaves `atl` alone. -/
@[simp] theorem pump_atl (l : Nat) (s : State) : (pump l s).atl = s.atl := by
  rw [pump, foldl_keeps (fun t => t.atl) _ (fun t _ => sendOne_atl l t)]
/-- `pump` leaves `slc` alone. -/
@[simp] theorem pump_slc (l : Nat) (s : State) : (pump l s).slc = s.slc := by
  rw [pump, foldl_keeps (fun t => t.slc) _ (fun t _ => sendOne_slc l t)]
/-- `pump` leaves `asp` alone. -/
@[simp] theorem pump_asp (l : Nat) (s : State) : (pump l s).asp = s.asp := by
  rw [pump, foldl_keeps (fun t => t.asp) _ (fun t _ => sendOne_asp l t)]
/-- `pump` leaves `ssp` alone. -/
@[simp] theorem pump_ssp (l : Nat) (s : State) : (pump l s).ssp = s.ssp := by
  rw [pump, foldl_keeps (fun t => t.ssp) _ (fun t _ => sendOne_ssp l t)]
/-- `pump` leaves `tcu` alone. -/
@[simp] theorem pump_tcu (l : Nat) (s : State) : (pump l s).tcu = s.tcu := by
  rw [pump, foldl_keeps (fun t => t.tcu) _ (fun t _ => sendOne_tcu l t)]
/-- `pump` leaves `sec` alone. -/
@[simp] theorem pump_sec (l : Nat) (s : State) : (pump l s).sec = s.sec := by
  rw [pump, foldl_keeps (fun t => t.sec) _ (fun t _ => sendOne_sec l t)]
/-- `pump` leaves `spr` alone. -/
@[simp] theorem pump_spr (l : Nat) (s : State) : (pump l s).spr = s.spr := by
  rw [pump, foldl_keeps (fun t => t.spr) _ (fun t _ => sendOne_spr l t)]
/-- `pump` leaves `tst` alone. -/
@[simp] theorem pump_tst (l : Nat) (s : State) : (pump l s).tst = s.tst := by
  rw [pump, foldl_keeps (fun t => t.tst) _ (fun t _ => sendOne_tst l t)]

/-! ### sendOn -/

/-- `sendOn` leaves `pending` alone. -/
@[simp] theorem sendOn_pending (l : Nat) (m : List Flit) (s : State) : (sendOn l m s).pending = s.pending := by
  simp only [sendOn]
  split <;> simp
/-- `sendOn` leaves `fresh` alone. -/
@[simp] theorem sendOn_fresh (l : Nat) (m : List Flit) (s : State) : (sendOn l m s).fresh = s.fresh := by
  simp only [sendOn]
  split <;> simp
/-- `sendOn` leaves `mem` alone. -/
@[simp] theorem sendOn_mem (l : Nat) (m : List Flit) (s : State) : (sendOn l m s).mem = s.mem := by
  simp only [sendOn]
  split <;> simp
/-- `sendOn` leaves `bad` alone. -/
@[simp] theorem sendOn_bad (l : Nat) (m : List Flit) (s : State) : (sendOn l m s).bad = s.bad := by
  simp only [sendOn]
  split <;> simp
/-- `sendOn` leaves `hdr` alone. -/
@[simp] theorem sendOn_hdr (l : Nat) (m : List Flit) (s : State) : (sendOn l m s).hdr = s.hdr := by
  simp only [sendOn]
  split <;> simp
/-- `sendOn` leaves `glb` alone. -/
@[simp] theorem sendOn_glb (l : Nat) (m : List Flit) (s : State) : (sendOn l m s).glb = s.glb := by
  simp only [sendOn]
  split <;> simp
/-- `sendOn` leaves `pwr` alone. -/
@[simp] theorem sendOn_pwr (l : Nat) (m : List Flit) (s : State) : (sendOn l m s).pwr = s.pwr := by
  simp only [sendOn]
  split <;> simp
/-- `sendOn` leaves `mer` alone. -/
@[simp] theorem sendOn_mer (l : Nat) (m : List Flit) (s : State) : (sendOn l m s).mer = s.mer := by
  simp only [sendOn]
  split <;> simp
/-- `sendOn` leaves `fbk` alone. -/
@[simp] theorem sendOn_fbk (l : Nat) (m : List Flit) (s : State) : (sendOn l m s).fbk = s.fbk := by
  simp only [sendOn]
  split <;> simp
/-- `sendOn` leaves `reeds` alone. -/
@[simp] theorem sendOn_reeds (l : Nat) (m : List Flit) (s : State) : (sendOn l m s).reeds = s.reeds := by
  simp only [sendOn]
  split <;> simp
/-- `sendOn` leaves `binding` alone. -/
@[simp] theorem sendOn_binding (l : Nat) (m : List Flit) (s : State) : (sendOn l m s).binding = s.binding := by
  simp only [sendOn]
  split <;> simp
/-- `sendOn` leaves `beds` alone. -/
@[simp] theorem sendOn_beds (l : Nat) (m : List Flit) (s : State) : (sendOn l m s).beds = s.beds := by
  simp only [sendOn]
  split <;> simp
/-- `sendOn` leaves `hbm` alone. -/
@[simp] theorem sendOn_hbm (l : Nat) (m : List Flit) (s : State) : (sendOn l m s).hbm = s.hbm := by
  simp only [sendOn]
  split <;> simp
/-- `sendOn` leaves `srcs` alone. -/
@[simp] theorem sendOn_srcs (l : Nat) (m : List Flit) (s : State) : (sendOn l m s).srcs = s.srcs := by
  simp only [sendOn]
  split <;> simp
/-- `sendOn` leaves `qmg` alone. -/
@[simp] theorem sendOn_qmg (l : Nat) (m : List Flit) (s : State) : (sendOn l m s).qmg = s.qmg := by
  simp only [sendOn]
  split <;> simp
/-- `sendOn` leaves `evr` alone. -/
@[simp] theorem sendOn_evr (l : Nat) (m : List Flit) (s : State) : (sendOn l m s).evr = s.evr := by
  simp only [sendOn]
  split <;> simp
/-- `sendOn` leaves `cxl` alone. -/
@[simp] theorem sendOn_cxl (l : Nat) (m : List Flit) (s : State) : (sendOn l m s).cxl = s.cxl := by
  simp only [sendOn]
  split <;> simp
/-- `sendOn` leaves `atl` alone. -/
@[simp] theorem sendOn_atl (l : Nat) (m : List Flit) (s : State) : (sendOn l m s).atl = s.atl := by
  simp only [sendOn]
  split <;> simp
/-- `sendOn` leaves `slc` alone. -/
@[simp] theorem sendOn_slc (l : Nat) (m : List Flit) (s : State) : (sendOn l m s).slc = s.slc := by
  simp only [sendOn]
  split <;> simp
/-- `sendOn` leaves `asp` alone. -/
@[simp] theorem sendOn_asp (l : Nat) (m : List Flit) (s : State) : (sendOn l m s).asp = s.asp := by
  simp only [sendOn]
  split <;> simp
/-- `sendOn` leaves `ssp` alone. -/
@[simp] theorem sendOn_ssp (l : Nat) (m : List Flit) (s : State) : (sendOn l m s).ssp = s.ssp := by
  simp only [sendOn]
  split <;> simp
/-- `sendOn` leaves `tcu` alone. -/
@[simp] theorem sendOn_tcu (l : Nat) (m : List Flit) (s : State) : (sendOn l m s).tcu = s.tcu := by
  simp only [sendOn]
  split <;> simp
/-- `sendOn` leaves `sec` alone. -/
@[simp] theorem sendOn_sec (l : Nat) (m : List Flit) (s : State) : (sendOn l m s).sec = s.sec := by
  simp only [sendOn]
  split <;> simp
/-- `sendOn` leaves `spr` alone. -/
@[simp] theorem sendOn_spr (l : Nat) (m : List Flit) (s : State) : (sendOn l m s).spr = s.spr := by
  simp only [sendOn]
  split <;> simp
/-- `sendOn` leaves `tst` alone. -/
@[simp] theorem sendOn_tst (l : Nat) (m : List Flit) (s : State) : (sendOn l m s).tst = s.tst := by
  simp only [sendOn]
  split <;> simp

/-! ### sendBus -/

/-- `sendBus` leaves `pending` alone. -/
@[simp] theorem sendBus_pending (b p : Nat) (e : BusEntry) (s : State) : (sendBus b p e s).pending = s.pending := by
  simp only [sendBus]
  split
  · exact foldl_keeps (fun t => t.pending) _ (fun t l => foldl_keeps (fun t => t.pending) _ (fun u f => sendOn_pending l [f] u) _ t) _ s
  · rfl
/-- `sendBus` leaves `fresh` alone. -/
@[simp] theorem sendBus_fresh (b p : Nat) (e : BusEntry) (s : State) : (sendBus b p e s).fresh = s.fresh := by
  simp only [sendBus]
  split
  · exact foldl_keeps (fun t => t.fresh) _ (fun t l => foldl_keeps (fun t => t.fresh) _ (fun u f => sendOn_fresh l [f] u) _ t) _ s
  · rfl
/-- `sendBus` leaves `mem` alone. -/
@[simp] theorem sendBus_mem (b p : Nat) (e : BusEntry) (s : State) : (sendBus b p e s).mem = s.mem := by
  simp only [sendBus]
  split
  · exact foldl_keeps (fun t => t.mem) _ (fun t l => foldl_keeps (fun t => t.mem) _ (fun u f => sendOn_mem l [f] u) _ t) _ s
  · rfl
/-- `sendBus` leaves `bad` alone. -/
@[simp] theorem sendBus_bad (b p : Nat) (e : BusEntry) (s : State) : (sendBus b p e s).bad = s.bad := by
  simp only [sendBus]
  split
  · exact foldl_keeps (fun t => t.bad) _ (fun t l => foldl_keeps (fun t => t.bad) _ (fun u f => sendOn_bad l [f] u) _ t) _ s
  · rfl
/-- `sendBus` leaves `hdr` alone. -/
@[simp] theorem sendBus_hdr (b p : Nat) (e : BusEntry) (s : State) : (sendBus b p e s).hdr = s.hdr := by
  simp only [sendBus]
  split
  · exact foldl_keeps (fun t => t.hdr) _ (fun t l => foldl_keeps (fun t => t.hdr) _ (fun u f => sendOn_hdr l [f] u) _ t) _ s
  · rfl
/-- `sendBus` leaves `glb` alone. -/
@[simp] theorem sendBus_glb (b p : Nat) (e : BusEntry) (s : State) : (sendBus b p e s).glb = s.glb := by
  simp only [sendBus]
  split
  · exact foldl_keeps (fun t => t.glb) _ (fun t l => foldl_keeps (fun t => t.glb) _ (fun u f => sendOn_glb l [f] u) _ t) _ s
  · rfl
/-- `sendBus` leaves `pwr` alone. -/
@[simp] theorem sendBus_pwr (b p : Nat) (e : BusEntry) (s : State) : (sendBus b p e s).pwr = s.pwr := by
  simp only [sendBus]
  split
  · exact foldl_keeps (fun t => t.pwr) _ (fun t l => foldl_keeps (fun t => t.pwr) _ (fun u f => sendOn_pwr l [f] u) _ t) _ s
  · rfl
/-- `sendBus` leaves `mer` alone. -/
@[simp] theorem sendBus_mer (b p : Nat) (e : BusEntry) (s : State) : (sendBus b p e s).mer = s.mer := by
  simp only [sendBus]
  split
  · exact foldl_keeps (fun t => t.mer) _ (fun t l => foldl_keeps (fun t => t.mer) _ (fun u f => sendOn_mer l [f] u) _ t) _ s
  · rfl
/-- `sendBus` leaves `fbk` alone. -/
@[simp] theorem sendBus_fbk (b p : Nat) (e : BusEntry) (s : State) : (sendBus b p e s).fbk = s.fbk := by
  simp only [sendBus]
  split
  · exact foldl_keeps (fun t => t.fbk) _ (fun t l => foldl_keeps (fun t => t.fbk) _ (fun u f => sendOn_fbk l [f] u) _ t) _ s
  · rfl
/-- `sendBus` leaves `reeds` alone. -/
@[simp] theorem sendBus_reeds (b p : Nat) (e : BusEntry) (s : State) : (sendBus b p e s).reeds = s.reeds := by
  simp only [sendBus]
  split
  · exact foldl_keeps (fun t => t.reeds) _ (fun t l => foldl_keeps (fun t => t.reeds) _ (fun u f => sendOn_reeds l [f] u) _ t) _ s
  · rfl
/-- `sendBus` leaves `binding` alone. -/
@[simp] theorem sendBus_binding (b p : Nat) (e : BusEntry) (s : State) : (sendBus b p e s).binding = s.binding := by
  simp only [sendBus]
  split
  · exact foldl_keeps (fun t => t.binding) _ (fun t l => foldl_keeps (fun t => t.binding) _ (fun u f => sendOn_binding l [f] u) _ t) _ s
  · rfl
/-- `sendBus` leaves `beds` alone. -/
@[simp] theorem sendBus_beds (b p : Nat) (e : BusEntry) (s : State) : (sendBus b p e s).beds = s.beds := by
  simp only [sendBus]
  split
  · exact foldl_keeps (fun t => t.beds) _ (fun t l => foldl_keeps (fun t => t.beds) _ (fun u f => sendOn_beds l [f] u) _ t) _ s
  · rfl
/-- `sendBus` leaves `hbm` alone. -/
@[simp] theorem sendBus_hbm (b p : Nat) (e : BusEntry) (s : State) : (sendBus b p e s).hbm = s.hbm := by
  simp only [sendBus]
  split
  · exact foldl_keeps (fun t => t.hbm) _ (fun t l => foldl_keeps (fun t => t.hbm) _ (fun u f => sendOn_hbm l [f] u) _ t) _ s
  · rfl
/-- `sendBus` leaves `srcs` alone. -/
@[simp] theorem sendBus_srcs (b p : Nat) (e : BusEntry) (s : State) : (sendBus b p e s).srcs = s.srcs := by
  simp only [sendBus]
  split
  · exact foldl_keeps (fun t => t.srcs) _ (fun t l => foldl_keeps (fun t => t.srcs) _ (fun u f => sendOn_srcs l [f] u) _ t) _ s
  · rfl
/-- `sendBus` leaves `qmg` alone. -/
@[simp] theorem sendBus_qmg (b p : Nat) (e : BusEntry) (s : State) : (sendBus b p e s).qmg = s.qmg := by
  simp only [sendBus]
  split
  · exact foldl_keeps (fun t => t.qmg) _ (fun t l => foldl_keeps (fun t => t.qmg) _ (fun u f => sendOn_qmg l [f] u) _ t) _ s
  · rfl
/-- `sendBus` leaves `evr` alone. -/
@[simp] theorem sendBus_evr (b p : Nat) (e : BusEntry) (s : State) : (sendBus b p e s).evr = s.evr := by
  simp only [sendBus]
  split
  · exact foldl_keeps (fun t => t.evr) _ (fun t l => foldl_keeps (fun t => t.evr) _ (fun u f => sendOn_evr l [f] u) _ t) _ s
  · rfl
/-- `sendBus` leaves `cxl` alone. -/
@[simp] theorem sendBus_cxl (b p : Nat) (e : BusEntry) (s : State) : (sendBus b p e s).cxl = s.cxl := by
  simp only [sendBus]
  split
  · exact foldl_keeps (fun t => t.cxl) _ (fun t l => foldl_keeps (fun t => t.cxl) _ (fun u f => sendOn_cxl l [f] u) _ t) _ s
  · rfl
/-- `sendBus` leaves `atl` alone. -/
@[simp] theorem sendBus_atl (b p : Nat) (e : BusEntry) (s : State) : (sendBus b p e s).atl = s.atl := by
  simp only [sendBus]
  split
  · exact foldl_keeps (fun t => t.atl) _ (fun t l => foldl_keeps (fun t => t.atl) _ (fun u f => sendOn_atl l [f] u) _ t) _ s
  · rfl
/-- `sendBus` leaves `slc` alone. -/
@[simp] theorem sendBus_slc (b p : Nat) (e : BusEntry) (s : State) : (sendBus b p e s).slc = s.slc := by
  simp only [sendBus]
  split
  · exact foldl_keeps (fun t => t.slc) _ (fun t l => foldl_keeps (fun t => t.slc) _ (fun u f => sendOn_slc l [f] u) _ t) _ s
  · rfl
/-- `sendBus` leaves `asp` alone. -/
@[simp] theorem sendBus_asp (b p : Nat) (e : BusEntry) (s : State) : (sendBus b p e s).asp = s.asp := by
  simp only [sendBus]
  split
  · exact foldl_keeps (fun t => t.asp) _ (fun t l => foldl_keeps (fun t => t.asp) _ (fun u f => sendOn_asp l [f] u) _ t) _ s
  · rfl
/-- `sendBus` leaves `ssp` alone. -/
@[simp] theorem sendBus_ssp (b p : Nat) (e : BusEntry) (s : State) : (sendBus b p e s).ssp = s.ssp := by
  simp only [sendBus]
  split
  · exact foldl_keeps (fun t => t.ssp) _ (fun t l => foldl_keeps (fun t => t.ssp) _ (fun u f => sendOn_ssp l [f] u) _ t) _ s
  · rfl
/-- `sendBus` leaves `tcu` alone. -/
@[simp] theorem sendBus_tcu (b p : Nat) (e : BusEntry) (s : State) : (sendBus b p e s).tcu = s.tcu := by
  simp only [sendBus]
  split
  · exact foldl_keeps (fun t => t.tcu) _ (fun t l => foldl_keeps (fun t => t.tcu) _ (fun u f => sendOn_tcu l [f] u) _ t) _ s
  · rfl
/-- `sendBus` leaves `sec` alone. -/
@[simp] theorem sendBus_sec (b p : Nat) (e : BusEntry) (s : State) : (sendBus b p e s).sec = s.sec := by
  simp only [sendBus]
  split
  · exact foldl_keeps (fun t => t.sec) _ (fun t l => foldl_keeps (fun t => t.sec) _ (fun u f => sendOn_sec l [f] u) _ t) _ s
  · rfl
/-- `sendBus` leaves `spr` alone. -/
@[simp] theorem sendBus_spr (b p : Nat) (e : BusEntry) (s : State) : (sendBus b p e s).spr = s.spr := by
  simp only [sendBus]
  split
  · exact foldl_keeps (fun t => t.spr) _ (fun t l => foldl_keeps (fun t => t.spr) _ (fun u f => sendOn_spr l [f] u) _ t) _ s
  · rfl
/-- `sendBus` leaves `tst` alone. -/
@[simp] theorem sendBus_tst (b p : Nat) (e : BusEntry) (s : State) : (sendBus b p e s).tst = s.tst := by
  simp only [sendBus]
  split
  · exact foldl_keeps (fun t => t.tst) _ (fun t l => foldl_keeps (fun t => t.tst) _ (fun u f => sendOn_tst l [f] u) _ t) _ s
  · rfl

/-! ### afterLocalStore -/

/-- `afterLocalStore` leaves `pending` alone. -/
@[simp] theorem afterLocalStore_pending (r : Nat) (ws : List StoreWord) (s : State) : (afterLocalStore r ws s).pending = s.pending := by
  simp only [afterLocalStore]
  split
  · rfl
  · rw [foldl_keeps (fun t => t.pending)]
    intro t b
    split
    · exact sendBus_pending ..
    · rfl
/-- `afterLocalStore` leaves `fresh` alone. -/
@[simp] theorem afterLocalStore_fresh (r : Nat) (ws : List StoreWord) (s : State) : (afterLocalStore r ws s).fresh = s.fresh := by
  simp only [afterLocalStore]
  split
  · rfl
  · rw [foldl_keeps (fun t => t.fresh)]
    intro t b
    split
    · exact sendBus_fresh ..
    · rfl
/-- `afterLocalStore` leaves `mem` alone. -/
@[simp] theorem afterLocalStore_mem (r : Nat) (ws : List StoreWord) (s : State) : (afterLocalStore r ws s).mem = s.mem := by
  simp only [afterLocalStore]
  split
  · rfl
  · rw [foldl_keeps (fun t => t.mem)]
    intro t b
    split
    · exact sendBus_mem ..
    · rfl
/-- `afterLocalStore` leaves `bad` alone. -/
@[simp] theorem afterLocalStore_bad (r : Nat) (ws : List StoreWord) (s : State) : (afterLocalStore r ws s).bad = s.bad := by
  simp only [afterLocalStore]
  split
  · rfl
  · rw [foldl_keeps (fun t => t.bad)]
    intro t b
    split
    · exact sendBus_bad ..
    · rfl
/-- `afterLocalStore` leaves `hdr` alone. -/
@[simp] theorem afterLocalStore_hdr (r : Nat) (ws : List StoreWord) (s : State) : (afterLocalStore r ws s).hdr = s.hdr := by
  simp only [afterLocalStore]
  split
  · rfl
  · rw [foldl_keeps (fun t => t.hdr)]
    intro t b
    split
    · exact sendBus_hdr ..
    · rfl
/-- `afterLocalStore` leaves `glb` alone. -/
@[simp] theorem afterLocalStore_glb (r : Nat) (ws : List StoreWord) (s : State) : (afterLocalStore r ws s).glb = s.glb := by
  simp only [afterLocalStore]
  split
  · rfl
  · rw [foldl_keeps (fun t => t.glb)]
    intro t b
    split
    · exact sendBus_glb ..
    · rfl
/-- `afterLocalStore` leaves `pwr` alone. -/
@[simp] theorem afterLocalStore_pwr (r : Nat) (ws : List StoreWord) (s : State) : (afterLocalStore r ws s).pwr = s.pwr := by
  simp only [afterLocalStore]
  split
  · rfl
  · rw [foldl_keeps (fun t => t.pwr)]
    intro t b
    split
    · exact sendBus_pwr ..
    · rfl
/-- `afterLocalStore` leaves `mer` alone. -/
@[simp] theorem afterLocalStore_mer (r : Nat) (ws : List StoreWord) (s : State) : (afterLocalStore r ws s).mer = s.mer := by
  simp only [afterLocalStore]
  split
  · rfl
  · rw [foldl_keeps (fun t => t.mer)]
    intro t b
    split
    · exact sendBus_mer ..
    · rfl
/-- `afterLocalStore` leaves `fbk` alone. -/
@[simp] theorem afterLocalStore_fbk (r : Nat) (ws : List StoreWord) (s : State) : (afterLocalStore r ws s).fbk = s.fbk := by
  simp only [afterLocalStore]
  split
  · rfl
  · rw [foldl_keeps (fun t => t.fbk)]
    intro t b
    split
    · exact sendBus_fbk ..
    · rfl
/-- `afterLocalStore` leaves `reeds` alone. -/
@[simp] theorem afterLocalStore_reeds (r : Nat) (ws : List StoreWord) (s : State) : (afterLocalStore r ws s).reeds = s.reeds := by
  simp only [afterLocalStore]
  split
  · rfl
  · rw [foldl_keeps (fun t => t.reeds)]
    intro t b
    split
    · exact sendBus_reeds ..
    · rfl
/-- `afterLocalStore` leaves `binding` alone. -/
@[simp] theorem afterLocalStore_binding (r : Nat) (ws : List StoreWord) (s : State) : (afterLocalStore r ws s).binding = s.binding := by
  simp only [afterLocalStore]
  split
  · rfl
  · rw [foldl_keeps (fun t => t.binding)]
    intro t b
    split
    · exact sendBus_binding ..
    · rfl
/-- `afterLocalStore` leaves `beds` alone. -/
@[simp] theorem afterLocalStore_beds (r : Nat) (ws : List StoreWord) (s : State) : (afterLocalStore r ws s).beds = s.beds := by
  simp only [afterLocalStore]
  split
  · rfl
  · rw [foldl_keeps (fun t => t.beds)]
    intro t b
    split
    · exact sendBus_beds ..
    · rfl
/-- `afterLocalStore` leaves `hbm` alone. -/
@[simp] theorem afterLocalStore_hbm (r : Nat) (ws : List StoreWord) (s : State) : (afterLocalStore r ws s).hbm = s.hbm := by
  simp only [afterLocalStore]
  split
  · rfl
  · rw [foldl_keeps (fun t => t.hbm)]
    intro t b
    split
    · exact sendBus_hbm ..
    · rfl
/-- `afterLocalStore` leaves `srcs` alone. -/
@[simp] theorem afterLocalStore_srcs (r : Nat) (ws : List StoreWord) (s : State) : (afterLocalStore r ws s).srcs = s.srcs := by
  simp only [afterLocalStore]
  split
  · rfl
  · rw [foldl_keeps (fun t => t.srcs)]
    intro t b
    split
    · exact sendBus_srcs ..
    · rfl
/-- `afterLocalStore` leaves `qmg` alone. -/
@[simp] theorem afterLocalStore_qmg (r : Nat) (ws : List StoreWord) (s : State) : (afterLocalStore r ws s).qmg = s.qmg := by
  simp only [afterLocalStore]
  split
  · rfl
  · rw [foldl_keeps (fun t => t.qmg)]
    intro t b
    split
    · exact sendBus_qmg ..
    · rfl
/-- `afterLocalStore` leaves `evr` alone. -/
@[simp] theorem afterLocalStore_evr (r : Nat) (ws : List StoreWord) (s : State) : (afterLocalStore r ws s).evr = s.evr := by
  simp only [afterLocalStore]
  split
  · rfl
  · rw [foldl_keeps (fun t => t.evr)]
    intro t b
    split
    · exact sendBus_evr ..
    · rfl
/-- `afterLocalStore` leaves `cxl` alone. -/
@[simp] theorem afterLocalStore_cxl (r : Nat) (ws : List StoreWord) (s : State) : (afterLocalStore r ws s).cxl = s.cxl := by
  simp only [afterLocalStore]
  split
  · rfl
  · rw [foldl_keeps (fun t => t.cxl)]
    intro t b
    split
    · exact sendBus_cxl ..
    · rfl
/-- `afterLocalStore` leaves `atl` alone. -/
@[simp] theorem afterLocalStore_atl (r : Nat) (ws : List StoreWord) (s : State) : (afterLocalStore r ws s).atl = s.atl := by
  simp only [afterLocalStore]
  split
  · rfl
  · rw [foldl_keeps (fun t => t.atl)]
    intro t b
    split
    · exact sendBus_atl ..
    · rfl
/-- `afterLocalStore` leaves `slc` alone. -/
@[simp] theorem afterLocalStore_slc (r : Nat) (ws : List StoreWord) (s : State) : (afterLocalStore r ws s).slc = s.slc := by
  simp only [afterLocalStore]
  split
  · rfl
  · rw [foldl_keeps (fun t => t.slc)]
    intro t b
    split
    · exact sendBus_slc ..
    · rfl
/-- `afterLocalStore` leaves `ssp` alone. -/
@[simp] theorem afterLocalStore_ssp (r : Nat) (ws : List StoreWord) (s : State) : (afterLocalStore r ws s).ssp = s.ssp := by
  simp only [afterLocalStore]
  split
  · rfl
  · rw [foldl_keeps (fun t => t.ssp)]
    intro t b
    split
    · exact sendBus_ssp ..
    · rfl
/-- `afterLocalStore` leaves `tcu` alone. -/
@[simp] theorem afterLocalStore_tcu (r : Nat) (ws : List StoreWord) (s : State) : (afterLocalStore r ws s).tcu = s.tcu := by
  simp only [afterLocalStore]
  split
  · rfl
  · rw [foldl_keeps (fun t => t.tcu)]
    intro t b
    split
    · exact sendBus_tcu ..
    · rfl
/-- `afterLocalStore` leaves `sec` alone. -/
@[simp] theorem afterLocalStore_sec (r : Nat) (ws : List StoreWord) (s : State) : (afterLocalStore r ws s).sec = s.sec := by
  simp only [afterLocalStore]
  split
  · rfl
  · rw [foldl_keeps (fun t => t.sec)]
    intro t b
    split
    · exact sendBus_sec ..
    · rfl
/-- `afterLocalStore` leaves `spr` alone. -/
@[simp] theorem afterLocalStore_spr (r : Nat) (ws : List StoreWord) (s : State) : (afterLocalStore r ws s).spr = s.spr := by
  simp only [afterLocalStore]
  split
  · rfl
  · rw [foldl_keeps (fun t => t.spr)]
    intro t b
    split
    · exact sendBus_spr ..
    · rfl
/-- `afterLocalStore` leaves `tst` alone. -/
@[simp] theorem afterLocalStore_tst (r : Nat) (ws : List StoreWord) (s : State) : (afterLocalStore r ws s).tst = s.tst := by
  simp only [afterLocalStore]
  split
  · rfl
  · rw [foldl_keeps (fun t => t.tst)]
    intro t b
    split
    · exact sendBus_tst ..
    · rfl

/-! ### Memory after a write -/

/-- Noting an error writes no memory, so words are written as `putPlaced` writes them. -/
@[simp] theorem writePlaced_mem (ws : List PlacedWord) (s : State) : (writePlaced ws s).mem = ws.foldl putPlaced s.mem := by
  rw [writePlaced, foldl_keeps (fun t => t.mem) _ (fun t p => unitAfter_mem ws p t)]

/-- No word is held back for a snoop where none of them lies in HBM. -/
theorem snoopOrKeep_fold (ws : List PlacedWord) (s : State) (kept : List PlacedWord) (h : ∀ p ∈ ws, ∀ a, p.1 ≠ .hbm a) :
    ws.foldl snoopOrKeep (s, kept) = (s, kept ++ ws) := by
  induction ws generalizing kept with
  | nil => simp
  | cons p ws ih =>
    have hp : snoopLine s p.1 = none := by
      have := h p (List.mem_cons_self ..)
      unfold snoopLine
      split
      · rename_i a ha
        exact absurd ha (this a)
      · rfl
    rw [List.foldl_cons]
    simp only [snoopOrKeep, hp]
    rw [ih _ fun q hq => h q (List.mem_cons_of_mem _ hq)]
    simp

/-- A write outside HBM is made at once. -/
theorem deviceWrite_mem (ws : List PlacedWord) (s : State) (h : ∀ p ∈ ws, ∀ a, p.1 ≠ .hbm a) :
    (deviceWrite ws s).mem = ws.foldl putPlaced s.mem := by
  rw [deviceWrite, snoopOrKeep_fold ws s [] h]
  simp

/-- A device agent's write keeps the canonical form of the memory. -/
theorem deviceWrite_wf (ws : List PlacedWord) (s : State) (h : Memory.wf s.mem = true) :
    Memory.wf (deviceWrite ws s).mem = true := by
  rw [deviceWrite, writePlaced_mem, foldl_keeps_fst (fun t => t.mem) _ snoopOrKeep_mem]
  exact foldl_putPlaced_wf _ h

/-- Nothing is written by no words. -/
@[simp] theorem deviceWrite_nil (s : State) : deviceWrite [] s = s := by simp [deviceWrite, writePlaced]

/-- No store triggers nothing. -/
@[simp] theorem afterLocalStore_nil (r : Nat) (s : State) : afterLocalStore r [] s = s := by simp [afterLocalStore]

end Sys2Proof.Machine
end

