-- ==== Sys2Proof/Laws/Reed.lean ====
section
/-! SUPPORT. Sys2Proof/Laws/Reed.lean: a bundle of one syllable, from its fetch to its completion: what the reed does where
nothing else awaits its context. -/

namespace Sys2Proof.Machine

/-! ### Contexts of a reed -/

/-- A context just written is the one read. -/
@[simp] theorem ctxOf_setCtx (x : Reed) (c : Nat) (k : Ctx) : (x.setCtx c k).ctxOf c = k := by simp [Reed.ctxOf, Reed.setCtx]
/-- The other contexts are read as before. -/
theorem ctxOf_setCtx_other (x : Reed) (c d : Nat) (k : Ctx) (h : d ≠ c) : (x.setCtx c k).ctxOf d = x.ctxOf d := by
  simp [Reed.ctxOf, Reed.setCtx, Tab.get_set_other _ _ _ _ _ h]
/-- A context written leaves the stations alone. -/
@[simp] theorem setCtx_stations (x : Reed) (c : Nat) (k : Ctx) : (x.setCtx c k).stations = x.stations := rfl
/-- A context written leaves the running context alone. -/
@[simp] theorem setCtx_running (x : Reed) (c : Nat) (k : Ctx) : (x.setCtx c k).running = x.running := rfl
/-- Two states with the same reeds have the same reed `r`. -/
theorem reedOf_of {s t : State} (h : s.reeds = t.reeds) (r : Nat) : reedOf s r = reedOf t r := by simp [reedOf, h]

/-- Beats are counted on the running context. -/
@[simp] theorem addBeats_ctx_same (c n : Nat) (x : Reed) :
    (addBeats c n x).ctxOf c = { x.ctxOf c with sched := { (x.ctxOf c).sched with beats := (x.ctxOf c).sched.beats + n } } := by
  simp [addBeats, Reed.ctxOf, Reed.setCtx]
/-- Beats leave the other contexts alone. -/
theorem addBeats_ctx_other (c d n : Nat) (x : Reed) (h : d ≠ c) : (addBeats c n x).ctxOf d = x.ctxOf d := by
  simp [addBeats, Reed.ctxOf, Reed.setCtx, Tab.get_set_other _ _ _ _ _ h]
/-- Beats leave the stations alone. -/
@[simp] theorem addBeats_stations (c n : Nat) (x : Reed) : (addBeats c n x).stations = x.stations := rfl
/-- Discarded bundles leave the contexts alone. -/
@[simp] theorem addDiscard_ctx (n : Nat) (x : Reed) (d : Nat) : (addDiscard n x).ctxOf d = x.ctxOf d := rfl

/-! ### Quiet boundaries -/

/-- Nothing retires where nothing is in flight. -/
theorem firstToRetire_nil {x : Reed} (h : x.stations = []) : firstToRetire x = none := by
  simp [firstToRetire, unitOp, h, List.range, List.range.loop]
/-- Beats that pass with nothing in flight retire nothing. -/
theorem retireDue_nil {x : Reed} (n : Nat) (h : x.stations = []) : retireDue n x = x := by
  cases n <;> simp [retireDue, firstToRetire_nil h]
/-- A boundary that nothing awaits changes nothing. -/
theorem boundary_quiet {r c : Nat} {s : State} (h1 : ((reedOf s r).ctxOf c).sched.stop = false)
    (h2 : ((reedOf s r).ctxOf c).sched.due = none) : boundary r c s = s := by
  simp [boundary, h1, h2]

/-- Writing a result leaves the schedule alone. -/
theorem applyDest_sched (d : Dest) (v : Nat) (k : Ctx) : (applyDest d v k).sched = k.sched := by
  unfold applyDest
  cases d <;> simp only [] <;> (try split) <;> rfl
/-- Writing results leaves the schedule alone. -/
theorem writeEntries_sched (n : Nat) (es : List Pending) (k : Ctx) : (writeEntries n es k).1.sched = k.sched := by
  induction n generalizing es k with
  | zero => cases es <;> rfl
  | succ n ih => cases es with
    | nil => rfl
    | cons e es => simp [writeEntries, ih, applyDest_sched]
/-- Delivering flags leaves the schedule alone. -/
theorem foldFlags_sched (l : List Pending) (k : Ctx) :
    (l.foldl (fun (t : Ctx) e => t.setFlags e.raised) k).sched = k.sched := by
  induction l generalizing k with
  | nil => rfl
  | cons e l ih => rw [List.foldl_cons, ih]; rfl
/-- Settling the shadow leaves the schedule alone. -/
theorem settle_sched (lv : Nat) (u : Option Nat) (k : Ctx) : (settle lv u k).sched = k.sched := by
  simp only [settle, foldFlags_sched, writeEntries_sched]
/-- A completed bundle that is no TEND and no RFE leaves its context's schedule alone. -/
theorem finishCtx_sched (v : View) (x : Reed) (effs : List Eff) (ctl : Ctl) (ch : Choice) (k : Ctx) (h1 : ctl ≠ .tend)
    (h2 : ∀ a b, ctl ≠ .rfe a b) : (finishCtx v x effs ctl ch k).sched = k.sched := by
  unfold finishCtx
  cases ctl <;> first | (exact absurd rfl h1) | (exact absurd rfl (h2 _ _)) | simp [settle_sched]

/-! ### One syllable -/

/-- The reed with the syllable fetched. -/
theorem reedOf_fetched (r : Nat) (w : W32) (s : State) : reedOf (fetched r w s) r = { reedOf s r with latch := [w] } := by
  simp [fetched]

/-- What the syllable does. -/
def loneEff (r c : Nat) (w : W32) (s : State) : Eff := evalSyl (loneView r c w s) w

/-- The context after the bundle, but for its beats. -/
def loneDone (r c : Nat) (w : W32) (s : State) : Ctx :=
  let v := loneView r c w s
  let x := reedOf (fetched r w s) r
  finishCtx v x [loneEff r c w s] (loneEff r c w s).ctl (choose v x (loneEff r c w s).ctl) (ctxAt s r c)

/-- Every syllable row fetches its word. -/
theorem exec_syllable {i : Instr} {o : SylOp} {r : Nat} {w : W32} (h : i.syllable = some (some o, r, w)) (s : State) :
    exec i s = sylStep (some o) r w s := by
  cases i <;> first | (cases h; rfl) | (cases h; done)

/-- A syllable row exists where its word spells its operation and its reed exists. -/
theorem wellFormed_syllable {i : Instr} {o : SylOp} {r : Nat} {w : W32} (h : i.syllable = some (some o, r, w)) :
    i.wellFormed = sylFits (some o) r w := by
  cases i <;> first | (cases h; rfl) | (cases h; done)

/-- A row that exists names the operation that its word spells. -/
theorem decodeOp_of_wellFormed {i : Instr} {o : SylOp} {r : Nat} {w : W32} (h : i.syllable = some (some o, r, w))
    (hw : i.wellFormed = true) : decodeOp w = some o ∧ r < 544 := by
  rw [wellFormed_syllable h] at hw
  simpa [sylFits] using hw

/-- The fetch of a lone syllable brings its bundle to its boundary. -/
theorem fetchSyl_lone {r c : Nat} {w : W32} {s : State} (h : Lone r c w s) : fetchSyl r w s = tryIssue r (fetched r w s) := by
  have hr := h.ready
  have h1 := hr.runs
  have h2 := hr.free
  have h3 := hr.empty
  have h4 := h.fetches
  have h5 := h.last
  unfold ctxAt at h4
  simp [fetchSyl, h1, h2, h3, h4, latchWhole, h5, fetched]

/-- A lone syllable's row brings its bundle to its boundary. -/
theorem exec_lone {i : Instr} {o : SylOp} {r c : Nat} {w : W32} {s : State} (hi : i.syllable = some (some o, r, w))
    (hw : i.wellFormed = true) (h : Lone r c w s) : exec i s = .next (tryIssue r (fetched r w s)) := by
  obtain ⟨h1, h2⟩ := decodeOp_of_wellFormed hi hw
  rw [exec_syllable hi, sylStep, fetchSyl_lone h]
  simp [h1, Nat.not_le.2 h2]

/-- The effects of a lone bundle. -/
theorem effects_lone {r c : Nat} {w : W32} {s : State}
    (hq : ∀ n, (loneEff r c w s).readsQ = some n → bitOf (ctxAt s r c).run.qValid n = true) :
    effects (loneView r c w s) (reedOf (fetched r w s) r) = [loneEff r c w s] := by
  have hv : (loneView r c w s).q = (ctxAt s r c).run := by
    simp [loneView, viewOf, reedOf_fetched, ctxAt, Reed.ctxOf]
  simp only [effects, reedOf_fetched, List.map_cons, List.map_nil, withEmpty]
  show [match (loneEff r c w s).readsQ with
    | some n => _
    | none => loneEff r c w s] = _
  split
  · rename_i n hn
    simp [hv, hq n hn]
    rfl
  · rfl

/-- A lone bundle that raises no exception, waits for nothing and reads or writes no far region completes. -/
theorem tryIssue_lone {r c : Nat} {w : W32} {s : State} (h : Lone r c w s)
    (hq : ∀ n, (loneEff r c w s).readsQ = some n → bitOf (ctxAt s r c).run.qValid n = true)
    (hx : (loneEff r c w s).exc = none) (hf : (loneEff r c w s).far = none)
    (hg : ∀ a ∈ (loneEff r c w s).gateReads, gateEmpty (fetched r w s) (placeOf (fetched r w s) r a) = false) :
    tryIssue r (fetched r w s) = completeBundle r c none 0 (fetched r w s) := by
  have hr := h.ready
  have h1 := hr.runs
  have h2 := hr.noTrap
  have h3 := hr.noRep
  have h4 := hr.noLou
  have h5 := h.budget
  have h6 := h.front
  have hq' := hq
  unfold ctxAt at h2 h3 h5 hq'
  have hk : (reedOf (fetched r w s) r).ctxOf c = (reedOf s r).ctxOf c := by simp [reedOf_fetched, Reed.ctxOf]
  have he := effects_lone hq
  have hrun : (reedOf (fetched r w s) r).running = some c := by simp [reedOf_fetched, h1]
  have hl : (reedOf (fetched r w s) r).latch = [w] := by simp [reedOf_fetched]
  have hst : (reedOf (fetched r w s) r).stations = [] := by simp [reedOf_fetched, h4]
  unfold tryIssue
  simp only [hrun, hk, hl]
  rw [show viewOf (fetched r w s) r c (reedOf (fetched r w s) r) none = loneView r c w s from rfl]
  simp only [h5, trapReady, h2, h6, he]
  have hlou : holdsLou (reedOf (fetched r w s) r) c ((reedOf s r).ctxOf c) [loneEff r c w s] = false := by
    simp only [holdsLou, List.any_cons, List.any_nil, hst, List.filter_nil, h2, List.length_nil, Bool.or_false]
    split <;> split <;> simp_all
  have hgate : holdsGate (loneView r c w s) [loneEff r c w s] = false := by
    simp only [holdsGate, farReads, List.flatMap_cons, List.flatMap_nil, hf, List.nil_append, List.append_nil, List.any_eq_false]
    intro a ha
    rw [show (loneView r c w s).s = fetched r w s from rfl, show (loneView r c w s).r = r from rfl, hg a ha]
    simp
  simp [hlou, hgate, firstExc, farOf, hx, hf, List.findIdx?, List.findIdx?.go]

/-- A lone bundle completes: what it stores is stored, and of the reed only its context and its fetch state change. -/
theorem completeBundle_lone {r c : Nat} {w : W32} {s : State} (h : Lone r c w s)
    (hq : ∀ n, (loneEff r c w s).readsQ = some n → bitOf (ctxAt s r c).run.qValid n = true)
    (hi : (loneEff r c w s).issue = none) (hf : (loneEff r c w s).far = none) (hl : (loneEff r c w s).longFar = [])
    (hc1 : (loneEff r c w s).ctl ≠ .tend) (hc2 : ∀ a b, (loneEff r c w s).ctl ≠ .rfe a b)
    (hc3 : ∀ n, (loneEff r c w s).ctl ≠ .brk n) :
    ∃ X : Reed, completeBundle r c none 0 (fetched r w s) =
        afterLocalStore r (loneEff r c w s).store
          (deviceWrite (placed (fetched r w s) r (loneEff r c w s).store) (setReed r X s)) ∧
      (∀ d, d ≠ c → X.ctxOf d = ctxAt s r d) ∧ (∃ h, X.ctxOf c = { loneDone r c w s with sched := h }) ∧ X.stations = [] ∧
      X.stores = (reedOf s r).stores ∧ X.page.tk = (reedOf s r).page.tk := by
  have hr := h.ready
  have h4 := hr.noLou
  have hk : (reedOf (fetched r w s) r).ctxOf c = (reedOf s r).ctxOf c := by simp [reedOf_fetched, Reed.ctxOf]
  have he := effects_lone hq
  have hst : (reedOf (fetched r w s) r).stations = [] := by simp [reedOf_fetched, h4]
  have hd : loneDone r c w s = finishCtx (loneView r c w s) (reedOf (fetched r w s) r) [loneEff r c w s] (loneEff r c w s).ctl
      (choose (loneView r c w s) (reedOf (fetched r w s) r) (loneEff r c w s).ctl) ((reedOf s r).ctxOf c) := by
    simp [loneDone, ctxAt]
  have hctl : ctlOf [loneEff r c w s] = (loneEff r c w s).ctl := by
    simp only [ctlOf, List.find?_cons, List.find?_nil]
    split
    · rfl
    · rename_i hh
      simp at hh
      simp [hh]
  have htr : trapAfter (loneView r c w s) (reedOf (fetched r w s) r) (loneEff r c w s).ctl = none := by
    have := hr.noStep
    simp only [ctxAt] at this
    unfold trapAfter
    split
    · rfl
    · rename_i hh
      exact absurd hh (hc3 _)
    · simp [loneView, viewOf, hk, this]
  unfold completeBundle
  extract_lets x v k effs ctl ch trap fa k1 x0 tn pred extra stores ims pf x1 x2 x3 s0 s1 s2 s3
  have ee : effs = [loneEff r c w s] := he
  have ec : ctl = (loneEff r c w s).ctl := by show ctlOf effs = _; rw [ee, hctl]
  have et : trap = none := by show trapAfter v x ctl = none; rw [ec]; exact htr
  have ek1 : k1 = loneDone r c w s := by
    rw [hd]
    show finishCtx v x effs ctl ch k = _
    simp only [ee, ec, ch]
    simp [k, x, hk, v, loneView]
  have es : stores = (loneEff r c w s).store := by simp [stores, ee]
  have ex0 : x0 = addBeats c (localBeats effs + 0) (x.setCtx c k1) := retireDue_nil _ (by simp [x, hst])
  have ex2 : x2 = x1 := by simp [x2, ee, issueStations, hi]
  have e0 : s0 = setReed r x3 s := by
    simp only [s0, ee, farOf, List.zipIdx_cons, List.zipIdx_nil, List.findSome?_cons, List.findSome?_nil, hf, Option.map_none]
    simp [fetched]
  have e3 : s3 = afterLocalStore r (loneEff r c w s).store
      (deviceWrite (placed (fetched r w s) r (loneEff r c w s).store) (setReed r x3 s)) := by
    simp [s3, ee, hl, s2, s1, es, e0]
  have hx3 : ∀ d, x3.ctxOf d = x1.ctxOf d := by intro d; simp [x3, ex2, Reed.ctxOf]
  have hx1c : x1.ctxOf c = { k1 with sched := { k1.sched with beats := k1.sched.beats + (localBeats effs + 0) + extra } } := by
    simp [x1, ex0]
  have hx1d : ∀ d, d ≠ c → x1.ctxOf d = (reedOf s r).ctxOf d := by
    intro d hd
    simp only [x1, ex0, addDiscard_ctx, addBeats_ctx_other _ _ _ _ hd, ctxOf_setCtx_other _ _ _ _ hd]
    simp [x, reedOf_fetched, Reed.ctxOf]
  have hsched : k1.sched = (ctxAt s r c).sched := by rw [ek1, hd, finishCtx_sched _ _ _ _ _ _ hc1 hc2]; rfl
  have hb : boundary r c s3 = s3 := by
    have : reedOf s3 r = x3 := by
      rw [e3, reedOf_of (afterLocalStore_reeds ..), reedOf_of (deviceWrite_reeds ..)]
      simp
    apply boundary_quiet
    · rw [this, hx3, hx1c]
      simp [hsched, hr.noStop]
    · rw [this, hx3, hx1c]
      simp [hsched, hr.noDue]
  refine ⟨x3, ?_, ?_, ?_, ?_, ?_, ?_⟩
  · rw [← e3]
    generalize hgc : ctl = ctl' at *
    cases ctl' <;> simp only [et, hb]
    exact absurd ec.symm hc1
  · intro d hd
    rw [hx3, hx1d d hd]
    rfl
  · exact ⟨_, by rw [hx3, hx1c, ek1]⟩
  · simp [x3, ex2, x1, ex0, addDiscard, x, hst]
  · simp [x3, ex2, x1, ex0, addDiscard, addBeats, Reed.setCtx, x, reedOf_fetched]
  · simp [x3, ex2, x1, ex0, addDiscard, addBeats, Reed.setCtx, x, reedOf_fetched]

/-! ### The latency shadow of one bundle -/

/-- Entries issued together never overtake each other, so the first `n` are written in order. -/
theorem writeEntries_together (m n : Nat) (es : List Pending) (k : Ctx) (h : ∀ e ∈ es, e.issued = m) :
    writeEntries n es k = ((es.take n).foldl (fun t e => applyDest e.dest e.value t) k, es.drop n) := by
  induction n generalizing es k with
  | zero => cases es <;> rfl
  | succ n ih => cases es with
    | nil => rfl
    | cons e es =>
      have he := h e (List.mem_cons_self ..)
      have hm : es.map (overtake e) = es := by
        refine (List.map_congr_left fun f hf => ?_).trans (List.map_id es)
        have := h f (List.mem_cons_of_mem _ hf)
        simp [overtake, he, this]
      rw [writeEntries, hm, ih _ _ fun f hf => h f (List.mem_cons_of_mem _ hf)]
      rfl

/-- Inserting adds one entry. -/
theorem insertPending_mem {a f : Pending} {l : List Pending} (h : f ∈ insertPending a l) : f = a ∨ f ∈ l := by
  induction l with
  | nil => simpa [insertPending] using h
  | cons b l ih =>
    simp only [insertPending] at h
    split at h
    · simpa using h
    · rcases List.mem_cons.1 h with h | h
      · exact Or.inr (by simp [h])
      · rcases ih h with h | h
        · exact Or.inl h
        · exact Or.inr (by simp [h])

/-- Ordering the shadow adds no entry. -/
theorem sortPending_mem {f : Pending} {l : List Pending} (h : f ∈ sortPending l) : f ∈ l := by
  induction l with
  | nil => exact h
  | cons a l ih =>
    rcases insertPending_mem h with rfl | h
    · exact List.mem_cons_self ..
    · exact List.mem_cons_of_mem _ (ih h)

/-- Of entries issued together by one slot, the ones due next stand first and in order. -/
theorem sortPending_together (m n sl : Nat) (es : List Pending)
    (h : ∀ e ∈ es, e.issued = m ∧ e.slot = sl ∧ n ≤ e.due) :
    sortPending es = es.filter (fun e => decide (e.due ≤ n)) ++ sortPending (es.filter fun e => !decide (e.due ≤ n)) := by
  have hb : ∀ (e : Pending), e.issued = m → e.slot = sl → n ≤ e.due → ¬ e.due ≤ n → ∀ (ds rs : List Pending),
      (∀ d ∈ ds, d.due ≤ n) → insertPending e (ds ++ rs) = ds ++ insertPending e rs := by
    intro e h1 h2 h3 h4 ds rs hd
    induction ds with
    | nil => rfl
    | cons d ds ih =>
      have := hd d (List.mem_cons_self ..)
      have hnb : e.before d = false := by
        simp [Pending.before]
        omega
      simp only [List.cons_append, insertPending, hnb]
      rw [ih fun x hx => hd x (List.mem_cons_of_mem _ hx)]
      simp
  induction es with
  | nil => rfl
  | cons e es ih =>
    obtain ⟨h1, h2, h3⟩ := h e (List.mem_cons_self ..)
    have ih := ih fun f hf => h f (List.mem_cons_of_mem _ hf)
    have hall : ∀ f ∈ sortPending es, f.issued = m ∧ f.slot = sl ∧ n ≤ f.due := fun f hf =>
      h f (List.mem_cons_of_mem _ (sortPending_mem hf))
    by_cases hd : e.due ≤ n
    · have hfirst : ∀ l : List Pending, (∀ f ∈ l, f.issued = m ∧ f.slot = sl ∧ n ≤ f.due) → insertPending e l = e :: l := by
        intro l hl
        cases l with
        | nil => rfl
        | cons f l =>
          obtain ⟨g1, g2, g3⟩ := hl f (List.mem_cons_self ..)
          have : e.before f = true := by
            simp only [Pending.before, Bool.or_eq_true, Bool.and_eq_true, decide_eq_true_eq, beq_iff_eq]
            omega
          simp [insertPending, this]
      simp only [sortPending]
      rw [hfirst _ hall, ih]
      simp [hd]
    · simp only [sortPending]
      rw [ih]
      simp only [hd, decide_false, Bool.not_false, List.filter_cons_of_pos, Bool.false_eq_true, not_false_eq_true,
        List.filter_cons_of_neg, sortPending]
      exact hb e h1 h2 h3 hd _ _ fun d hm => by simpa using (List.mem_filter.1 hm).2

/-- A shadow that one bundle has filled, settled at the next bundle: what is due is written, then its flags are set, and the
rest stays. -/
theorem settle_together (lv m n sl : Nat) (k : Ctx)
    (h : ∀ e ∈ k.run.shadow, e.level = lv ∧ e.issued = m ∧ e.slot = sl ∧ n ≤ e.due) :
    settle lv (some n) k =
      let due := k.run.shadow.filter fun e => decide (e.due ≤ n)
      let k1 := due.foldl (fun t e => t.setFlags e.raised) (due.foldl (fun t e => applyDest e.dest e.value t) k)
      { k1 with run := { k1.run with shadow := sortPending (k.run.shadow.filter fun e => !decide (e.due ≤ n)) } } := by
  have h1 : (k.run.shadow.filter fun e => e.level == lv) = k.run.shadow := by
    rw [List.filter_eq_self]
    intro e he
    simp [(h e he).1]
  have h2 : (k.run.shadow.filter fun e => e.level != lv) = [] := by
    rw [List.filter_eq_nil_iff]
    intro e he
    simp [(h e he).1]
  have hs := sortPending_together m n sl k.run.shadow fun e he => (h e he).2
  have hd : ((sortPending k.run.shadow).filter fun e => decide (e.due ≤ n)) =
      k.run.shadow.filter fun e => decide (e.due ≤ n) := by
    rw [hs, List.filter_append, List.filter_filter]
    have : ((sortPending (k.run.shadow.filter fun e => !decide (e.due ≤ n))).filter fun e => decide (e.due ≤ n)) = [] := by
      rw [List.filter_eq_nil_iff]
      intro e he
      have := sortPending_mem he
      simpa using (List.mem_filter.1 this).2
    rw [this]
    simp
  have hi : ∀ e ∈ sortPending k.run.shadow, e.issued = m := fun e he => (h e (sortPending_mem he)).2.1
  simp only [settle, h1, h2, hd, List.nil_append]
  rw [writeEntries_together m _ _ _ hi, hs]
  simp

/-! ### What a lone bundle leaves in its context -/

/-- What a result writes to the registers depends on the registers alone. -/
theorem applyDest_regs (d : Dest) (v : Nat) {k l : Ctx} (h : k.regs = l.regs) :
    (applyDest d v k).regs = (applyDest d v l).regs := by
  unfold applyDest
  cases d <;> simp only [h] <;> (try split) <;> simp_all

/-- The same of several results. -/
theorem written_regs (rs : List Res) {k l : Ctx} (h : k.regs = l.regs) : (written rs k).regs = (written rs l).regs := by
  induction rs generalizing k l with
  | nil => exact h
  | cons x rs ih => exact ih (applyDest_regs _ _ h)

/-- No flag set leaves the registers alone. -/
@[simp] theorem setFlags_none (k : Ctx) : k.setFlags {} = k := by simp [Ctx.setFlags, deliver]

/-- The same, the empty set of flags written out. -/
@[simp] theorem setFlags_zero (k : Ctx) : k.setFlags { sticky := 0#32 } = k := setFlags_none k

/-- What flags do to the registers depends on the registers alone. -/
theorem setFlags_regs (f : Raised) {k l : Ctx} (h : k.regs = l.regs) : (k.setFlags f).regs = (l.setFlags f).regs := by
  simp only [Ctx.setFlags, h]

/-- No flags in several entries leave the context alone. -/
theorem foldFlags_none (l : List Pending) (k : Ctx) (h : ∀ e ∈ l, e.raised = {}) :
    l.foldl (fun t e => t.setFlags e.raised) k = k := by
  induction l generalizing k with
  | nil => rfl
  | cons e l ih =>
    rw [List.foldl_cons, h e (List.mem_cons_self ..), setFlags_none]
    exact ih _ fun f hf => h f (List.mem_cons_of_mem _ hf)

/-- The shadow entries of a lone bundle. -/
theorem entriesOf_lone (lv m : Nat) (w : W32) (e : Eff) :
    entriesOf lv m [w] [e] =
      (e.results.map fun (x : Res) =>
        ({ level := lv, due := m + x.lat, issued := m, slot := slotOf w, dest := x.dest, value := x.value } : Pending)) ++
      (if e.raised = {} then [] else
        [{ level := lv, due := m + e.rlat, issued := m, slot := slotOf w, dest := .flags, value := 0, raised := e.raised }]) := by
  simp [entriesOf]

/-- Every entry of a lone bundle is its own, and is due after it. -/
theorem entriesOf_lone_own {lv m : Nat} {w : W32} {e : Eff} (h1 : ∀ x ∈ e.results, 1 ≤ x.lat) (h2 : 1 ≤ e.rlat) :
    ∀ f ∈ entriesOf lv m [w] [e], f.level = lv ∧ f.issued = m ∧ f.slot = slotOf w ∧ m + 1 ≤ f.due := by
  rw [entriesOf_lone]
  intro f hf
  rcases List.mem_append.1 hf with hf | hf
  · obtain ⟨x, hx, rfl⟩ := List.mem_map.1 hf
    have := h1 x hx
    exact ⟨rfl, rfl, rfl, by show m + 1 ≤ m + x.lat; omega⟩
  · split at hf
    · simp at hf
    · simp only [List.mem_singleton] at hf
      subst hf
      exact ⟨rfl, rfl, rfl, by show m + 1 ≤ m + e.rlat; omega⟩

/-- What a fold of `applyDest` over the entries of one bundle writes. -/
theorem foldl_applyDest_regs (es : List Pending) {k l : Ctx} (h : k.regs = l.regs) :
    (es.foldl (fun t e => applyDest e.dest e.value t) k).regs = (es.foldl (fun t e => applyDest e.dest e.value t) l).regs := by
  induction es generalizing k l with
  | nil => exact h
  | cons x es ih => exact ih (applyDest_regs _ _ h)

/-- The registers after flags depend on the registers and the flags alone. -/
theorem foldFlags_regs (es : List Pending) {k l : Ctx} (h : k.regs = l.regs) :
    (es.foldl (fun t e => t.setFlags e.raised) k).regs = (es.foldl (fun t e => t.setFlags e.raised) l).regs := by
  induction es generalizing k l with
  | nil => exact h
  | cons x es ih => exact ih (by simp [Ctx.setFlags, h])

/-- The entries that a lone bundle leaves due at the next bundle: its results of latency 1 are written and its flags of
latency 1 are set. -/
theorem due_lone (lv m : Nat) (w : W32) (e : Eff) (k : Ctx) (h2 : 1 ≤ e.rlat) :
    (((entriesOf lv m [w] [e]).filter fun f => decide (f.due ≤ m + 1)).foldl (fun t f => t.setFlags f.raised)
      (((entriesOf lv m [w] [e]).filter fun f => decide (f.due ≤ m + 1)).foldl (fun t f => applyDest f.dest f.value t) k)) =
    (written (e.results.filter fun x => decide (x.lat ≤ 1)) k).setFlags (if e.rlat ≤ 1 then e.raised else {}) := by
  rw [entriesOf_lone, List.filter_append, List.foldl_append, List.foldl_append]
  have hr : ∀ (rs : List Res) (k : Ctx),
      (((rs.map fun (x : Res) =>
        ({ level := lv, due := m + x.lat, issued := m, slot := slotOf w, dest := x.dest, value := x.value } : Pending)).filter
          fun f => decide (f.due ≤ m + 1)).foldl (fun t f => applyDest f.dest f.value t) k) =
      written (rs.filter fun x => decide (x.lat ≤ 1)) k := by
    intro rs
    induction rs with
    | nil => intro k; rfl
    | cons x rs ih =>
      intro k
      by_cases hx : x.lat ≤ 1
      · have : m + x.lat ≤ m + 1 := by omega
        simp only [List.map_cons, List.filter_cons, this, hx, decide_true, if_true, List.foldl_cons, written]
        exact ih _
      · have : ¬ m + x.lat ≤ m + 1 := by omega
        simp only [List.map_cons, List.filter_cons, this, hx, decide_false]
        exact ih k
  have hn : ∀ (rs : List Res) (k : Ctx),
      (((rs.map fun (x : Res) =>
        ({ level := lv, due := m + x.lat, issued := m, slot := slotOf w, dest := x.dest, value := x.value } : Pending)).filter
          fun f => decide (f.due ≤ m + 1)).foldl (fun t f => t.setFlags f.raised) k) = k := by
    intro rs k
    apply foldFlags_none
    intro f hf
    obtain ⟨x, -, rfl⟩ := List.mem_map.1 (List.mem_filter.1 hf).1
    rfl
  rw [hr, hn]
  split
  · rename_i h
    simp [h]
  · by_cases hl : e.rlat ≤ 1
    · have : m + e.rlat ≤ m + 1 := by omega
      simp [this, hl, applyDest]
    · have : ¬ m + e.rlat ≤ m + 1 := by omega
      simp [this, hl]

/-- The registers and the shadow that a bundle of one syllable leaves, where the shadow was empty. -/
theorem finishCtx_regs (v : View) (x : Reed) (w : W32) (e : Eff) (ctl : Ctl) (ch : Choice) (k : Ctx) (hx : x.latch = [w])
    (hk : k.run.shadow = []) (h1 : ∀ x ∈ e.results, 1 ≤ x.lat) (h2 : 1 ≤ e.rlat) (h3 : ctl ≠ .tend)
    (h4 : ∀ a b, ctl ≠ .rfe a b) :
    (finishCtx v x [e] ctl ch k).regs =
        ((written (e.results.filter fun x => decide (x.lat ≤ 1)) k).setFlags (if e.rlat ≤ 1 then e.raised else {})).regs ∧
      (finishCtx v x [e] ctl ch k).run.shadow =
        sortPending ((entriesOf v.q.level (v.q.countAt v.q.level) [w] [e]).filter
          fun f => !decide (f.due ≤ v.q.countAt v.q.level + 1)) := by
  generalize hlv : v.q.level = lv
  generalize hm : v.q.countAt lv = m
  have hown := entriesOf_lone_own (lv := lv) (m := m) (w := w) h1 h2
  let k1 : Ctx := { k with run := { k.run with
    loops := ch.loops, shadow := entriesOf lv m [w] [e], counts := Tab.set k.run.counts lv (m + 1)
    staging := (([e].filterMap (·.staging)).getLast?).getD k.run.staging, persCheck := false, rep := ch.rep } }
  have hs := settle_together lv m (m + 1) (slotOf w) k1 hown
  have hr : (settle lv (some (m + 1)) k1).regs =
      ((written (e.results.filter fun x => decide (x.lat ≤ 1)) k).setFlags (if e.rlat ≤ 1 then e.raised else {})).regs := by
    rw [hs]
    exact (congrArg Ctx.regs (due_lone lv m w e k1 h2)).trans
      (setFlags_regs _ (written_regs _ (show k1.regs = k.regs from rfl)))
  have hsh : (settle lv (some (m + 1)) k1).run.shadow =
      sortPending ((entriesOf lv m [w] [e]).filter fun f => !decide (f.due ≤ m + 1)) := by rw [hs]
  have ek : ({ k with run := { k.run with
      loops := ch.loops, shadow := k.run.shadow ++ entriesOf v.q.level (v.q.countAt v.q.level) x.latch [e]
      counts := Tab.set k.run.counts v.q.level (v.q.countAt v.q.level + 1)
      staging := (([e].filterMap (·.staging)).getLast?).getD k.run.staging, persCheck := false, rep := ch.rep } } : Ctx) =
      k1 := by
    rw [hlv, hm, hx, hk, List.nil_append]
  unfold finishCtx
  extract_lets lv' cnt' q' st' k1' k2' k3'
  have e2 : k2' = settle lv (some (m + 1)) k1 := by
    rw [← ek, ← hm, ← hlv]
  have hr2 : k2'.regs = _ := e2 ▸ hr
  have hsh2 : k2'.run.shadow = _ := e2 ▸ hsh
  clear_value k2'
  cases ctl <;> first | (exact absurd rfl h3) | (exact absurd rfl (h4 _ _)) | exact ⟨hr2, hsh2⟩

/-- The registers and the shadow of the context after a lone bundle. -/
theorem loneDone_regs {r c : Nat} {w : W32} {s : State} (h : Ready r c s) (h1 : ∀ x ∈ (loneEff r c w s).results, 1 ≤ x.lat)
    (h2 : 1 ≤ (loneEff r c w s).rlat) (h3 : (loneEff r c w s).ctl ≠ .tend) (h4 : ∀ a b, (loneEff r c w s).ctl ≠ .rfe a b) :
    (loneDone r c w s).regs =
        ((written ((loneEff r c w s).results.filter fun x => decide (x.lat ≤ 1)) (ctxAt s r c)).setFlags
          (if (loneEff r c w s).rlat ≤ 1 then (loneEff r c w s).raised else {})).regs ∧
      (loneDone r c w s).run.shadow =
        sortPending ((entriesOf (ctxAt s r c).run.level ((ctxAt s r c).run.countAt (ctxAt s r c).run.level) [w]
          [loneEff r c w s]).filter
          fun e => !decide (e.due ≤ (ctxAt s r c).run.countAt (ctxAt s r c).run.level + 1)) := by
  have hv : (loneView r c w s).q = (ctxAt s r c).run := by simp [loneView, viewOf, reedOf_fetched, ctxAt, Reed.ctxOf]
  have hl : (reedOf (fetched r w s) r).latch = [w] := by simp [reedOf_fetched]
  have := finishCtx_regs (loneView r c w s) (reedOf (fetched r w s) r) w (loneEff r c w s) (loneEff r c w s).ctl
    (choose (loneView r c w s) (reedOf (fetched r w s) r) (loneEff r c w s).ctl) (ctxAt s r c) hl h.noResult h1 h2 h3 h4
  rw [hv] at this
  exact this

end Sys2Proof.Machine
end

