-- ==== Sys2Proof/Laws/Lone.lean ====
section
/-! SUPPORT. Sys2Proof/Laws/Lone.lean: a bundle of one syllable that completes without a control transfer: what it leaves in
its context, and that it changes nothing else. -/

namespace Sys2Proof.Machine

/-! ### What results do to the parts of a context -/

/-- A result written changes of the run state only the loops. -/
theorem applyDest_run (d : Dest) (v : Nat) (k : Ctx) : ∃ l, (applyDest d v k).run = { k.run with loops := l } := by
  unfold applyDest
  cases d <;> simp only [] <;> (try split) <;> exact ⟨_, rfl⟩
/-- The same of several results. -/
theorem written_run (rs : List Res) (k : Ctx) : ∃ l, (written rs k).run = { k.run with loops := l } := by
  induction rs generalizing k with
  | nil => exact ⟨_, rfl⟩
  | cons x rs ih =>
    obtain ⟨l1, h1⟩ := applyDest_run x.dest x.value k
    obtain ⟨l2, h2⟩ := ih (applyDest x.dest x.value k)
    exact ⟨l2, by rw [show written (x :: rs) k = written rs (applyDest x.dest x.value k) from rfl, h2, h1]⟩
/-- What a result does to the RED-page registers depends on them alone. -/
theorem applyDest_page (d : Dest) (v : Nat) {k l : Ctx} (h : k.page = l.page) :
    (applyDest d v k).page = (applyDest d v l).page := by
  unfold applyDest
  cases d <;> simp only [h] <;> (try split) <;> simp_all
/-- The same of several results. -/
theorem written_page (rs : List Res) {k l : Ctx} (h : k.page = l.page) : (written rs k).page = (written rs l).page := by
  induction rs generalizing k l with
  | nil => exact h
  | cons x rs ih => exact ih (applyDest_page _ _ h)
/-- What a result does to the loops depends on them alone. -/
theorem applyDest_loops (d : Dest) (v : Nat) {k l : Ctx} (h : k.run.loops = l.run.loops) :
    (applyDest d v k).run.loops = (applyDest d v l).run.loops := by
  unfold applyDest
  cases d <;> simp only [h] <;> (try split) <;> simp_all
/-- The same of several results. -/
theorem written_loops (rs : List Res) {k l : Ctx} (h : k.run.loops = l.run.loops) :
    (written rs k).run.loops = (written rs l).run.loops := by
  induction rs generalizing k l with
  | nil => exact h
  | cons x rs ih => exact ih (applyDest_loops _ _ h)
/-- A result other than CTXCFG leaves the RED-page registers alone. -/
theorem applyDest_page_same (d : Dest) (v : Nat) (k : Ctx) (h : d ≠ .cfg) : (applyDest d v k).page = k.page := by
  unfold applyDest
  cases d <;> first | (exact absurd rfl h) | (simp only [] <;> (try split) <;> rfl)
/-- The same of several results. -/
theorem written_page_same (rs : List Res) (k : Ctx) (h : ∀ x ∈ rs, x.dest ≠ .cfg) : (written rs k).page = k.page := by
  induction rs generalizing k with
  | nil => rfl
  | cons x rs ih =>
    exact (ih _ fun y hy => h y (List.mem_cons_of_mem _ hy)).trans (applyDest_page_same _ _ _ (h x (List.mem_cons_self ..)))
/-- A result written leaves the image mark alone. -/
theorem applyDest_image (d : Dest) (v : Nat) (k : Ctx) : (applyDest d v k).image = k.image := by
  unfold applyDest
  cases d <;> simp only [] <;> (try split) <;> rfl
/-- The same of several results. -/
theorem written_image (rs : List Res) (k : Ctx) : (written rs k).image = k.image := by
  induction rs generalizing k with
  | nil => rfl
  | cons x rs ih => exact (ih _).trans (applyDest_image _ _ _)

/-- Flags leave the run state alone. -/
@[simp] theorem setFlags_run (f : Raised) (k : Ctx) : (k.setFlags f).run = k.run := rfl
/-- Flags leave the RED-page registers alone. -/
@[simp] theorem setFlags_page (f : Raised) (k : Ctx) : (k.setFlags f).page = k.page := rfl
/-- Flags leave the image mark alone. -/
@[simp] theorem setFlags_image (f : Raised) (k : Ctx) : (k.setFlags f).image = k.image := rfl

/-! ### The view of a lone bundle -/

/-- The registers a lone bundle reads. -/
@[simp] theorem loneView_g (r c : Nat) (w : W32) (s : State) : (loneView r c w s).g = (ctxAt s r c).regs := by
  simp [loneView, viewOf, reedOf_fetched, ctxAt, Reed.ctxOf]
/-- The run state a lone bundle reads. -/
@[simp] theorem loneView_q (r c : Nat) (w : W32) (s : State) : (loneView r c w s).q = (ctxAt s r c).run := by
  simp [loneView, viewOf, reedOf_fetched, ctxAt, Reed.ctxOf]
/-- The RED-page registers a lone bundle reads. -/
@[simp] theorem loneView_page (r c : Nat) (w : W32) (s : State) : (loneView r c w s).page = (ctxAt s r c).page := by
  simp [loneView, viewOf, reedOf_fetched, ctxAt, Reed.ctxOf]
/-- The address of a lone bundle. -/
@[simp] theorem loneView_pc (r c : Nat) (w : W32) (s : State) : (loneView r c w s).pc = (ctxAt s r c).run.pc := by
  simp [loneView, viewOf, reedOf_fetched, ctxAt, Reed.ctxOf]
/-- The next sequential bundle. -/
@[simp] theorem loneView_nxt (r c : Nat) (w : W32) (s : State) : (loneView r c w s).nxt = (ctxAt s r c).run.pc + 1 := by
  simp [loneView, viewOf, reedOf_fetched, ctxAt, Reed.ctxOf]
/-- The state of the device. -/
@[simp] theorem loneView_s (r c : Nat) (w : W32) (s : State) : (loneView r c w s).s = fetched r w s := rfl
/-- The reed. -/
@[simp] theorem loneView_r (r c : Nat) (w : W32) (s : State) : (loneView r c w s).r = r := rfl
/-- The context. -/
@[simp] theorem loneView_c (r c : Nat) (w : W32) (s : State) : (loneView r c w s).c = c := rfl
/-- No far data have arrived. -/
@[simp] theorem loneView_far (r c : Nat) (w : W32) (s : State) : (loneView r c w s).farData = none := rfl

/-- A fetch leaves what addresses name alone. -/
@[simp] theorem placeOf_fetched (r q a : Nat) (w : W32) (s : State) : placeOf (fetched r w s) q a = placeOf s q a := rfl
/-- A fetch leaves the errors of memory alone. -/
@[simp] theorem placeBad_fetched (r : Nat) (w : W32) (s : State) (pl : Place) : placeBad (fetched r w s) pl = placeBad s pl := rfl
/-- A fetch leaves the bytes of memory alone. -/
@[simp] theorem byteAt_fetched (r q a : Nat) (w : W32) (s : State) : byteAt (fetched r w s) q a = byteAt s q a := rfl
/-- A fetch leaves the values in memory alone. -/
@[simp] theorem bytesAt_fetched (r q a n : Nat) (w : W32) (s : State) : bytesAt (fetched r w s) q a n = bytesAt s q a n := by
  induction n generalizing a with
  | zero => rfl
  | succ n ih => simp only [bytesAt, byteAt_fetched, ih]
/-- A fetch leaves the first error of a range alone. -/
@[simp] theorem firstBad_fetched (r q : Nat) (w : W32) (s : State) (l : List Nat) :
    firstBad (fetched r w s) q l = firstBad s q l := rfl
/-- A fetch leaves the parcel check alone. -/
@[simp] theorem parcelCheck_fetched (r q : Nat) (w : W32) (s : State) (g : Regs) (pn : Nat) (d : W128) (off : Int) (n : Nat)
    (kd : AccKind) : parcelCheck (fetched r w s) q g pn d off n kd = parcelCheck s q g pn d off n kd := rfl
/-- A fetch leaves the index check alone. -/
@[simp] theorem indexCheck_fetched (r q : Nat) (w : W32) (s : State) (g : Regs) (pn off n : Nat) (kd : AccKind) :
    indexCheck (fetched r w s) q g pn off n kd = indexCheck s q g pn off n kd := rfl
/-- A fetch leaves the check of an S-slot access alone. -/
@[simp] theorem accessCheck_fetched (r q : Nat) (w u : W32) (s : State) (g : Regs) (n : Nat) (kd : AccKind) :
    accessCheck (fetched r w s) q g u n kd = accessCheck s q g u n kd := rfl
/-- A fetch leaves the gate words alone. -/
@[simp] theorem gateEmpty_fetched (r : Nat) (w : W32) (s : State) (pl : Place) :
    gateEmpty (fetched r w s) pl = gateEmpty s pl := rfl

/-- What the syllable does, its operation known. -/
theorem loneEff_op {r c : Nat} {w : W32} {s : State} {o : SylOp} (h : Lone r c w s) (ho : decodeOp w = some o) :
    loneEff r c w s = evalOp (loneView r c w s) o w := by
  have := h.guard
  simp [loneEff, evalSyl, ho, this]

/-! ### A quiet lone bundle -/

/-- The syllable raises no exception, waits for nothing, stores nothing and transfers no control. -/
structure Quiet (r c : Nat) (w : W32) (s : State) : Prop where
  /-- a Q register it reads is valid -/
  q : ∀ n, (loneEff r c w s).readsQ = some n → bitOf (ctxAt s r c).run.qValid n = true
  /-- no exception -/
  exc : (loneEff r c w s).exc = none
  /-- no far access -/
  far : (loneEff r c w s).far = none
  /-- no far store of a long vector -/
  longFar : (loneEff r c w s).longFar = []
  /-- no token gate -/
  gate : ∀ a ∈ (loneEff r c w s).gateReads, gateEmpty (fetched r w s) (placeOf (fetched r w s) r a) = false
  /-- no long operation -/
  issue : (loneEff r c w s).issue = none
  /-- no control transfer -/
  ctl : (loneEff r c w s).ctl = .none
  /-- every result is due after it -/
  lat : ∀ x ∈ (loneEff r c w s).results, 1 ≤ x.lat
  /-- its flags too -/
  rlat : 1 ≤ (loneEff r c w s).rlat

/-- What a quiet lone bundle leaves in its context: its results of latency 1 and its flags of latency 1 are in the registers,
the others await their beat. -/
structure LoneCtx (r c : Nat) (w : W32) (s : State) (k : Ctx) : Prop where
  /-- the registers -/
  regs : k.regs = ((written ((loneEff r c w s).results.filter fun x => decide (x.lat ≤ 1)) (ctxAt s r c)).setFlags
    (if (loneEff r c w s).rlat ≤ 1 then (loneEff r c w s).raised else {})).regs
  /-- the RED-page registers -/
  page : k.page = (written ((loneEff r c w s).results.filter fun x => decide (x.lat ≤ 1)) (ctxAt s r c)).page
  /-- the image mark -/
  image : k.image = (ctxAt s r c).image
  /-- the shadow -/
  shadow : k.run.shadow = sortPending ((entriesOf (ctxAt s r c).run.level
    ((ctxAt s r c).run.countAt (ctxAt s r c).run.level) [w] [loneEff r c w s]).filter
      fun e => !decide (e.due ≤ (ctxAt s r c).run.countAt (ctxAt s r c).run.level + 1))
  /-- the parts of the run state it leaves alone -/
  slots : k.run.slots = (ctxAt s r c).run.slots
  /-- RSP -/
  rsp : k.run.rsp = (ctxAt s r c).run.rsp
  /-- D -/
  depth : k.run.depth = (ctxAt s r c).run.depth
  /-- the frames -/
  frames : k.run.frames = (ctxAt s r c).run.frames
  /-- the Q registers -/
  q : k.run.q = (ctxAt s r c).run.q
  /-- their tags -/
  qValid : k.run.qValid = (ctxAt s r c).run.qValid
  /-- the held traps -/
  held : k.run.held = (ctxAt s r c).run.held
  /-- the WPD staging register -/
  staging : k.run.staging = ((loneEff r c w s).staging).getD (ctxAt s r c).run.staging
  /-- the loops: the results written after the loop-close test -/
  loops : k.run.loops = (written ((loneEff r c w s).results.filter fun x => decide (x.lat ≤ 1))
    { ctxAt s r c with run := { (ctxAt s r c).run with
      loops := (closeLoops (ctxAt s r c).run.loops (ctxAt s r c).run.pc (ctxAt s r c).run.loops.order).1 } }).run.loops
  /-- the bundle count -/
  counts : k.run.counts = Tab.set (ctxAt s r c).run.counts (ctxAt s r c).run.level
    ((ctxAt s r c).run.countAt (ctxAt s r c).run.level + 1)
  /-- the next bundle: the loop's start where a loop continues, else the next in sequence -/
  pc : k.run.pc = match (closeLoops (ctxAt s r c).run.loops (ctxAt s r c).run.pc (ctxAt s r c).run.loops.order).2.1 with
    | some n => (closeLoops (ctxAt s r c).run.loops (ctxAt s r c).run.pc (ctxAt s r c).run.loops.order).1.ls n
    | none => (ctxAt s r c).run.pc + 1

/-- The shadow of a lone bundle, settled. -/
theorem settle_lone (lv m : Nat) (w : W32) (e : Eff) (k : Ctx) (hk : k.run.shadow = entriesOf lv m [w] [e])
    (h1 : ∀ x ∈ e.results, 1 ≤ x.lat) (h2 : 1 ≤ e.rlat) :
    settle lv (some (m + 1)) k =
      let kd := (written (e.results.filter fun x => decide (x.lat ≤ 1)) k).setFlags (if e.rlat ≤ 1 then e.raised else {})
      { kd with run := { kd.run with
          shadow := sortPending ((entriesOf lv m [w] [e]).filter fun f => !decide (f.due ≤ m + 1)) } } := by
  have := settle_together lv m (m + 1) (slotOf w) k (hk ▸ entriesOf_lone_own h1 h2)
  rw [this, hk]
  simp only [due_lone lv m w e k h2]

/-- The next bundle of one that transfers no control (R149, R154). -/
theorem choose_none (v : View) (x : Reed) (h : v.q.rep = none) :
    choose v x .none =
      { loops := (closeLoops v.q.loops v.pc v.q.loops.order).1
        cont := (closeLoops v.q.loops v.pc v.q.loops.order).2.1
        exits := (closeLoops v.q.loops v.pc v.q.loops.order).2.2
        next := match (closeLoops v.q.loops v.pc v.q.loops.order).2.1 with
          | some n => (closeLoops v.q.loops v.pc v.q.loops.order).1.ls n
          | none => v.nxt
        rep := none, again := false } := by
  unfold choose
  rw [h]
  rfl

/-- The last staging register written, of one syllable. -/
theorem staging_lone (e : Eff) (st : W128) : ((([e] : List Eff).filterMap (·.staging)).getLast?).getD st = e.staging.getD st := by
  cases h : e.staging <;> simp [h]

/-- The context's side of a lone bundle that transfers no control. -/
theorem finishCtx_none (v : View) (x : Reed) (w : W32) (e : Eff) (ch : Choice) (k : Ctx) (hx : x.latch = [w])
    (hk : k.run.shadow = []) :
    finishCtx v x [e] .none ch k =
      let k2 := settle v.q.level (some (v.q.countAt v.q.level + 1)) { k with run := { k.run with
        loops := ch.loops, shadow := entriesOf v.q.level (v.q.countAt v.q.level) [w] [e]
        counts := Tab.set k.run.counts v.q.level (v.q.countAt v.q.level + 1)
        staging := e.staging.getD k.run.staging, persCheck := false, rep := ch.rep } }
      { k2 with run := { k2.run with pc := ch.next } } := by
  unfold finishCtx
  simp only [hx, hk, List.nil_append, staging_lone]

/-- The context that a quiet lone bundle leaves. -/
theorem loneDone_quiet {r c : Nat} {w : W32} {s : State} (h : Ready r c s) (q : Quiet r c w s) (hh : Sched) :
    LoneCtx r c w s { loneDone r c w s with sched := hh } := by
  obtain ⟨hr, hs⟩ := loneDone_regs h q.lat q.rlat (by rw [q.ctl]; simp) (by rw [q.ctl]; simp)
  have hl : (reedOf (fetched r w s) r).latch = [w] := by simp [reedOf_fetched]
  have hch := choose_none (loneView r c w s) (reedOf (fetched r w s) r) (by rw [loneView_q]; exact h.noRep)
  rw [loneView_q, loneView_pc, loneView_nxt] at hch
  generalize hcl : closeLoops (ctxAt s r c).run.loops (ctxAt s r c).run.pc (ctxAt s r c).run.loops.order = cl at hch
  have hd : ∃ k1 k2 : Ctx, k1 = { ctxAt s r c with run := { (ctxAt s r c).run with
        loops := cl.1
        shadow := entriesOf (ctxAt s r c).run.level ((ctxAt s r c).run.countAt (ctxAt s r c).run.level) [w] [loneEff r c w s]
        counts := Tab.set (ctxAt s r c).run.counts (ctxAt s r c).run.level
          ((ctxAt s r c).run.countAt (ctxAt s r c).run.level + 1)
        staging := ((loneEff r c w s).staging).getD (ctxAt s r c).run.staging, persCheck := false, rep := none } } ∧
      k2 = settle (ctxAt s r c).run.level (some ((ctxAt s r c).run.countAt (ctxAt s r c).run.level + 1)) k1 ∧
      loneDone r c w s = { k2 with run := { k2.run with pc := match cl.2.1 with
          | some n => cl.1.ls n
          | none => (ctxAt s r c).run.pc + 1 } } := by
    refine ⟨_, _, rfl, rfl, ?_⟩
    have hld : loneDone r c w s = finishCtx (loneView r c w s) (reedOf (fetched r w s) r) [loneEff r c w s]
        (loneEff r c w s).ctl (choose (loneView r c w s) (reedOf (fetched r w s) r) (loneEff r c w s).ctl) (ctxAt s r c) := rfl
    rw [hld, q.ctl, hch, finishCtx_none _ _ w _ _ _ hl h.noResult, loneView_q]
  obtain ⟨k1, k2, ek, ek2, hd⟩ := hd
  have hk1 := settle_lone (ctxAt s r c).run.level ((ctxAt s r c).run.countAt (ctxAt s r c).run.level) w (loneEff r c w s) k1
    (by subst ek; rfl) q.lat q.rlat
  obtain ⟨l, hw⟩ := written_run ((loneEff r c w s).results.filter fun x => decide (x.lat ≤ 1)) k1
  have hloops : l = (written ((loneEff r c w s).results.filter fun x => decide (x.lat ≤ 1)) k1).run.loops := by rw [hw]
  have hpg := written_page ((loneEff r c w s).results.filter fun x => decide (x.lat ≤ 1))
    (show k1.page = (ctxAt s r c).page by subst ek; rfl)
  have him := written_image ((loneEff r c w s).results.filter fun x => decide (x.lat ≤ 1)) k1
  rw [hk1] at ek2
  subst ek2
  refine ⟨hr, ?_, ?_, hs, ?_, ?_, ?_, ?_, ?_, ?_, ?_, ?_, ?_, ?_, ?_⟩
  all_goals simp only [hd, setFlags_run, setFlags_page, setFlags_image, hw, hpg, him]
  all_goals (try (subst ek; rfl))
  · rw [hloops]
    exact written_loops _ (by subst ek hcl; rfl)
  · rw [hcl]

/-- A quiet lone bundle completes: its stores are made, and of the reed only its context changes. -/
theorem exec_quiet {i : Instr} {o : SylOp} {r c : Nat} {w : W32} {s : State} (hi : i.syllable = some (some o, r, w))
    (hw : i.wellFormed = true) (h : Lone r c w s) (q : Quiet r c w s) :
    ∃ X : Reed, exec i s = .next (afterLocalStore r (loneEff r c w s).store
        (deviceWrite (placed (fetched r w s) r (loneEff r c w s).store) (setReed r X s))) ∧
      (∀ d, d ≠ c → X.ctxOf d = ctxAt s r d) ∧ LoneCtx r c w s (X.ctxOf c) ∧ X.stations = [] ∧
      X.stores = (reedOf s r).stores ∧ X.page.tk = (reedOf s r).page.tk := by
  obtain ⟨X, h1, h2, ⟨hh, h3⟩, h4, h5, h6⟩ := completeBundle_lone h q.q q.issue q.far q.longFar (by rw [q.ctl]; simp)
    (by rw [q.ctl]; simp) (by rw [q.ctl]; simp)
  refine ⟨X, ?_, h2, h3 ▸ loneDone_quiet h.ready q hh, h4, h5, h6⟩
  rw [exec_lone hi hw h, tryIssue_lone h q.q q.exc q.far q.gate, h1]

/-- A quiet lone bundle that stores nothing changes nothing but its context. -/
theorem exec_pure {i : Instr} {o : SylOp} {r c : Nat} {w : W32} {s : State} (hi : i.syllable = some (some o, r, w))
    (hw : i.wellFormed = true) (h : Lone r c w s) (q : Quiet r c w s) (hs : (loneEff r c w s).store = []) :
    ∃ t, exec i s = .next t ∧ OnlyCtx r c s t ∧ LoneCtx r c w s (ctxAt t r c) := by
  obtain ⟨X, h1, h2, h3, -⟩ := exec_quiet hi hw h q
  refine ⟨setReed r X s, ?_, ⟨?_, ?_⟩, ?_⟩
  · rw [h1, hs]
    rfl
  · simp [OnlyReed]
  · intro d hd
    simpa [ctxAt] using h2 d hd
  · simpa [ctxAt] using h3

/-- What a quiet lone bundle without a CTXCFG result keeps. -/
theorem LoneCtx.keeps {r c : Nat} {w : W32} {s : State} {k : Ctx} (h : LoneCtx r c w s k)
    (hd : ∀ x ∈ (loneEff r c w s).results, x.dest ≠ .cfg) : KeepsFlow (ctxAt s r c) k :=
  ⟨h.page.trans (written_page_same _ _ fun x hx => hd x (List.mem_filter.1 hx).1), h.image, h.slots, h.rsp, h.depth,
    h.frames, h.q, h.qValid, h.held⟩

/-- Inserting keeps every entry. -/
theorem mem_insertPending {a f : Pending} {l : List Pending} (h : f = a ∨ f ∈ l) : f ∈ insertPending a l := by
  induction l with
  | nil => simpa [insertPending] using h
  | cons b l ih =>
    simp only [insertPending]
    split
    · simpa using h
    · rcases h with h | h
      · exact List.mem_cons_of_mem _ (ih (Or.inl h))
      · rcases List.mem_cons.1 h with h | h
        · exact h ▸ List.mem_cons_self ..
        · exact List.mem_cons_of_mem _ (ih (Or.inr h))
/-- Ordering the shadow keeps every entry. -/
theorem mem_sortPending {f : Pending} {l : List Pending} (h : f ∈ l) : f ∈ sortPending l := by
  induction l with
  | nil => exact h
  | cons a l ih =>
    rcases List.mem_cons.1 h with h | h
    · exact mem_insertPending (Or.inl h)
    · exact mem_insertPending (Or.inr (ih h))

/-- A result of latency 2 or more awaits its beat. -/
theorem LoneCtx.awaits {r c : Nat} {w : W32} {s t : State} (h : LoneCtx r c w s (ctxAt t r c)) {x : Res}
    (hx : x ∈ (loneEff r c w s).results) (hl : 2 ≤ x.lat) : Awaits r c s t x.dest x.value x.lat := by
  refine ⟨{ level := (ctxAt s r c).run.level, due := (ctxAt s r c).run.countAt (ctxAt s r c).run.level + x.lat
            issued := (ctxAt s r c).run.countAt (ctxAt s r c).run.level, slot := slotOf w, dest := x.dest, value := x.value },
    ?_, rfl, rfl, rfl, rfl, rfl⟩
  rw [h.shadow]
  apply mem_sortPending
  rw [List.mem_filter, entriesOf_lone]
  exact ⟨List.mem_append_left _ (List.mem_map.2 ⟨x, hx, rfl⟩), by simp; omega⟩
/-- Flags of latency 2 or more await their beat. -/
theorem LoneCtx.awaitsFlags {r c : Nat} {w : W32} {s t : State} (h : LoneCtx r c w s (ctxAt t r c))
    (hf : (loneEff r c w s).raised ≠ {}) (hl : 2 ≤ (loneEff r c w s).rlat) :
    AwaitsFlags r c s t (loneEff r c w s).raised (loneEff r c w s).rlat := by
  refine ⟨{ level := (ctxAt s r c).run.level
            due := (ctxAt s r c).run.countAt (ctxAt s r c).run.level + (loneEff r c w s).rlat
            issued := (ctxAt s r c).run.countAt (ctxAt s r c).run.level, slot := slotOf w, dest := .flags, value := 0
            raised := (loneEff r c w s).raised }, ?_, rfl, rfl, rfl, rfl⟩
  rw [h.shadow]
  apply mem_sortPending
  rw [List.mem_filter, entriesOf_lone]
  exact ⟨List.mem_append_right _ (by rw [if_neg hf]; exact List.mem_singleton.2 rfl), by simp; omega⟩

end Sys2Proof.Machine
end

