-- ==== Sys2Proof/Laws/Flow.lean ====
section
/-! SUPPORT. Sys2Proof/Laws/Flow.lean: every way a bundle of one syllable completes: with a long operation, a far store, a
transfer of control, a trap or the end of its run. -/

namespace Sys2Proof.Machine

/-- The loop buffer after a lone bundle. -/
def loneBuf (r c : Nat) (w : W32) (s : State) : LoopBuf :=
  finishBuf (loneView r c w s) (reedOf (fetched r w s) r) (loneEff r c w s).ctl
    (choose (loneView r c w s) (reedOf (fetched r w s) r) (loneEff r c w s).ctl) (loneDone r c w s).run.loops

/-- The reed after a lone bundle that takes `m` beats beside its local ones, and leaves `pf` prefetched. -/
def loneReed (r c : Nat) (w : W32) (s : State) (m : Nat) (pf : Option (W16 × List W32)) : Reed :=
  { issueStations c [loneEff r c w s]
      (addDiscard m (addBeats c m
        (addBeats c (localBeats [loneEff r c w s]) ((reedOf (fetched r w s) r).setCtx c (loneDone r c w s))))) with
    latch := [], wait := none, prefetch := pf, lbuf := loneBuf r c w s }

/-- The state in which a lone bundle's own effects are made, the transfer or trap after it still to come. -/
def loneState (r c : Nat) (w : W32) (s : State) (X : Reed) : State :=
  let e := loneEff r c w s
  let s0 := match e.far with
    | some f => if f.write then postStore r f (setReed r X s) else setReed r X s
    | none => setReed r X s
  let s2 := afterLocalStore r e.store (deviceWrite (placed (fetched r w s) r e.store) s0)
  if e.longFar.isEmpty then s2 else reedStore r (tideTags s2) e.longFar s2

/-- A lone bundle completes: its effects, then TEND, the trap after it, or the next boundary. -/
theorem completeBundle_any {r c : Nat} {w : W32} {s : State} (h : Lone r c w s)
    (hq : ∀ n, (loneEff r c w s).readsQ = some n → bitOf (ctxAt s r c).run.qValid n = true) :
    ∃ m pf, ((loneEff r c w s).ctl = .tend → m = 0) ∧ completeBundle r c none 0 (fetched r w s) =
      match (loneEff r c w s).ctl, trapAfter (loneView r c w s) (reedOf (fetched r w s) r) (loneEff r c w s).ctl with
      | .tend, _ => finishTend r c (loneState r c w s (loneReed r c w s m pf))
      | _, some x => boundary r c (takeExc r c x
          (choose (loneView r c w s) (reedOf (fetched r w s) r) (loneEff r c w s).ctl).next (ctxAt s r c).run.pc
          ((ctxAt s r c).run.pc + 1) (loneState r c w s (loneReed r c w s m pf)))
      | _, none => boundary r c (loneState r c w s (loneReed r c w s m pf)) := by
  have hr := h.ready
  have h4 := hr.noLou
  have hk : (reedOf (fetched r w s) r).ctxOf c = (reedOf s r).ctxOf c := by simp [reedOf_fetched, Reed.ctxOf]
  have he := effects_lone hq
  have hst : (reedOf (fetched r w s) r).stations = [] := by simp [reedOf_fetched, h4]
  have hd : loneDone r c w s = finishCtx (loneView r c w s) (reedOf (fetched r w s) r) [loneEff r c w s] (loneEff r c w s).ctl
      (choose (loneView r c w s) (reedOf (fetched r w s) r) (loneEff r c w s).ctl) ((reedOf s r).ctxOf c) := by
    simp [loneDone, ctxAt]
  have hctl : ctlOf [loneEff r c w s] = (loneEff r c w s).ctl := by
    simp only [ctlOf, List.find?_cons, List.find?_nil]
    split
    · rfl
    · rename_i hh
      simp at hh
      simp [hh]
  have hpc : (loneView r c w s).pc = (ctxAt s r c).run.pc := loneView_pc ..
  have hnx : (loneView r c w s).nxt = (ctxAt s r c).run.pc + 1 := loneView_nxt ..
  unfold completeBundle
  extract_lets x v k effs ctl ch trap fa k1 x0 tn pred extra stores ims pf x1 x2 x3 s0 s1 s2 s3
  have ee : effs = [loneEff r c w s] := he
  have ec : ctl = (loneEff r c w s).ctl := by show ctlOf effs = _; rw [ee, hctl]
  have et : trap = trapAfter (loneView r c w s) (reedOf (fetched r w s) r) (loneEff r c w s).ctl := by
    show trapAfter v x ctl = _; rw [ec]; rfl
  have ek1 : k1 = loneDone r c w s := by
    rw [hd]
    show finishCtx v x effs ctl ch k = _
    simp only [ee, ec, ch]
    simp [k, x, hk, v, loneView]
  have ech : ch = choose (loneView r c w s) (reedOf (fetched r w s) r) (loneEff r c w s).ctl := by
    show choose v x ctl = _; rw [ec]; rfl
  have es : stores = (loneEff r c w s).store := by simp [stores, ee]
  have ex0 : x0 = addBeats c (localBeats effs + 0) (x.setCtx c k1) := retireDue_nil _ (by simp [x, hst])
  have ex3 : x3 = loneReed r c w s extra pf := by
    have eb : finishBuf v x ctl ch k1.run.loops = loneBuf r c w s := by
      rw [ek1, ech, ec]
      rfl
    simp only [x3, x2, x1, ex0, ee, ek1] at eb ⊢
    rw [eb]
    rfl
  have e0 : s0 = match (loneEff r c w s).far with
      | some f => if f.write then postStore r f (setReed r x3 s) else setReed r x3 s
      | none => setReed r x3 s := by
    simp only [s0, ee, farOf, List.zipIdx_cons, List.zipIdx_nil, List.findSome?_cons, List.findSome?_nil]
    cases (loneEff r c w s).far <;> simp [fetched]
  have e3 : s3 = loneState r c w s x3 := by
    simp only [s3, ee, s2, s1, es, e0, loneState, List.foldl_cons, List.foldl_nil]
  refine ⟨extra, pf, fun hte => ?_, ?_⟩
  · have : ctl = .tend := ec.trans hte
    simp [extra, this]
  rw [← ex3, ← e3, ← ech, ← ec]
  show (match ctl, trap with
    | .tend, _ => finishTend r c s3
    | _, some e => boundary r c (takeExc r c e ch.next v.pc v.nxt s3)
    | _, none => boundary r c s3) = _
  rw [show v.pc = _ from hpc, show v.nxt = _ from hnx, et, ← ec]

/-! ### The reed after a lone bundle -/

/-- A bundle without a long operation issues none. -/
theorem issueStations_none (c : Nat) (e : Eff) (x : Reed) (h : e.issue = none) : issueStations c [e] x = x := by
  simp [issueStations, h]

/-- The context of the reed after a lone bundle without a long operation. -/
theorem loneReed_ctx {r c : Nat} {w : W32} {s : State} (m : Nat) (pf : Option (W16 × List W32))
    (hi : (loneEff r c w s).issue = none) :
    (loneReed r c w s m pf).ctxOf c =
      { loneDone r c w s with sched := { (loneDone r c w s).sched with beats := (loneDone r c w s).sched.beats + localBeats [loneEff r c w s] + m } } := by
  simp only [loneReed, issueStations_none _ _ _ hi]
  show (addDiscard m (addBeats c m (addBeats c (localBeats [loneEff r c w s])
    ((reedOf (fetched r w s) r).setCtx c (loneDone r c w s))))).ctxOf c = _
  simp

/-- Issuing long operations leaves the other contexts alone. -/
theorem issueStations_other (c e : Nat) (l : List Eff) (x : Reed) (h : e ≠ c) : (issueStations c l x).ctxOf e = x.ctxOf e := by
  unfold issueStations
  induction l generalizing x with
  | nil => rfl
  | cons a l ih =>
    rw [List.foldl_cons, ih]
    split
    · exact ctxOf_setCtx_other _ _ _ _ h
    · rfl

/-- The other contexts of the reed after a lone bundle. -/
theorem loneReed_other {r c e : Nat} {w : W32} {s : State} (m : Nat) (pf : Option (W16 × List W32))
    (h : e ≠ c) : (loneReed r c w s m pf).ctxOf e = ctxAt s r e := by
  show (issueStations c [loneEff r c w s] _).ctxOf e = _
  rw [issueStations_other _ _ _ _ h]
  simp only [addDiscard_ctx, addBeats_ctx_other _ _ _ _ h, ctxOf_setCtx_other _ _ _ _ h]
  simp [reedOf_fetched, Reed.ctxOf, ctxAt]

/-- The reed after a lone bundle waits for nothing. -/
@[simp] theorem loneReed_wait {r c : Nat} {w : W32} {s : State} (m : Nat) (pf : Option (W16 × List W32)) :
    (loneReed r c w s m pf).wait = none := rfl

/-- The store buffer of the reed after a lone bundle. -/
@[simp] theorem loneReed_stores {r c : Nat} {w : W32} {s : State} (m : Nat) (pf : Option (W16 × List W32)) : (loneReed r c w s m pf).stores = (reedOf s r).stores := by
  have : ∀ (l : List Eff) (x : Reed), (issueStations c l x).stores = x.stores := by
    intro l
    unfold issueStations
    induction l with
    | nil => intro x; rfl
    | cons a l ih =>
      intro x
      rw [List.foldl_cons, ih]
      split <;> rfl
  show (issueStations c [loneEff r c w s] _).stores = _
  rw [this]
  simp [reedOf_fetched, addDiscard, addBeats, Reed.setCtx]

/-! ### From the row to the bundle's completion -/

/-- A lone syllable's row without a far access, of a bundle that waits for nothing and raises no exception. -/
theorem exec_any {i : Instr} {o : SylOp} {r c : Nat} {w : W32} {s : State} (hi : i.syllable = some (some o, r, w))
    (hw : i.wellFormed = true) (h : Lone r c w s)
    (hq : ∀ n, (loneEff r c w s).readsQ = some n → bitOf (ctxAt s r c).run.qValid n = true)
    (hx : (loneEff r c w s).exc = none) (hf : (loneEff r c w s).far = none)
    (hg : ∀ a ∈ (loneEff r c w s).gateReads, gateEmpty (fetched r w s) (placeOf (fetched r w s) r a) = false) :
    exec i s = .next (completeBundle r c none 0 (fetched r w s)) := by
  rw [exec_lone hi hw h, tryIssue_lone h hq hx hf hg]

/-- What `tryIssue` does with a lone bundle up to its far access. -/
theorem tryIssue_far {r c : Nat} {w : W32} {s : State} {f : Far} (h : Lone r c w s)
    (hq : (loneEff r c w s).readsQ = none) (hi : (loneEff r c w s).issue = none)
    (hx : (loneEff r c w s).exc = none) (hf : (loneEff r c w s).far = some f) (hr : (loneEff r c w s).gateReads = [])
    (hg : f.write = false → ∀ a ∈ touched f.byte f.len, gateEmpty s (placeOf s r a) = false)
    (hu : ∀ a ∈ touched f.byte f.len, farUnsent s (placeOf s r a) = false) (hs : f.write = true → (reedOf s r).stores.length < 8) :
    tryIssue r (fetched r w s) =
      if f.write then completeBundle r c none 0 (fetched r w s)
      else issueFarRead r ((touched f.byte f.len).map (placeOf s r))
        (setReed r { reedOf (fetched r w s) r with wait := some (.farRead (now s)) } (fetched r w s)) := by
  have hrd := h.ready
  have h1 := hrd.runs
  have h2 := hrd.noTrap
  have h3 := hrd.noRep
  have h4 := hrd.noLou
  have h5 := h.budget
  have h6 := h.front
  unfold ctxAt at h2 h3 h5
  have hk : (reedOf (fetched r w s) r).ctxOf c = (reedOf s r).ctxOf c := by simp [reedOf_fetched, Reed.ctxOf]
  have he := effects_lone (r := r) (c := c) (w := w) (s := s) (by simp [hq])
  have hrun : (reedOf (fetched r w s) r).running = some c := by simp [reedOf_fetched, h1]
  have hl : (reedOf (fetched r w s) r).latch = [w] := by simp [reedOf_fetched]
  have hst : (reedOf (fetched r w s) r).stations = [] := by simp [reedOf_fetched, h4]
  have hso : (reedOf (fetched r w s) r).stores = (reedOf s r).stores := by simp [reedOf_fetched]
  unfold tryIssue
  simp only [hrun, hk, hl]
  rw [show viewOf (fetched r w s) r c (reedOf (fetched r w s) r) none = loneView r c w s from rfl]
  simp only [h5, trapReady, h2, h6, he]
  have hlou : holdsLou (reedOf (fetched r w s) r) c ((reedOf s r).ctxOf c) [loneEff r c w s] = false := by
    simp [holdsLou, hst, hq, hi]
  have hgate : holdsGate (loneView r c w s) [loneEff r c w s] = false := by
    simp only [holdsGate, farReads, List.flatMap_cons, List.flatMap_nil, hf, hr, List.append_nil, List.any_eq_false]
    intro a ha
    split at ha
    · simp at ha
    · rename_i hw
      simp only [loneView_s, loneView_r, placeOf_fetched, gateEmpty_fetched, hg (by simpa using hw) a ha]
      simp
  have hu' : ((touched f.byte f.len).map (placeOf (fetched r w s) r)).any (farUnsent (fetched r w s)) = false := by
    rw [List.any_eq_false]
    intro pl hp
    obtain ⟨a, ha, rfl⟩ := List.mem_map.1 hp
    rw [placeOf_fetched, show farUnsent (fetched r w s) (placeOf s r a) = farUnsent s (placeOf s r a) from rfl, hu a ha]
    simp
  simp only [hlou, hgate, firstExc, farOf, hx, hf, List.findIdx?, List.findIdx?.go, Option.isSome_none, Bool.false_eq_true,
    if_false, Bool.or_self, List.zipIdx_cons, List.zipIdx_nil, List.findSome?_cons, Option.map_some, hso, hu',
    Bool.and_false, List.isEmpty_nil, Bool.not_true, Bool.false_and]
  cases hfw : f.write
  · rfl
  · have hs' : ¬ 8 ≤ (reedOf s r).stores.length := by
      have := hs hfw
      omega
    simp only [hs', if_false, if_true, Bool.not_true, Bool.false_eq_true]

/-- A reed's far read that leaves writes no memory. -/
@[simp] theorem issueFarRead_mem (r : Nat) (pls : List Place) (s : State) : (issueFarRead r pls s).mem = s.mem := by
  unfold issueFarRead
  rw [foldl_keeps (fun t => t.mem)]
  · split
    · simp only [sendHostRead]
      split <;> rfl
    · rfl
  · intro t la
    split
    · rw [issueAtlasRead, sendOn_mem]
      rfl
    · rfl

/-- A reed's far read that leaves changes no reed. -/
@[simp] theorem issueFarRead_reeds (r : Nat) (pls : List Place) (s : State) : (issueFarRead r pls s).reeds = s.reeds := by
  unfold issueFarRead
  rw [foldl_keeps (fun t => t.reeds)]
  · split
    · simp only [sendHostRead]
      split <;> rfl
    · rfl
  · intro t la
    split
    · rw [issueAtlasRead, sendOn_reeds]
      rfl
    · rfl

end Sys2Proof.Machine
end

