-- ==== Sys2Proof/Laws/Local.lean ====
section
/-! SUPPORT. Sys2Proof/Laws/Local.lean: a store to a reed's own banks and instruction memory, byte by byte. -/

namespace Sys2Proof.Machine

/-- An own address names a word of the reed's memories. -/
theorem placeOf_own (s : State) (r a : Nat) (h : a < 0x40000) :
    (placeOf s r a).word = some (reedBase r + a) ∧ ∀ b, placeOf s r a ≠ .hbm b := by
  simp only [placeOf, h, if_true, reedPlace]
  split <;> simp [Place.word]

/-- One word written, read byte by byte. -/
theorem memGet_putWord {m : List Host.Cell} (w : Nat) (x : StoreWord) (b : Nat) (h : Memory.wf m = true) :
    memGet (putWord m w x) b =
      if b / 2 = w then
        (if b % 2 = 0 then (if x.lo then x.value.setWidth 8 else memGet m b)
        else (if x.hi then (x.value >>> 8).setWidth 8 else memGet m b))
      else memGet m b := by
  unfold putWord
  by_cases hw : b / 2 = w
  · rw [if_pos hw]
    by_cases hb : b % 2 = 0
    · have hb2 : b = 2 * w := by omega
      have h1 : b ≠ 2 * w + 1 := by omega
      rw [if_pos hb]
      cases x.lo <;> cases x.hi <;>
        simp only [Bool.false_eq_true, if_true, if_false, memGet_memSet_other _ _ _ _ h1] <;>
        rw [hb2, memGet_memSet_same _ _ h]
    · have hb2 : b = 2 * w + 1 := by omega
      have h1 : b ≠ 2 * w := by omega
      rw [if_neg hb]
      cases x.lo <;> cases x.hi <;>
        simp only [Bool.false_eq_true, if_true, if_false, memGet_memSet_other _ _ _ _ h1]
      · rw [hb2, memGet_memSet_same _ _ h]
      · rw [hb2, memGet_memSet_same _ _ (memSet_wf _ _ h)]
  · rw [if_neg hw]
    have h1 : b ≠ 2 * w := by omega
    have h2 : b ≠ 2 * w + 1 := by omega
    cases x.lo <;> cases x.hi <;>
      simp only [Bool.false_eq_true, if_true, if_false, memGet_memSet_other _ _ _ _ h1, memGet_memSet_other _ _ _ _ h2]

/-- Words at own addresses written, read byte by byte. -/
theorem memGet_putOwn (s : State) (r : Nat) (f : Nat → StoreWord) (hf : ∀ a, (f a).addr = a) (l : List Nat)
    (hl : ∀ a ∈ l, a < 0x40000) (hn : l.Nodup) (b : Nat) {m : List Host.Cell} (h : Memory.wf m = true) :
    memGet ((placed s r (l.map f)).foldl putPlaced m) b =
      if reedBase r ≤ b / 2 ∧ b / 2 - reedBase r ∈ l then
        (if b % 2 = 0 then
          (if (f (b / 2 - reedBase r)).lo then (f (b / 2 - reedBase r)).value.setWidth 8 else memGet m b)
        else (if (f (b / 2 - reedBase r)).hi then ((f (b / 2 - reedBase r)).value >>> 8).setWidth 8 else memGet m b))
      else memGet m b := by
  induction l generalizing m with
  | nil => simp [placed]
  | cons a l ih =>
    have ha := hl a (List.mem_cons_self ..)
    have hm1 : putPlaced m (placeOf s r (f a).addr, f a) = putWord m (reedBase r + a) (f a) := by
      simp only [putPlaced, hf, (placeOf_own s r a ha).1]
    have hw1 : Memory.wf (putWord m (reedBase r + a) (f a)) = true := putWord_wf _ _ h
    have ih := ih (fun x hx => hl x (List.mem_cons_of_mem _ hx)) (List.nodup_cons.1 hn).2 hw1
    simp only [placed, List.map_cons, List.foldl_cons] at ih ⊢
    rw [hm1, ih, memGet_putWord _ _ _ h]
    have hna := (List.nodup_cons.1 hn).1
    by_cases hb : reedBase r ≤ b / 2
    · by_cases hba : b / 2 - reedBase r = a
      · have hw : b / 2 = reedBase r + a := by omega
        simp [hna, hw]
      · have hw : b / 2 ≠ reedBase r + a := by omega
        simp [hb, hba, hw]
    · have hw : b / 2 ≠ reedBase r + a := by omega
      simp [hb, hw]

/-- The word addresses that a range of bytes touches. -/
theorem mem_touched {byte len a : Nat} (h : 0 < len) : a ∈ touched byte len ↔ 2 * a + 1 ≥ byte ∧ 2 * a < byte + len := by
  simp only [touched, List.mem_map, List.mem_range]
  constructor
  · rintro ⟨i, hi, rfl⟩
    omega
  · intro hh
    exact ⟨a - byte / 2, by omega, by omega⟩

/-- No word address is touched twice. -/
theorem touched_nodup (byte len : Nat) : (touched byte len).Nodup := by
  exact List.Pairwise.map _ (fun x y (h : x ≠ y) => by omega) List.nodup_range

/-- A store to own addresses writes its bytes and no other. -/
theorem stored_own (s : State) (r byte len val : Nat) (hl : 0 < len) (hb : byte + len ≤ 0x80000) {m : List Host.Cell}
    (h : Memory.wf m = true) (b : Nat) :
    memGet ((placed s r (storeWords byte len val)).foldl putPlaced m) b =
      if 2 * reedBase r + byte ≤ b ∧ b < 2 * reedBase r + byte + len then
        BitVec.ofNat 8 (val / 2 ^ (8 * (b - (2 * reedBase r + byte))))
      else memGet m b := by
  unfold storeWords
  rw [memGet_putOwn s r _ (fun a => rfl) _ (fun a ha => by rw [mem_touched hl] at ha; omega) (touched_nodup _ _) b h]
  have hlow : ∀ x y : Nat, x < 256 → (BitVec.ofNat 16 (x + 2 ^ 8 * y)).setWidth 8 = BitVec.ofNat 8 x := by
    intro x y hx
    apply BitVec.eq_of_toNat_eq
    simp
    try omega
  have hhigh : ∀ x y : Nat, x < 256 → y < 256 →
      ((BitVec.ofNat 16 (x + 2 ^ 8 * y)) >>> 8).setWidth 8 = BitVec.ofNat 8 y := by
    intro x y hx hy
    apply BitVec.eq_of_toNat_eq
    simp [Nat.shiftRight_eq_div_pow]
    omega
  have hf : ∀ i, field val i 8 < 256 := fun i => Nat.mod_lt _ (by decide)
  have hv : ∀ i, BitVec.ofNat 8 (field val (8 * i) 8) = BitVec.ofNat 8 (val / 2 ^ (8 * i)) := by
    intro i
    apply BitVec.eq_of_toNat_eq
    simp [field, Nat.shiftRight_eq_div_pow]
  have h8 : ∀ i, (if i < byte then 0 else field val (8 * (i - byte)) 8) < 256 := by
    intro i
    split
    · decide
    · exact hf _
  by_cases hr : reedBase r ≤ b / 2
  · generalize ha : b / 2 - reedBase r = a
    by_cases hm : a ∈ touched byte len
    · rw [if_pos ⟨hr, hm⟩]
      rw [mem_touched hl] at hm
      by_cases hb2 : b % 2 = 0
      · have e : b = 2 * reedBase r + 2 * a := by omega
        rw [if_pos hb2, hlow _ _ (h8 _)]
        by_cases hlo : byte ≤ 2 * a
        · have c1 : 2 * reedBase r + byte ≤ b ∧ b < 2 * reedBase r + byte + len := by omega
          have c2 : ¬ 2 * a < byte := by omega
          rw [if_pos (by simpa using hlo), if_pos c1, if_neg c2, hv]
          congr 4
          omega
        · have c1 : ¬ (2 * reedBase r + byte ≤ b ∧ b < 2 * reedBase r + byte + len) := by omega
          rw [if_neg (by simpa using hlo), if_neg c1]
      · have e : b = 2 * reedBase r + 2 * a + 1 := by omega
        rw [if_neg hb2, hhigh _ _ (h8 _) (h8 _)]
        by_cases hhi : 2 * a + 1 < byte + len
        · have c1 : 2 * reedBase r + byte ≤ b ∧ b < 2 * reedBase r + byte + len := by omega
          have c2 : ¬ 2 * a + 1 < byte := by omega
          rw [if_pos (by simpa using hhi), if_pos c1, if_neg c2, hv]
          congr 4
          omega
        · have c1 : ¬ (2 * reedBase r + byte ≤ b ∧ b < 2 * reedBase r + byte + len) := by omega
          rw [if_neg (by simpa using hhi), if_neg c1]
    · rw [if_neg fun x => hm x.2]
      rw [mem_touched hl] at hm
      have c1 : ¬ (2 * reedBase r + byte ≤ b ∧ b < 2 * reedBase r + byte + len) := by omega
      rw [if_neg c1]
  · have c1 : ¬ (2 * reedBase r + byte ≤ b ∧ b < 2 * reedBase r + byte + len) := by omega
    rw [if_neg fun x => hr x.1, if_neg c1]

end Sys2Proof.Machine
end

