-- ==== Sys2Proof/Laws/Pages.lean ====
section
/-! SUPPORT. Sys2Proof/Laws/Pages.lean: what a register access of a page does, once for every row that is one. -/

namespace Sys2Proof.Machine

theorem atPage_responds {ag off : Nat} {f : State → State} {s : State} (h : Responds ag off s) : atPage ag off f s = f s := by
  unfold atPage; rw [if_neg h.1, if_pos h.2]

theorem atPage_closed {ag off : Nat} {f : State → State} {s : State} (h : Closed ag off s) :
    atPage ag off f s = glbErr 3 (agentOf ag) (off / 4) s := by
  unfold atPage; rw [if_neg h.1, if_neg (by rw [h.2]; decide)]

theorem readPage_responds {ag off : Nat} {f : State → W32 × State} {s : State} (h : Responds ag off s) :
    readPage ag off f s = send (.readData (f s).1) (f s).2 := by
  unfold readPage; rw [if_neg h.1, if_pos h.2]

theorem readPage_closed {ag off : Nat} {f : State → W32 × State} {s : State} (h : Closed ag off s) :
    readPage ag off f s = send (.readData 0) (glbErr 3 (agentOf ag) (off / 4) s) := by
  unfold readPage; rw [if_neg h.1, if_neg (by rw [h.2]; decide)]

/-- A row whose meaning is a read of a page. -/
theorem reads_of {i : Instr} {ag off : Nat} {s : State} {f : State → W32 × State} {v : W32} {t : State}
    (h : exec i s = .next (readPage ag off f s)) (hv : (f s).1 = v) (ht : (f s).2 = t) : Reads i ag off s v t :=
  ⟨fun r => by rw [h, readPage_responds r, hv, ht], fun c => by rw [h, readPage_closed c]⟩

/-- A row whose meaning is a write of a page. -/
theorem writes_of {i : Instr} {ag off : Nat} {s : State} {f : State → State} {t : State}
    (h : exec i s = .next (atPage ag off f s)) (ht : f s = t) : Writes i ag off s t :=
  ⟨fun r => by rw [h, atPage_responds r, ht], fun c => by rw [h, atPage_closed c]⟩

/-- A row whose meaning is a write of a RED page. -/
theorem writesRed_of {i : Instr} {ag r o : Nat} {s : State} {f : State → State} {t : State}
    (h : exec i s = .next (atRed ag r o f s)) (ht : f s = t) : WritesRed i ag r o s t := by
  subst ht
  exact writes_of h rfl

/-- Bits of a page's IRQ_STAT that are raised read back with those already there. -/
theorem irqStat_irqSet (pg : Nat) (m : W32) (s : State) : (hdrOf (irqSet pg m s) pg).irqStat = (hdrOf s pg).irqStat ||| m := by
  unfold irqSet setHdr
  simp only []
  unfold hdrOf
  rw [foldl_keeps (fun t => t.hdr) _ (fun t b => ?_)]
  · simp
  · split <;> simp

/-- A bit by `bitOf` is the bit by `getLsbD`. -/
theorem bitOf_eq_getLsbD {w : Nat} (v : BitVec w) (i : Nat) : bitOf v i = v.getLsbD i := by
  unfold bitOf bitAt
  rw [BitVec.getLsbD, Nat.testBit]
  simp [Nat.and_comm, Nat.and_one_is_mod]

end Sys2Proof.Machine
end

