-- ==== Sys2Proof/Laws/Overrun.lean ====
section
/-! SUPPORT. Sys2Proof/Laws/Overrun.lean: everything that taking an overrun does, and that events and reports do not depend on
a reed. -/

set_option maxRecDepth 20000

namespace Sys2Proof.Machine

/-- A report does not depend on a reed. -/
theorem fbRaise_setReed (n p r X s) : fbRaise n p (setReed r X s) = setReed r X (fbRaise n p s) := rfl
/-- A message does not depend on a reed. -/
theorem issueMsix_setReed (n r X s) : issueMsix n (setReed r X s) = setReed r X (issueMsix n s) := by
  unfold issueMsix
  rw [apply_ite (setReed r X)]; rfl
/-- WAKE# does not depend on a reed. -/
theorem assertWake_setReed (r X s) : assertWake (setReed r X s) = setReed r X (assertWake s) := by
  unfold assertWake
  rw [apply_ite (setReed r X)]; rfl
/-- The wake signal does not depend on a reed. -/
theorem signalWake_setReed (r X s) : signalWake (setReed r X s) = setReed r X (signalWake s) := by
  unfold signalWake
  simp only [apply_ite (setReed r X), ← assertWake_setReed]; rfl
/-- A wake from Dormant does not depend on a reed. -/
theorem dormantWake_setReed (src r X s) : dormantWake src (setReed r X s) = setReed r X (dormantWake src s) := by
  unfold dormantWake
  simp only [apply_ite (setReed r X), ← signalWake_setReed, ← issueMsix_setReed]; rfl
/-- A source fires alike whatever a reed holds. -/
theorem fireSource_setReed (n r X s) : fireSource n (setReed r X s) = setReed r X (fireSource n s) := by
  unfold fireSource
  simp only [apply_ite (setReed r X)]
  simp only [← fbRaise_setReed, ← dormantWake_setReed]; rfl
/-- The reed after the common part of an overrun. -/
def overrunReed (r c : Nat) (cause : OvrCause) (s : State) : Reed :=
  let x := reedOf s r
  let k := x.ctxOf c
  let h := k.sched
  let page := { (k.page.mark h.beats) with
    slack := 0, ovrCause := cause.code, ovrCount := satInc 0xFFFF k.page.ovrCount }
  let x1 := endRun s h (x.setCtx c { k with page := page, sched := { h with due := none } })
  let x2 := if x.running = some c then x1.drop else { x1 with preempted := x1.preempted.filter (· != c) }
  if cause = .start then clearTokens (entryTkwait h.entry) x2 else x2

/-- What every overrun leaves on the reed. -/
structure OverrunReed (r c : Nat) (cause : OvrCause) (s : State) (Z : Reed) : Prop where
  stores : Z.stores = (reedOf s r).stores
  running : Z.running = (if (reedOf s r).running = some c then none else (reedOf s r).running)
  preempted : Z.preempted.filter (· != c) = (reedOf s r).preempted.filter (· != c)
  notIn : (reedOf s r).running ≠ some c → c ∉ Z.preempted
  page : Z.page = { (reedOf s r).page with tk := if cause = .start then (reedOf s r).page.tk &&& ~~~entryTkwait (ctxAt s r c).sched.entry else (reedOf s r).page.tk }
  ended : (ctxAt s r c).sched.pos < 8 → bitOf (Tab.get {} Z.progress (ctxAt s r c).sched.dom).ended (ctxAt s r c).sched.pos = true
  others : ∀ d, d ≠ c → Z.ctxOf d = ctxAt s r d
  regs : (Z.ctxOf c).regs = (ctxAt s r c).regs
  oc : (Z.ctxOf c).page.ovrCause = cause.code
  on : (Z.ctxOf c).page.ovrCount = satInc 0xFFFF (ctxAt s r c).page.ovrCount
  sl : (Z.ctxOf c).page.slack = 0
  wm : (Z.ctxOf c).page.wmark = max (ctxAt s r c).page.wmark (min (ctxAt s r c).sched.beats 0xFFFFFF)

/-- A bit of eight that is set reads 1. -/
theorem bitOf_putBit8 (b : BitVec 8) (n : Nat) (h : n < 8) : bitOf (putBit b n true) n = true := by
  have : n = 0 ∨ n = 1 ∨ n = 2 ∨ n = 3 ∨ n = 4 ∨ n = 5 ∨ n = 6 ∨ n = 7 := by omega
  rcases this with h | h | h | h | h | h | h | h <;> subst h <;> revert b <;> decide

/-- The context after the common part of an overrun. -/
def overrunCtx (cause : OvrCause) (k : Ctx) : Ctx :=
  { k with page := { (k.page.mark k.sched.beats) with
      slack := 0, ovrCause := cause.code, ovrCount := satInc 0xFFFF k.page.ovrCount }, sched := { k.sched with due := none } }

/-- A reed whose contexts are those of another but for one. -/
theorem ctxOf_of_ctx {Z X : Reed} {c : Nat} {k : Ctx} (h : Z.ctx = Tab.set X.ctx c k) :
  Z.ctxOf c = k ∧ ∀ d, d ≠ c → Z.ctxOf d = X.ctxOf d := by
  unfold Reed.ctxOf; rw [h]
  refine ⟨by simp [Tab.get_set], fun d hd => ?_⟩
  rw [Tab.get_set]; exact if_neg hd

/-- The contexts after the common part of an overrun. -/
theorem overrunReed_ctx (r c cause s) : (overrunReed r c cause s).ctx = Tab.set (reedOf s r).ctx c (overrunCtx cause (ctxAt s r c)) := by
  unfold overrunReed endRun
  simp only []
  split <;> split <;> split <;> rfl

/-- What the common part of an overrun leaves. -/
theorem overrunReed_facts (r c cause s) (hp : (ctxAt s r c).sched.tide = (domOf s (ctxAt s r c).sched.dom).tide) :
   OverrunReed r c cause s (overrunReed r c cause s) ∧ (overrunReed r c cause s).ctxOf c = overrunCtx cause (ctxAt s r c) := by
  obtain ⟨h1, h2⟩ := ctxOf_of_ctx (overrunReed_ctx r c cause s)
  have hp' : ((reedOf s r).ctxOf c).sched.tide = (domOf s ((reedOf s r).ctxOf c).sched.dom).tide := hp
  have hq : (overrunReed r c cause s).progress = Tab.set (reedOf s r).progress (ctxAt s r c).sched.dom { ended := putBit (Tab.get {} (reedOf s r).progress (ctxAt s r c).sched.dom).ended (ctxAt s r c).sched.pos true } := by
    unfold overrunReed endRun
    simp only []
    rw [if_pos hp']
    split <;> split <;> rfl
  refine ⟨⟨?_, ?_, ?_, ?_, ?_, ?_, h2, ?_, ?_, ?_, ?_, ?_⟩, h1⟩
  · unfold overrunReed endRun; simp only []; rw [if_pos hp']; split <;> split <;> first | rfl | (split <;> first | rfl | contradiction) | contradiction
  · unfold overrunReed endRun; simp only []; rw [if_pos hp']; split <;> split <;> first | rfl | (split <;> first | rfl | contradiction) | contradiction
  · unfold overrunReed endRun; simp only []; rw [if_pos hp']; split <;> split <;> first | rfl | (show List.filter _ (List.filter _ _) = _; rw [List.filter_filter]; simp; rfl)
  · intro hr; unfold overrunReed endRun; simp only []; rw [if_pos hp', if_neg hr]; split <;> (show c ∉ List.filter _ _; simp)
  · unfold overrunReed endRun; simp only []; rw [if_pos hp']; split <;> split <;> first | rfl | (split <;> first | rfl | contradiction) | contradiction
  · intro h; rw [hq, Tab.get_set, if_pos rfl]; exact bitOf_putBit8 _ _ h
  all_goals rw [h1]; rfl

/-- What discarding a run leaves. -/
theorem discard_facts (c : Nat) (Z : Reed) :
   let W := discardRun c Z
   W.stores = Z.stores ∧ W.running = Z.running ∧ W.preempted = Z.preempted ∧ W.page = Z.page ∧ W.progress = Z.progress ∧
   (∀ d, d ≠ c → W.ctxOf d = Z.ctxOf d) ∧ (W.ctxOf c).regs = (Z.ctxOf c).regs ∧ (W.ctxOf c).run = { slots := (Z.ctxOf c).run.slots } ∧
   (W.ctxOf c).sched.phase = .idle ∧ (W.ctxOf c).page = { (Z.ctxOf c).page with skipping := false } := by
  have hW : (discardRun c Z).ctx = Tab.set Z.ctx c { (Z.ctxOf c) with run := { slots := (Z.ctxOf c).run.slots }, sched := { (Z.ctxOf c).sched with phase := .idle, due := none, resumed := false, stop := false }, page := { (Z.ctxOf c).page with skipping := false } } := rfl
  obtain ⟨h1, h2⟩ := ctxOf_of_ctx hW
  refine ⟨rfl, rfl, rfl, rfl, rfl, h2, ?_, ?_, ?_, ?_⟩ <;> rw [h1]

/-- Discarding the run keeps what every overrun leaves. -/
theorem OverrunReed.discard {r c cause s Z} (h : OverrunReed r c cause s Z) : OverrunReed r c cause s (discardRun c Z) := by
  obtain ⟨a1, a2, a3, a4, a5, a6, a7, a8, a9, a10⟩ := discard_facts c Z
  refine ⟨a1.trans h.stores, a2.trans h.running, by rw [a3]; exact h.preempted, by rw [a3]; exact h.notIn, a4.trans h.page, ?_, ?_, a7.trans h.regs, ?_, ?_, ?_, ?_⟩
  · rw [a5]; exact h.ended
  · intro d hd; rw [a6 d hd]; exact h.others d hd
  · rw [a10]; exact h.oc
  · rw [a10]; exact h.on
  · rw [a10]; exact h.sl
  · rw [a10]; exact h.wm

/-- What an overrun leaves alone. -/
theorem frame_ov {r c cause s Z} {F : State} (h : OverrunReed r c cause s Z) (hF : FarBlocksKept s F) (hm : F.mem = s.mem)
   (hr : ∀ q, reedOf F q = reedOf s q) :
   let t := setReed r Z F
   OtherCtxKept r c s t ∧ FarBlocksKept s t ∧ t.mem = s.mem := by
  refine ⟨⟨?_, ?_⟩, hF, hm⟩
  · intro q hq; rw [reedOf_setReed_other _ _ _ _ hq, hr]
  · intro d hd; unfold ctxAt; rw [reedOf_setReed, h.others d hd]; rfl

/-- What an overrun leaves by policy. -/
def overrunRest (r c : Nat) (cause : OvrCause) (s t : State) : Prop :=
  let k := ctxAt s r c
  let l := ctxAt t r c
  let h := k.sched
  let pay := payload r (c * 2 ^ 40 + h.dom * 2 ^ 32 + h.tide % 2 ^ 32)
  let u := fbRaise (0x0A00 + cause.code) pay s
  let discarded := l.run = { slots := k.run.slots } ∧ l.sched.phase = .idle ∧ l.page.skipping = false
  (if h.resumed then discarded ∧ t.fbk = (fbRaise 0x0A04 pay u).fbk ∧ t.srcs = s.srcs
  else if entryPol h.entry = 2 then
    l.run = k.run ∧ l.sched.phase = .idle ∧ l.page.halted = true ∧
      t.fbk = (fbRaise 0x0901 pay (fireSource (0x100 + r) u)).fbk ∧ t.srcs = (fireSource (0x100 + r) s).srcs
  else t.fbk = u.fbk ∧ t.srcs = s.srcs ∧
    if cause = .start then l.run = k.run ∧ l.sched.phase = h.phase
    else if entryPol h.entry = 1 then l.run = k.run ∧ l.sched.phase = .suspended ∧ l.page.skipping = true
    else discarded)

/-- An overrun from its reed and its reports. -/
theorem overran_of {r c cause s Z F} (h : OverrunReed r c cause s Z) (hF : FarBlocksKept s F) (hm : F.mem = s.mem)
   (hr : ∀ q, reedOf F q = reedOf s q) (hrest : overrunRest r c cause s (setReed r Z F)) : Overran r c cause s (setReed r Z F) := by
  obtain ⟨f1, f2, f3⟩ := frame_ov h hF hm hr
  have e : ctxAt (setReed r Z F) r c = Z.ctxOf c := by unfold ctxAt; rw [reedOf_setReed]
  unfold Overran
  refine ⟨f1, f2, f3, ?_, ?_, ?_, ?_, ?_, ?_, ?_, ?_, ?_, ?_, ?_, hrest⟩
  · rw [reedOf_setReed]; exact h.stores
  · rw [reedOf_setReed]; exact h.running
  · rw [reedOf_setReed]; exact h.preempted
  · rw [reedOf_setReed]; exact h.notIn
  · rw [reedOf_setReed]; exact h.page
  · rw [reedOf_setReed]; exact h.ended
  · rw [e]; exact h.regs
  · rw [e]; exact h.oc
  · rw [e]; exact h.on
  · rw [e]; exact h.sl
  · rw [e]; exact h.wm

/-- An overrun of a resumed run. -/
theorem takeOverrun_resumed (r c cause s) (h : (ctxAt s r c).sched.resumed = true) :
  let pay := overrunPayload r c (ctxAt s r c).sched.dom (ctxAt s r c).sched.tide
  takeOverrun r c cause s = setReed r (discardRun c (overrunReed r c cause s)) (fbRaise 0x0A04 pay (fbRaise (0x0A00 + cause.code) pay s)) := by
  have h' : ((reedOf s r).ctxOf c).sched.resumed = true := h
  unfold takeOverrun
  simp only []
  rw [if_pos h']
  rw [fbRaise_setReed, fbRaise_setReed, fbRaise_setReed, setReed_setReed]
  rfl
/-- An overrun under TRUNCATE or SKIP_NEXT, or of an entry that has not started. -/
theorem takeOverrun_other (r c cause s) (h : (ctxAt s r c).sched.resumed = false) (hp : entryPol (ctxAt s r c).sched.entry ≠ 2)
  (ht : (ctxAt s r c).sched.tide = (domOf s (ctxAt s r c).sched.dom).tide) :
  let pay := overrunPayload r c (ctxAt s r c).sched.dom (ctxAt s r c).sched.tide
  let X := overrunReed r c cause s
  takeOverrun r c cause s = setReed r (if cause = .start then X else if entryPol (ctxAt s r c).sched.entry = 1 then
     X.setCtx c { (X.ctxOf c) with page := { (X.ctxOf c).page with skipping := true }, sched := { (X.ctxOf c).sched with phase := .suspended } }
     else discardRun c X) (fbRaise (0x0A00 + cause.code) pay s) := by
  have h' : ¬ ((reedOf s r).ctxOf c).sched.resumed = true := by unfold ctxAt at h; rw [h]; decide
  have hp' : ¬ entryPol ((reedOf s r).ctxOf c).sched.entry = 2 := hp
  have ht' : ((reedOf s r).ctxOf c).sched.tide = (domOf s ((reedOf s r).ctxOf c).sched.dom).tide := ht
  unfold takeOverrun armLate
  simp only []
  rw [if_neg h', if_neg hp']
  generalize hX : (ite (cause = .start) (clearTokens _ _) _) = X
  have hX' : X = overrunReed r c cause s := hX.symm.trans rfl
  subst hX'
  rw [fbRaise_setReed, if_pos ht']
  by_cases h1 : cause = .start
  · rw [if_pos h1, if_pos h1]; rfl
  · rw [if_neg h1, if_neg h1]
    by_cases h2 : entryPol ((reedOf s r).ctxOf c).sched.entry = 1
    · rw [if_pos h2]
      have h2' : entryPol (ctxAt s r c).sched.entry = 1 := h2
      rw [if_pos h2', setReed_setReed]; rfl
    · rw [if_neg h2]
      have h2' : ¬ entryPol (ctxAt s r c).sched.entry = 1 := h2
      rw [if_neg h2', setReed_setReed]; rfl
/-- The reed after an OVERRUN escalation. -/
def escalatedReed (r c : Nat) (e : Exc) (X : Reed) (s : State) (fpc npc : W16) : Reed :=
  let k := X.ctxOf c
  let k1 : Ctx :=
    { k with page := (k.page.escalated e 4 k.run.frames.length fpc npc).mark k.sched.beats
             sched := { k.sched with phase := .idle, due := none } }
  let x1 := endRun s k.sched (X.setCtx c k1)
  if X.running = some c then x1.drop else { x1 with preempted := x1.preempted.filter (· != c) }
/-- An OVERRUN escalation. -/
theorem escalate_eq (r c : Nat) (e : Exc) (X : Reed) (u : State) (fpc npc : W16) (hc : e.cause = causeOVERRUN) :
  escalate r c e 4 fpc npc (setReed r X u) = setReed r (escalatedReed r c e X u fpc npc)
     (fbRaise 0x0901 (overrunPayload r c (X.ctxOf c).sched.dom (X.ctxOf c).sched.tide) (fireSource (0x100 + r) u)) := by
  unfold escalate
  simp only []
  rw [if_pos hc]
  simp only [reedOf_setReed]
  rw [setReed_setReed, fireSource_setReed, fbRaise_setReed]
  rfl
/-- An overrun under ESCALATE. -/
theorem takeOverrun_esc (r c cause s) (h : (ctxAt s r c).sched.resumed = false) (hp : entryPol (ctxAt s r c).sched.entry = 2) :
  let pay := overrunPayload r c (ctxAt s r c).sched.dom (ctxAt s r c).sched.tide
  takeOverrun r c cause s = setReed r (escalatedReed r c { cause := causeOVERRUN, sub := cause.code } (overrunReed r c cause s) (fbRaise (0x0A00 + cause.code) pay s) (ctxAt s r c).run.pc (ctxAt s r c).run.pc)
     (fbRaise 0x0901 pay (fireSource (0x100 + r) (fbRaise (0x0A00 + cause.code) pay s))) := by
  have h' : ¬ ((reedOf s r).ctxOf c).sched.resumed = true := by unfold ctxAt at h; rw [h]; decide
  have hp' : entryPol ((reedOf s r).ctxOf c).sched.entry = 2 := hp
  have hk := (ctxOf_of_ctx (overrunReed_ctx r c cause s)).1
  have : takeOverrun r c cause s = escalate r c { cause := causeOVERRUN, sub := cause.code } 4 (ctxAt s r c).run.pc (ctxAt s r c).run.pc (setReed r (overrunReed r c cause s) (fbRaise (0x0A00 + cause.code) (overrunPayload r c (ctxAt s r c).sched.dom (ctxAt s r c).sched.tide) s)) := by
    unfold takeOverrun
    simp only []
    rw [if_neg h', if_pos hp', fbRaise_setReed]
    rfl
  rw [this, escalate_eq _ _ _ _ _ _ _ rfl, hk]
  rfl
/-- What an escalation leaves. -/
theorem escalatedReed_facts {r c cause s X} {u : State} (e : Exc) (fpc npc) (h : OverrunReed r c cause s X) (hX : X.ctxOf c = overrunCtx cause (ctxAt s r c))
   (hu : ∀ d, domOf u d = domOf s d)
   (ht : (ctxAt s r c).sched.tide = (domOf s (ctxAt s r c).sched.dom).tide) :
   OverrunReed r c cause s (escalatedReed r c e X u fpc npc) ∧ ((escalatedReed r c e X u fpc npc).ctxOf c).run = (ctxAt s r c).run ∧
     ((escalatedReed r c e X u fpc npc).ctxOf c).sched.phase = .idle ∧ ((escalatedReed r c e X u fpc npc).ctxOf c).page.halted = true := by
  have ht' : (X.ctxOf c).sched.tide = (domOf u (X.ctxOf c).sched.dom).tide := by rw [hX, hu]; exact ht
  have hctx : (escalatedReed r c e X u fpc npc).ctx = Tab.set X.ctx c { (X.ctxOf c) with page := ((X.ctxOf c).page.escalated e 4 (X.ctxOf c).run.frames.length fpc npc).mark (X.ctxOf c).sched.beats, sched := { (X.ctxOf c).sched with phase := .idle, due := none } } := by
    unfold escalatedReed endRun; simp only []; rw [if_pos ht']; split <;> rfl
  obtain ⟨h1, h2⟩ := ctxOf_of_ctx hctx
  have hprog : (escalatedReed r c e X u fpc npc).progress = Tab.set X.progress (ctxAt s r c).sched.dom { ended := putBit (Tab.get {} X.progress (ctxAt s r c).sched.dom).ended (ctxAt s r c).sched.pos true } := by
    unfold escalatedReed endRun; simp only []; rw [if_pos ht', hX]; split <;> rfl
  have hesc : ∀ (p : CtxPage), (p.escalated e 4 (X.ctxOf c).run.frames.length fpc npc).ovrCause = p.ovrCause ∧ (p.escalated e 4 (X.ctxOf c).run.frames.length fpc npc).ovrCount = p.ovrCount ∧ (p.escalated e 4 (X.ctxOf c).run.frames.length fpc npc).slack = p.slack ∧ (p.escalated e 4 (X.ctxOf c).run.frames.length fpc npc).wmark = p.wmark ∧ (p.escalated e 4 (X.ctxOf c).run.frames.length fpc npc).halted = true := by
    intro p; unfold CtxPage.escalated; split <;> exact ⟨rfl, rfl, rfl, rfl, rfl⟩
  refine ⟨⟨?_, ?_, ?_, ?_, ?_, ?_, ?_, ?_, ?_, ?_, ?_, ?_⟩, ?_, ?_, ?_⟩
  · rw [← h.stores]; unfold escalatedReed endRun; simp only []; rw [if_pos ht']; split <;> rfl
  · have := h.running
    by_cases hr : X.running = some c
    · rw [hr] at this; split at this
      · cases this
      · rename_i h3; exact absurd this.symm h3
    · rw [← this]; unfold escalatedReed endRun; simp only []; rw [if_pos ht', if_neg hr]; rfl
  · rw [← h.preempted]; unfold escalatedReed endRun; simp only []; rw [if_pos ht']; split <;> first | rfl | (show List.filter _ (List.filter _ _) = _; rw [List.filter_filter]; simp; rfl)
  · intro hr
    have := h.running
    rw [if_neg hr] at this
    unfold escalatedReed endRun; simp only []; rw [if_pos ht', if_neg (by rw [this]; exact hr)]; show c ∉ List.filter _ _; simp
  · rw [← h.page]; unfold escalatedReed endRun; simp only []; rw [if_pos ht']; split <;> rfl
  · intro hh; rw [hprog, Tab.get_set, if_pos rfl]; exact bitOf_putBit8 _ _ hh
  · intro d hd; rw [h2 d hd]; exact h.others d hd
  · rw [h1]; exact h.regs
  · rw [h1]; exact (hesc _).1.trans h.oc
  · rw [h1]; exact (hesc _).2.1.trans h.on
  · rw [h1]; exact (hesc _).2.2.1.trans h.sl
  · rw [h1]; show max _ _ = _; rw [(hesc _).2.2.2.1, h.wm, hX]; show max (max _ _) _ = _; rw [Nat.max_assoc]; congr 1; exact Nat.max_self _
  · rw [h1]; show (X.ctxOf c).run = _; rw [hX]; rfl
  · rw [h1]
  · rw [h1]; exact (hesc _).2.2.2.2
/-- The sources after one fires. -/
theorem fire_srcs (n s u) (h : u.srcs = s.srcs) : (fireSource n u).srcs = (fireSource n s).srcs := by
  unfold fireSource; simp only []; split <;> split <;> simp [h]
/-- Everything that taking an overrun does, in the tide of the run (R28 to R30, R36). -/
theorem overran_take (r c cause s) (ht : (ctxAt s r c).sched.tide = (domOf s (ctxAt s r c).sched.dom).tide) : Overran r c cause s (takeOverrun r c cause s) := by
  obtain ⟨hX, hXc⟩ := overrunReed_facts r c cause s ht
  by_cases hres : (ctxAt s r c).sched.resumed = true
  · rw [takeOverrun_resumed _ _ _ _ hres]
    refine overran_of hX.discard (by refine ⟨?_,?_,?_,?_,?_,?_,?_,?_,?_,?_,?_,?_,?_⟩ <;> rfl) rfl (fun _ => rfl) ?_
    unfold overrunRest
    simp only []
    rw [if_pos hres]
    obtain ⟨a1, a2, a3, a4, a5, a6, a7, a8, a9, a10⟩ := discard_facts c (overrunReed r c cause s)
    unfold ctxAt; rw [reedOf_setReed]
    refine ⟨⟨?_, a9, ?_⟩, rfl, rfl⟩
    · rw [a8, hXc]; rfl
    · rw [a10]
  · have hres' : (ctxAt s r c).sched.resumed = false := by simpa using hres
    by_cases hp : entryPol (ctxAt s r c).sched.entry = 2
    · rw [takeOverrun_esc _ _ _ _ hres' hp]
      obtain ⟨g1, g2, g3, g4⟩ := escalatedReed_facts (u := (fbRaise (0x0A00 + cause.code) (overrunPayload r c (ctxAt s r c).sched.dom (ctxAt s r c).sched.tide) s)) { cause := causeOVERRUN, sub := cause.code } (ctxAt s r c).run.pc (ctxAt s r c).run.pc hX hXc (fun _ => rfl) ht
      refine overran_of g1 ?_ ?_ ?_ ?_
      · refine ⟨?_,?_,?_,?_,?_,?_,?_,?_,?_,?_,?_,?_,?_⟩ <;> simp
      · simp
      · intro q; unfold reedOf; simp
      · unfold overrunRest; simp only []; rw [if_neg hres, if_pos hp]
        have e : ∀ Z F, ctxAt (setReed r Z F) r c = Z.ctxOf c := by intro Z F; unfold ctxAt; rw [reedOf_setReed]
        rw [e]
        refine ⟨g2, g3, g4, rfl, ?_⟩
        show (fireSource _ _).srcs = _
        exact fire_srcs _ _ _ rfl
    · rw [takeOverrun_other _ _ _ _ hres' hp ht]
      have e : ∀ Z F, ctxAt (setReed r Z F) r c = Z.ctxOf c := by intro Z F; unfold ctxAt; rw [reedOf_setReed]
      have fk : FarBlocksKept s (fbRaise (0x0A00 + cause.code) (overrunPayload r c (ctxAt s r c).sched.dom (ctxAt s r c).sched.tide) s) := by refine ⟨?_,?_,?_,?_,?_,?_,?_,?_,?_,?_,?_,?_,?_⟩ <;> rfl
      by_cases h1 : cause = .start
      · rw [if_pos h1]
        refine overran_of hX fk rfl (fun _ => rfl) ?_
        unfold overrunRest; simp only []; rw [if_neg hres, if_neg hp, if_pos h1, e, hXc]; exact ⟨rfl, rfl, rfl, rfl⟩
      · rw [if_neg h1]
        by_cases h2 : entryPol (ctxAt s r c).sched.entry = 1
        · rw [if_pos h2]
          generalize hZ : Reed.setCtx _ _ _ = Z
          have hz : Z.ctx = Tab.set (overrunReed r c cause s).ctx c { ((overrunReed r c cause s).ctxOf c) with page := { ((overrunReed r c cause s).ctxOf c).page with skipping := true }, sched := { ((overrunReed r c cause s).ctxOf c).sched with phase := .suspended } } := by rw [← hZ]; rfl
          obtain ⟨b1, b2⟩ := ctxOf_of_ctx hz
          refine overran_of ⟨?_, ?_, ?_, ?_, ?_, ?_, ?_, ?_, ?_, ?_, ?_, ?_⟩ fk rfl (fun _ => rfl) ?_
          · rw [← hX.stores, ← hZ]; rfl
          · rw [← hX.running, ← hZ]; rfl
          · rw [← hX.preempted, ← hZ]; rfl
          · intro h; rw [← hZ]; exact hX.notIn h
          · rw [← hX.page, ← hZ]; rfl
          · rw [← hZ]; exact hX.ended
          · intro d hd; rw [b2 d hd]; exact hX.others d hd
          · rw [b1]; exact hX.regs
          · rw [b1]; exact hX.oc
          · rw [b1]; exact hX.on
          · rw [b1]; exact hX.sl
          · rw [b1]; exact hX.wm
          · unfold overrunRest; simp only []; rw [if_neg hres, if_neg hp, if_neg h1, if_pos h2, e, b1, hXc]; exact ⟨rfl, rfl, rfl, rfl, rfl⟩
        · rw [if_neg h2]
          refine overran_of hX.discard fk rfl (fun _ => rfl) ?_
          obtain ⟨a1, a2, a3, a4, a5, a6, a7, a8, a9, a10⟩ := discard_facts c (overrunReed r c cause s)
          unfold overrunRest; simp only []; rw [if_neg hres, if_neg hp, if_neg h1, if_neg h2, e]
          refine ⟨rfl, rfl, ?_, a9, ?_⟩
          · rw [a8, hXc]; rfl
          · rw [a10]

end Sys2Proof.Machine
end

section
/-! SUPPORT. A device state reached: what its entry changes, what every entry leaves alone, and that the sources, links, ports
and timers that follow it reach nothing of the device's core (R8, R9, R10, R335, R344, R350, R394). -/

namespace Sys2Proof.Machine

/-! ### The device's core -/

/-- Two states hold the same queue, memory, device registers, reeds, beds, clock, sparing map and trust record: what the
event sources, the links, the ports and the timers never reach. -/
structure CoreKept (s t : State) : Prop where
  pending : t.pending = s.pending
  mem : t.mem = s.mem
  glb : t.glb = s.glb
  pwr : t.pwr = s.pwr
  mer : t.mer = s.mer
  reeds : t.reeds = s.reeds
  binding : t.binding = s.binding
  beds : t.beds = s.beds
  sec : t.sec = s.sec

/-- A state keeps its own core. -/
theorem CoreKept.refl (s : State) : CoreKept s s := ⟨rfl, rfl, rfl, rfl, rfl, rfl, rfl, rfl, rfl⟩

/-- What keeps the core twice keeps it. -/
theorem CoreKept.trans {s t u : State} (h : CoreKept s t) (k : CoreKept t u) : CoreKept s u :=
  ⟨k.pending.trans h.pending, k.mem.trans h.mem, k.glb.trans h.glb, k.pwr.trans h.pwr, k.mer.trans h.mer,
    k.reeds.trans h.reeds, k.binding.trans h.binding, k.beds.trans h.beds, k.sec.trans h.sec⟩

/-- A fold keeps the core where each of its steps does. -/
theorem CoreKept.foldl {β : Type} {g : State → β → State} (h : ∀ t b, CoreKept t (g t b)) (l : List β) (s : State) :
    CoreKept s (l.foldl g s) :=
  foldl_preserves (CoreKept s) g (fun t b ht => ht.trans (h t b)) l s (.refl s)

/-- A source that fires keeps the core. -/
theorem coreKept_fireSource (n : Nat) (s : State) : CoreKept s (fireSource n s) := by constructor <;> simp

/-- An interrupt of a page keeps the core. -/
theorem coreKept_irqSet (pg : Nat) (m : W32) (s : State) : CoreKept s (irqSet pg m s) := by constructor <;> simp

/-- A report keeps the core. -/
theorem coreKept_fbRaise (code : Nat) (p : W64) (s : State) : CoreKept s (fbRaise code p s) := by constructor <;> rfl

/-- A link changed keeps the core. -/
theorem coreKept_setLink (l : Nat) (x : Link) (s : State) : CoreKept s (setLink l x s) := by constructor <;> rfl

/-- A pseudo-channel changed keeps the core. -/
theorem coreKept_setHbmPage (p : Nat) (x : HbmPage) (s : State) : CoreKept s (setHbmPage p x s) := by constructor <;> rfl

/-- A link that goes down keeps the core. -/
theorem coreKept_linkDown (l reason : Nat) (s : State) : CoreKept s (linkDown l reason s) := by
  unfold linkDown
  simp only []
  split
  · exact ((coreKept_setLink ..).trans (coreKept_irqSet ..)).trans (coreKept_fbRaise ..)
  · exact coreKept_setLink ..

/-- A link that begins to train keeps the core. -/
theorem coreKept_startTraining (l : Nat) (s : State) : CoreKept s (startTraining l s) := by
  unfold startTraining
  simp only []
  split
  · exact coreKept_setLink ..
  · exact .refl s

/-- Emptying the Surveyors' stacks keeps the core. -/
theorem coreKept_emptyStacks (s : State) : CoreKept s (emptyStacks s) := by
  unfold emptyStacks
  exact CoreKept.trans (by constructor <;> rfl) (CoreKept.foldl (fun t n => coreKept_fireSource n t) _ _)

/-- The ports, timers and links that follow the device into a state keep the core. -/
theorem coreKept_arrive (was d : DevState) (s : State) : CoreKept s (arrive was d s) := by
  cases d
  case service =>
    unfold arrive
    simp only []
    split
    · exact CoreKept.trans (by constructor <;> rfl) (CoreKept.foldl (fun t l => coreKept_startTraining l t) _ _)
    · constructor <;> rfl
  all_goals constructor <;> rfl

/-! ### What every entry leaves alone -/

/-- Two states have the same queue, clock, supply, sparing map and state of transition. -/
structure ControlKept (s t : State) : Prop where
  pending : t.pending = s.pending
  mer : t.mer = s.mer
  pwr : t.pwr = s.pwr
  binding : t.binding = s.binding
  state : t.glb.state = s.glb.state
  target : t.glb.target = s.glb.target
  waiting : t.glb.waiting = s.glb.waiting

/-- What keeps the core keeps the state of transition. -/
theorem CoreKept.control {s t : State} (h : CoreKept s t) : ControlKept s t :=
  ⟨h.pending, h.mer, h.pwr, h.binding, by rw [h.glb], by rw [h.glb], by rw [h.glb]⟩

/-- What keeps the state of transition twice keeps it. -/
theorem ControlKept.trans {s t u : State} (h : ControlKept s t) (k : ControlKept t u) : ControlKept s u :=
  ⟨k.pending.trans h.pending, k.mer.trans h.mer, k.pwr.trans h.pwr, k.binding.trans h.binding, k.state.trans h.state,
    k.target.trans h.target, k.waiting.trans h.waiting⟩

/-! ### Each entry -/

/-- A byte of a memory from which whole addresses are taken out. -/
theorem memGet_filter (p : Nat → Bool) (m : List Host.Cell) (a : Nat) :
    memGet (m.filter fun c => p c.1) a = if p a then memGet m a else 0 := by
  induction m with
  | nil => simp [memGet]
  | cons e m ih =>
    rw [List.filter_cons]
    by_cases he : e.1 = a
    · subst he
      by_cases hp : p e.1 = true
      · simp [memGet, hp]
      · simp [hp, ih]
    · split <;> simp [memGet, he, ih]

/-- What holds of the default and of every listed entry holds of every entry read. -/
theorem Tab.get_of_forall {α : Type} {P : α → Prop} {d : α} {t : Tab α} (hd : P d) (h : ∀ e ∈ t, P e.2) (k : Nat) :
    P (Tab.get d t k) := by
  induction t with
  | nil => exact hd
  | cons e t ih =>
    simp only [Tab.get]
    split
    · exact h e (List.mem_cons_self ..)
    · exact ih fun f hf => h f (List.mem_cons_of_mem _ hf)

/-- Start-up loses what the reeds and beds held, the LKEK and the firmware, and counts a boot attempt (R335, R350). -/
theorem enterStartup_loses (s : State) :
    let t := enterStartup s
    t.reeds = [] ∧ t.beds = [] ∧ t.mem = s.mem ∧ t.sec.count = satInc 7 s.sec.count ∧ t.sec.lkek = none ∧
      t.sec.fw = false ∧ t.sec.starting = true ∧ t.sec.step = 1 ∧ t.sec.forceHost = s.sec.forceHost ∧ t.sec.otp = s.sec.otp := by
  have h := coreKept_emptyStacks (zeroise (resetCompute s))
  refine ⟨h.reeds, h.beds, h.mem, ?_, ?_, rfl, rfl, rfl, ?_, ?_⟩
  · exact congrArg (fun x => satInc 7 x.count) h.sec
  · exact congrArg Sec.lkek h.sec
  · exact (congrArg Sec.forceHost h.sec :)
  · exact (congrArg Sec.otp h.sec :)

/-- Start-up keeps the state of transition. -/
theorem enterStartup_control (s : State) : ControlKept s (enterStartup s) :=
  ControlKept.trans (t := zeroise (resetCompute s)) (by constructor <;> rfl)
    ((coreKept_emptyStacks _).control.trans (by constructor <;> rfl))

/-- Recovery clears RUN on every reed (R10). -/
theorem enterRecovery_runOn (reason : Nat) (s : State) (r : Nat) : (reedOf (enterRecovery reason s) r).page.runOn = false := by
  refine Tab.get_of_forall (P := fun x : Reed => x.page.runOn = false) rfl (fun e he => ?_) r
  obtain ⟨f, -, rfl⟩ := List.mem_map.1 he
  rfl

/-- Dormant keeps of all that it resets and clears what the links and HBM do not reach (R9). -/
theorem coreKept_enterDormant (s : State) : CoreKept (resetCompute (clearReedMem s)) (enterDormant s) := by
  unfold enterDormant
  refine CoreKept.trans (CoreKept.foldl (fun t l => ?_) _ _) (CoreKept.foldl (fun t p => coreKept_setHbmPage ..) _ _)
  split
  · exact .refl t
  · exact coreKept_linkDown ..

/-- The return from Dormant keeps the state of transition (R9). -/
theorem leaveDormant_control (s : State) : ControlKept s (leaveDormant s) := by
  unfold leaveDormant
  exact ControlKept.trans (by constructor <;> rfl) (CoreKept.foldl (fun t p => coreKept_setHbmPage ..) _ _).control

/-- Reed memories and bed pools read 0 once cleared, and no other byte changes (R9, R48, R171). -/
theorem memGet_clearReedMem (s : State) (a : Nat) : memGet (clearReedMem s).mem a =
    if (2 * 0x1000000 ≤ a ∧ a < 2 * 0x1000000 + 544 * 0x80000) ∨ (2 * 0x10000000 ≤ a ∧ a < 2 * 0x14000000)
    then 0 else memGet s.mem a := by
  refine (memGet_filter (fun a => !((2 * 0x1000000 ≤ a && a < 2 * (0x1000000 + 544 * 0x40000)) ||
    (2 * 0x10000000 ≤ a && a < 2 * 0x14000000))) s.mem a).trans ?_
  simp only [Bool.not_eq_true', ← Bool.not_eq_true, Bool.or_eq_true, Bool.and_eq_true, decide_eq_true_eq, ite_not]

/-- Every entry keeps the queue, the clock, the supply, the sparing map and the state of transition. -/
theorem entryEffects_control (was d : DevState) (reason : Nat) (s : State) :
    ControlKept s (entryEffects was d reason s) := by
  cases d
  case startup => exact enterStartup_control s
  case dormant => exact ControlKept.trans (by constructor <;> rfl) (coreKept_enterDormant s).control
  case service =>
    unfold entryEffects
    simp only []
    split
    · exact leaveDormant_control s
    · exact (CoreKept.refl s).control
  all_goals constructor <;> rfl

/-! ### The transition -/

/-- The state with its target reached and nothing waiting, before any effect of the entry. -/
def atTarget (d : DevState) (s : State) : State :=
  { s with glb := { s.glb with state := d, target := none, waiting := [] } }

/-- The device in its target, its interrupt raised, before the triggers that waited. -/
def reached (d : DevState) (s : State) : State :=
  irqSet 1 2 (arrive s.glb.state d (entryEffects s.glb.state d s.glb.reason (atTarget d s)))

/-- A completed transition: the target is reached, then what waited is taken in order (R8, R394). -/
theorem exec_stateTransitionComplete {s : State} {d : DevState} (h : s.glb.target = some d) :
    exec .stateTransitionComplete s = .next (s.glb.waiting.foldl (fun v tr => trigger tr v) (reached d s)) := by
  show execStateTransitionComplete s = _
  unfold execStateTransitionComplete
  rw [h]
  rfl

/-- Of the core nothing changes after the entry effects. -/
theorem coreKept_reached (d : DevState) (s : State) :
    CoreKept (entryEffects s.glb.state d s.glb.reason (atTarget d s)) (reached d s) :=
  (coreKept_arrive ..).trans (coreKept_irqSet ..)

/-- GLB.IRQ_STAT.STATE is set as a target is reached (R394). -/
theorem reached_irqStat (d : DevState) (s : State) : bitOf (hdrOf (reached d s) 1).irqStat 1 = true := by
  unfold reached
  rw [irqStat_irqSet, bitOf_eq_getLsbD]
  simp

/-- Settles O31: the entry effects are those of the target, and the ports, the interrupt and the links that follow them reach
nothing of the device's core. -/
theorem transitionReachesItsTarget : Obligations.TransitionReachesItsTarget := by
  intro s
  refine ⟨fun h => ?_, fun d hd => ⟨reached d s, exec_stateTransitionComplete hd, ?_⟩⟩
  · show execStateTransitionComplete s = _
    unfold execStateTransitionComplete
    rw [h]
  have core := coreKept_reached d s
  have ctl := (entryEffects_control s.glb.state d s.glb.reason (atTarget d s)).trans core.control
  refine ⟨ctl.state, ctl.target, ctl.waiting, reached_irqStat d s, ctl.pending, ctl.mer, ctl.pwr, ctl.binding, ?_, ?_, ?_, ?_, ?_⟩
  · rintro rfl
    rw [core.reeds, core.beds, core.mem, core.sec]
    exact enterStartup_loses (atTarget .startup s)
  · rintro rfl
    rw [core.glb, core.mem, core.beds]
    exact ⟨rfl, rfl, rfl, rfl, fun r => by rw [reedOf_of core.reeds]; exact enterRecovery_runOn ..⟩
  · rintro rfl
    rw [core.glb, core.mem, core.sec]
    exact ⟨rfl, rfl, rfl, rfl⟩
  · rintro rfl
    have dorm := (coreKept_enterDormant (atTarget .dormant s)).trans core
    refine ⟨dorm.reeds, dorm.beds, dorm.sec, fun a => ?_⟩
    rw [dorm.mem]
    exact memGet_clearReedMem (atTarget .dormant s) a
  · intro h
    have quiet : entryEffects s.glb.state d s.glb.reason (atTarget d s) = atTarget d s := by
      rcases h with rfl | ⟨rfl, hs⟩
      · rfl
      · exact if_neg hs
    rw [quiet] at core
    exact ⟨core.reeds, core.beds, core.mem, core.sec⟩

end Sys2Proof.Machine
end

section
/-! SUPPORT. One step of the block (R6). -/

namespace Sys2Proof.Machine

/-- A tick of the wall time leaves the Field Book's queue and records alone (R358). -/
theorem fbkTick_keeps (hz : Nat) (f : Fbk) :
    (f.tick hz).queue = f.queue ∧ (f.tick hz).main = f.main ∧ (f.tick hz).next = f.next := by
  unfold Fbk.tick
  simp only []
  split <;> exact ⟨rfl, rfl, rfl⟩

/-- In Off the Meridian stands still (R6, R403). -/
theorem idleTick_off {s : State} (h : s.glb.state = .off) : idleTick s = s := if_pos h

/-- Outside Off an idle tick moves the tick counter and the Field Book's clocks (R6). -/
theorem idleTick_on {s : State} (h : s.glb.state ≠ .off) :
    idleTick s = { s with mer := { s.mer with ticks := s.mer.ticks + 1 }, fbk := Fbk.tick (tickHz s) s.fbk } := if_neg h

/-- A step with a command that waits runs the first of them with the rest. -/
theorem step_cons {s : State} {c : Instr} {rest : List Instr} (h : s.pending = c :: rest) :
    step s = exec c { s with pending := rest } := by
  unfold step
  rw [h]

/-- A step with an empty queue idles for one tick. -/
theorem step_nil {s : State} (h : s.pending = []) : step s = .next (idleTick s) := by
  unfold step
  rw [h]

/-- Settles O55, by the two cases of the queue and the idle tick in and outside Off. -/
theorem stepTakesTheFrontCommand : Obligations.StepTakesTheFrontCommand := by
  refine ⟨fun s c rest h => step_cons h, fun s h => ⟨fun hoff => ?_, fun hon => ?_⟩⟩
  · rw [step_nil h, idleTick_off hoff]
  · refine ⟨_, step_nil h, ?_⟩
    rw [idleTick_on hon]
    exact ⟨rfl, rfl, fbkTick_keeps (tickHz s) s.fbk⟩

end Sys2Proof.Machine
end

section
/-! SUPPORT. Sparing: the wear monitors, the retirements that the Surveyor takes, a migration's copy and its end, hard
failover and the substitution of a Surveyor (R10, R368 to R373, R375, R376, R384). -/

namespace Sys2Proof.Machine

/-! ### Wear monitors -/

/-- Eight low estimates in a row condemn a working reed (R368). -/
theorem exec_pceilEstimate {s : State} {r : Nat} (hr : r < 544) (hf : s.spr.failed.contains r = false) (pceil : Nat) :
    let p := s.spr
    let n := if pceil < max 1540 (fld p.wear 20 12) then Tab.get 0 p.pceilLow r + 1 else 0
    exec (.pceilEstimate r pceil) s = .next (if 8 ≤ n
      then condemn r false (fbRaise 0x0402 (payload r (pceil % 65536))
        { s with spr := { p with pceilLow := Tab.set p.pceilLow r 0 } })
      else { s with spr := { p with pceilLow := Tab.set p.pceilLow r n } }) := by
  intro p n
  show execPceilEstimate r pceil s = _
  unfold execPceilEstimate
  rw [if_neg (Nat.not_le.2 hr), if_neg (by rw [hf]; decide)]
  show Host.Outcome.next
    (let u := setSpr { p with pceilLow := Tab.set p.pceilLow r (if 8 ≤ n then 0 else n) } s
      if 8 ≤ n then condemn r false (fbRaise 0x0402 (payload r (pceil % 65536)) u) else u) = _
  by_cases h : 8 ≤ n
  · simp only [if_pos h]; rfl
  · simp only [if_neg h]; rfl

/-- Three bad windows in a row condemn a working reed (R368). -/
theorem exec_reedEccWindow {s : State} {r : Nat} (hr : r < 544) (hf : s.spr.failed.contains r = false) (ce : Nat) :
    let p := s.spr
    let n := if fld p.wear 14 6 ≤ ce then Tab.get 0 p.ceHigh r + 1 else 0
    exec (.reedEccWindow r ce) s = .next (if 3 ≤ n
      then condemn r false { s with spr := { p with ceHigh := Tab.set p.ceHigh r 0 } }
      else { s with spr := { p with ceHigh := Tab.set p.ceHigh r n } }) := by
  intro p n
  show execReedEccWindow r ce s = _
  unfold execReedEccWindow
  rw [if_neg (Nat.not_le.2 hr), if_neg (by rw [hf]; decide)]
  show Host.Outcome.next
    (let u := setSpr { p with ceHigh := Tab.set p.ceHigh r (if 3 ≤ n then 0 else n) } s
      if 3 ≤ n then condemn r false u else u) = _
  by_cases h : 3 ≤ n
  · simp only [if_pos h]; rfl
  · simp only [if_neg h]; rfl

/-! ### The next retirement -/

/-- A fold that keeps its best or takes the entry at hand ends with an entry of its list or with the best it began with. -/
theorem foldl_best_mem {α : Type} {f : Option α → α → Option α} (hf : ∀ b e, f b e = b ∨ f b e = some e) (l : List α)
    (b : Option α) {a : α} (h : l.foldl f b = some a) : a ∈ l ∨ b = some a := by
  induction l generalizing b with
  | nil => exact .inr h
  | cons e l ih =>
    rcases ih (f b e) h with hm | hb
    · exact .inl (List.mem_cons_of_mem _ hm)
    · rcases hf b e with hk | hk
      · exact .inr (hk ▸ hb)
      · rw [hk, Option.some.injEq] at hb
        exact .inl (hb ▸ List.mem_cons_self ..)

/-- The chosen spare is an idle reed of the device (R370). -/
theorem spareFor_idle {s : State} {worn sp : Nat} (h : spareFor s worn = some sp) :
    sp ∈ List.range 544 ∧ idleSpare s sp = true := by
  unfold spareFor at h
  refine (foldl_best_mem (fun b e => ?_) _ _ h).elim (fun hm => List.mem_filter.1 hm) (fun hn => nomatch hn)
  cases b with
  | none => exact .inr rfl
  | some b =>
    dsimp only
    split
    · exact .inr rfl
    · exact .inl rfl

/-- The device states in which reeds migrate, as propositions. -/
theorem sparingState_of {s : State} (hfw : s.sec.fw = true)
    (hst : s.glb.state = .service ∨ s.glb.state = .test ∨ s.glb.state = .recovery) : sparingState s = true := by
  unfold sparingState
  rw [hfw]
  rcases hst with h | h | h <;> rw [h] <;> rfl

/-- The Surveyor takes the retirement at the front of the queue (R369). -/
theorem exec_migrationStart {s : State} {q : Retirement} {rest : List Retirement} {worn : Nat} (hs : sparingState s = true)
    (hp : s.spr.phase = .idle ∨ s.spr.phase = .hostWait) (hq : s.spr.queue = q :: rest) (hw : physOf s q.lreed = some worn) :
    exec .migrationStart s = .next (takeRetirement q worn { s with spr := { s.spr with queue := rest } }) := by
  show execMigrationStart s = _
  unfold execMigrationStart
  rw [if_neg (by rw [hs]; rcases hp with h | h <;> rw [h] <;> decide), hq]
  simp only [hw]
  rfl

/-- With no spare a retirement is refused (R369). -/
theorem takeRetirement_none {s : State} {worn : Nat} (q : Retirement) (h : spareFor s worn = none) :
    takeRetirement q worn s = refuseRetirement q s := by
  unfold takeRetirement
  rw [h]

/-- With a spare a retirement begins its copy, but a planned one that crosses beds and does not fit waits for the host
(R370). -/
theorem takeRetirement_some {s : State} {worn sp : Nat} (q : Retirement) (h : spareFor s worn = some sp) :
    let note := fbRaise 0x0504 (sparePayload worn sp q.lreed q.urgent (Tab.get 0xFFFF s.spr.xcost q.lreed))
    takeRetirement q worn s =
      if sp / 17 = worn / 17 then beginCopy q worn sp s
      else if q.urgent = true then beginCopy q worn sp (note s)
      else if q.force = true ∨ crossFits s q.lreed worn = true then beginCopy q worn sp s
      else irqSet 6 2 (note { s with spr := { s.spr with phase := .hostWait, now := q, spare := sp, worn := worn } }) := by
  unfold takeRetirement
  rw [h]
  simp only [bedAt, Bool.not_eq_true', bne_eq_false_iff_eq, Bool.or_eq_true]
  rfl

/-! ### The copy -/

/-- A byte that the first part of a memory does not list is read from the rest. -/
theorem memGet_append_right {m n : List Host.Cell} {a : Nat} (h : ∀ c ∈ m, c.1 ≠ a) : memGet (m ++ n) a = memGet n a := by
  induction m with
  | nil => rfl
  | cons e m ih =>
    rw [List.cons_append, memGet, if_neg (h e (List.mem_cons_self ..))]
    exact ih fun c hc => h c (List.mem_cons_of_mem _ hc)

/-- A byte that the last part of a memory does not list is read from what precedes. -/
theorem memGet_append_left {m n : List Host.Cell} {a : Nat} (h : ∀ c ∈ n, c.1 ≠ a) : memGet (m ++ n) a = memGet m a := by
  induction m with
  | nil => simpa [memGet] using memGet_append_right (n := []) h
  | cons e m ih => rw [List.cons_append, memGet, memGet, ih]

/-- A range of a memory moved from `f` to `t` reads at its new place as it did at its old one. -/
theorem memGet_moved (f t n : Nat) (m : List Host.Cell) {i : Nat} (hi : i < n) :
    memGet ((m.filter fun c => decide (f ≤ c.1 ∧ c.1 < f + n)).map fun c => (c.1 - f + t, c.2)) (t + i) = memGet m (f + i) := by
  induction m with
  | nil => rfl
  | cons e m ih =>
    rw [List.filter_cons]
    by_cases he : f ≤ e.1 ∧ e.1 < f + n
    · have hmoved : e.1 - f + t = t + i ↔ e.1 = f + i := by omega
      rw [if_pos (decide_eq_true he), List.map_cons, memGet, memGet, ih]
      simp only [hmoved]
    · rw [if_neg (by simpa using he), ih, memGet, if_neg (by omega)]

/-- Every byte that the copy moves lies in the spare (R371). -/
theorem moved_in_range {f t n : Nat} {m : List Host.Cell} {c : Host.Cell}
    (h : c ∈ (m.filter fun c => decide (f ≤ c.1 ∧ c.1 < f + n)).map fun c => (c.1 - f + t, c.2)) : t ≤ c.1 ∧ c.1 < t + n := by
  obtain ⟨e, he, rfl⟩ := List.mem_map.1 h
  have := of_decide_eq_true (List.mem_filter.1 he).2
  show t ≤ e.1 - f + t ∧ e.1 - f + t < t + n
  omega

/-- After the copy the spare's bytes are the worn reed's (R371). -/
theorem memGet_copyReedBytes_spare (worn spare : Nat) (m : List Host.Cell) {i : Nat} (hi : i < 0x80000) :
    memGet (copyReedBytes worn spare m) (2 * reedBase spare + i) = memGet m (2 * reedBase worn + i) := by
  unfold copyReedBytes
  simp only []
  rw [memGet_append_left, memGet_append_right]
  · exact memGet_moved _ _ _ m hi
  · intro c hc
    have := of_decide_eq_true (List.mem_filter.1 hc).2
    omega
  · intro c hc
    have := of_decide_eq_true (List.mem_filter.1 hc).2
    omega

/-- The copy leaves every byte outside the spare alone (R371). -/
theorem memGet_copyReedBytes_other (worn spare : Nat) (m : List Host.Cell) {b : Nat}
    (hb : b < 2 * reedBase spare ∨ 2 * reedBase spare + 0x80000 ≤ b) :
    memGet (copyReedBytes worn spare m) b = memGet m b := by
  unfold copyReedBytes
  simp only []
  rcases hb with hb | hb
  · rw [memGet_append_left, memGet_append_left]
    · exact (memGet_filter (fun a => decide (a < 2 * reedBase spare)) m b).trans (if_pos (decide_eq_true hb))
    · intro c hc
      have := moved_in_range hc
      omega
    · intro c hc
      have := of_decide_eq_true (List.mem_filter.1 hc).2
      omega
  · rw [memGet_append_right]
    · exact (memGet_filter (fun a => decide (2 * reedBase spare + 0x80000 ≤ a)) m b).trans (if_pos (decide_eq_true hb))
    · intro c hc
      rcases List.mem_append.1 hc with hc | hc
      · have := of_decide_eq_true (List.mem_filter.1 hc).2
        omega
      · have := moved_in_range hc
        omega

/-- The end of a copy begins the shadow run (R371). -/
theorem exec_migrationCopyComplete {s : State} (h : s.spr.phase = .copy) :
    exec .migrationCopyComplete s =
      .next { copyReed s.spr.worn s.spr.spare s with spr := { s.spr with phase := .shadow, tides := 0 } } := by
  show execMigrationCopyComplete s = _
  unfold execMigrationCopyComplete
  rw [if_neg (not_not_intro h)]
  rfl

/-! ### A migration abandoned and tried again -/

/-- 64 tides of the shadow run abandon the migration (R372). -/
theorem exec_migrationAbandon {s : State} (hp : s.spr.phase = .shadow) (ht : 64 ≤ s.spr.tides) :
    exec .migrationAbandon s = .next (abandon s) := if_pos ⟨hp, ht⟩

/-- An abandoned planned retirement waits for its retry, and nothing of the reeds, the map or the memory changes (R372). -/
theorem abandon_planned {s : State} (h : s.spr.now.urgent = false) :
    let t := abandon s
    let p := s.spr
    t.spr = { p with phase := .idle, tides := 0
                     retries := p.retries ++ [{ p.now with notBefore := now s + fld p.wear 0 8 * 2 ^ 20 }] } ∧
      t.binding = s.binding ∧ t.reeds = s.reeds ∧ t.mem = s.mem := by
  unfold abandon
  simp only [h, Bool.not_false, if_true]
  refine ⟨?_, ?_, ?_, ?_⟩ <;> simp [setSpr, Spr.retryTicks]

/-- A retirement whose delay has passed waits in the queue again (R372). -/
theorem exec_migrationRetry {s : State} {q : Retirement} {rest : List Retirement} (h : s.spr.retries = q :: rest)
    (hn : q.notBefore ≤ now s) : exec .migrationRetry s =
      .next { s with spr := { s.spr with retries := rest, queue := queueRetirement q s.spr.queue } } := by
  show execMigrationRetry s = _
  unfold execMigrationRetry
  rw [h]
  exact if_pos hn

/-- GO and GO with FORCE retire the logical reed they name, unless it is VACANT (R370, R384). -/
theorem writes_migGo {l : Nat} (hl : l < 512) (ag : Nat) (s : State) :
    let u : State := { s with spr := { s.spr with migSel := l } }
    Writes (.migGo ag l) ag 0x6048 s (if (physOf s l).isSome then retireReed l false false u else u) ∧
      Writes (.migGoForce ag l) ag 0x6048 s (if (physOf s l).isSome then retireReed l false true u else u) :=
  ⟨writes_of (f := migGo l false) (if_neg (Nat.not_le.2 hl)) rfl, writes_of (f := migGo l true) (if_neg (Nat.not_le.2 hl)) rfl⟩

/-! ### Hard failover and the Surveyors -/

/-- A running context that waits on nothing and stalls fails its reed over (R368, R375). -/
theorem exec_handshakeStall {s : State} {r l : Nat} (hr : r < 544) (hl : logicalOf s r = some l) (hs : sparingState s = true)
    (hrun : (reedOf s r).running.isSome = true) (hw : (reedOf s r).wait = none) :
    exec (.handshakeStall r) s = .next (hardFailover l r s) := by
  show execHandshakeStall r s = _
  unfold execHandshakeStall
  rw [if_neg (Nat.not_le.2 hr)]
  simp only [hl]
  exact if_pos (by rw [hs, hrun, hw]; rfl)

/-- A reload that ends puts the contexts' images on the reed, which starts them at the next boundary (R375). -/
theorem exec_failoverReloadComplete {s : State} {l r : Nat} {run : Bool} (hl : s.spr.reload.lookup l = some run)
    (hr : physOf s l = some r) :
    let u := reloadImages l r s
    let x := closeTides (reedOf u r)
    let v := setReed r { x with page := { x.page with runOn := run } } u
    exec (.failoverReloadComplete l) s = .next (irqSet 6 1
      { v with spr := { v.spr with reload := v.spr.reload.filter fun e => e.1 != l } }) := by
  show execFailoverReloadComplete l s = _
  unfold execFailoverReloadComplete
  rw [hl, hr]
  rfl

/-- A silent Surveyor's number goes to the first idle one (R376). -/
theorem exec_surveyorWatchdog_idle {s : State} {n k : Nat} {rest : List Nat} (hn : n < 6) (hfw : s.sec.fw = true)
    (h : s.spr.survIdle = k :: rest) : exec (.surveyorWatchdog n) s =
      .next (fbRaise 0x0507 (BitVec.ofNat 64 (n + k * 16)) (dropClaims n { s with spr := { s.spr with
        survMap := Tab.set s.spr.survMap n k, survFailed := insertNat (s.spr.survOf n) s.spr.survFailed } })) := by
  show execSurveyorWatchdog n s = _
  unfold execSurveyorWatchdog
  rw [if_neg (Nat.not_le.2 hn), if_neg (by rw [hfw]; decide)]
  simp only [h]
  rfl

/-- With no Surveyor idle a silent one is a fault of R10 (R10, R376). -/
theorem exec_surveyorWatchdog_none {s : State} {n : Nat} (hn : n < 6) (hfw : s.sec.fw = true) (h : s.spr.survIdle = []) :
    exec (.surveyorWatchdog n) s =
      .next (trigger (.fault 1) { s with spr := { s.spr with survFailed := insertNat (s.spr.survOf n) s.spr.survFailed } }) := by
  show execSurveyorWatchdog n s = _
  unfold execSurveyorWatchdog
  rw [if_neg (Nat.not_le.2 hn), if_neg (by rw [hfw]; decide)]
  simp only [h]
  rfl

/-- Settles O53, a row at a time: the lemma of each row, and for the copy where each byte of the spare comes from. -/
theorem wornReedsMigrate : Obligations.WornReedsMigrate := by
  intro s
  refine ⟨fun r pceil hr hf => exec_pceilEstimate hr hf pceil, fun r ce hr hf => exec_reedEccWindow hr hf ce, ?start, ?copy,
    fun hp ht hu => ⟨_, exec_migrationAbandon hp ht, abandon_planned hu⟩, fun q rest h hn => exec_migrationRetry h hn,
    fun ag l hl => writes_migGo hl ag s,
    fun r l hr hl ⟨hfw, hst⟩ hrun hw => exec_handshakeStall hr hl (sparingState_of hfw hst) hrun hw,
    fun l r run hl hr => exec_failoverReloadComplete hl hr,
    fun n hn hfw => ⟨fun k rest h => exec_surveyorWatchdog_idle hn hfw h, fun h => exec_surveyorWatchdog_none hn hfw h⟩⟩
  case start =>
    intro q rest worn ⟨hfw, hst⟩ hp hq hw
    rw [exec_migrationStart (sparingState_of hfw hst) hp hq hw]
    refine ⟨fun h => congrArg _ (takeRetirement_none q h), fun sp h => ?_⟩
    obtain ⟨hmem, hidle⟩ := spareFor_idle h
    exact ⟨hmem, hidle, congrArg _ (takeRetirement_some q h)⟩
  case copy =>
    intro hp _ _ _ hwf
    exact ⟨_, exec_migrationCopyComplete hp, rfl, copyReedBytes_wf _ _ hwf, fun b hb => memGet_copyReedBytes_spare _ _ _ hb,
      fun b hb => memGet_copyReedBytes_other _ _ _ hb, rfl⟩

end Sys2Proof.Machine
end

section
/-! SUPPORT. A reed's tide table: the writes of its RED page, the contexts that start, resume or are passed over, and the
overruns (R20 to R30, R36, R40, R51, R53). -/

namespace Sys2Proof.Machine

/-! ### Writes of the RED page -/

/-- WMCLR for one context (R36). -/
def unmark (x : Reed) (c : Nat) : Reed :=
  x.setCtx c { x.ctxOf c with page := { (x.ctxOf c).page with wmark := 0, slack := 0x3FFFFF } }

/-- Clearing marks changes nothing of a reed but its contexts. -/
theorem foldl_unmark_eq (l : List Nat) (x : Reed) : l.foldl unmark x = { x with ctx := (l.foldl unmark x).ctx } := by
  induction l generalizing x with
  | nil => rfl
  | cons c l ih =>
    rw [List.foldl_cons, ih (unmark x c)]
    rfl

/-- Clearing marks clears those of the contexts named, and of no other. -/
theorem ctxOf_foldl_unmark (l : List Nat) (x : Reed) (c : Nat) : (l.foldl unmark x).ctxOf c =
    if c ∈ l then { x.ctxOf c with page := { (x.ctxOf c).page with wmark := 0, slack := 0x3FFFFF } } else x.ctxOf c := by
  induction l generalizing x with
  | nil => rfl
  | cons b l ih =>
    rw [List.foldl_cons, ih]
    by_cases hb : c = b
    · subst hb
      simp [unmark]
    · simp [unmark, hb, ctxOf_setCtx_other _ _ _ _ hb]

/-- WMCLR clears the marks of the eight contexts and PACE.MIN (R36). -/
theorem clearMarks_eq (x : Reed) :
    clearMarks x = { (List.range 8).foldl unmark x with page := { x.page with paceMin := 0xFFFF } } := by
  rw [foldl_unmark_eq]
  rfl

/-- A descriptor as it is stored, in one expression (R51). -/
theorem commitParcel_eq (ag r : Nat) (v : W32) (s : State) :
    let x := reedOf s r
    let c := fld x.page.pdSel 4 3
    let k := ctxAt s r c
    let part := fun i => (Tab.get 0 x.page.pdData i : W32)
    let d : W128 := v ++ part 2 ++ part 1 ++ part 0
    let priv := bitOf k.page.cfgNext 1
    let stored := if pdValid priv d then d else putBit d 127 false
    let t := setReed r (x.setCtx c { k with page :=
      { k.page with pdNext := Tab.set k.page.pdNext (fld x.page.pdSel 0 4) (some stored) } }) s
    commitParcel ag r v s =
      if pdValid priv d then t else glbErr 5 (agentOf ag) ((0x10000D0 + 0x1000 * r) / 4) t := by
  intro x c k part d priv stored t
  have hoff : redOff r 0xD0 = 0x10000D0 + 0x1000 * r := by unfold redOff; omega
  unfold commitParcel
  rw [hoff]
  rfl

/-- Settles O22: each row is a write of the RED page, so what the page's operation leaves is what it answers. -/
theorem reedRegistersTakeTheirWrites : Obligations.ReedRegistersTakeTheirWrites := by
  intro s ag r v hr x w
  have unit : ¬ 544 ≤ r := Nat.not_le.2 hr
  refine ⟨writesRed_of (if_neg unit) rfl, fun d hd => writesRed_of (f := requestSwap r d) (if_neg (by omega)) rfl,
    writesRed_of (f := setRun r true) (if_neg unit) rfl, writesRed_of (f := setRun r false) (if_neg unit) rfl,
    ?wmclr, fun n hn => ?restart,
    writesRed_of (f := commitParcel ag r v) (if_neg unit) (commitParcel_eq ag r v s), fun pace hp => ?window⟩
  case wmclr =>
    refine ⟨setReed r (clearMarks x) s,
      writesRed_of (f := fun t => setReed r (clearMarks (reedOf t r)) t) (if_neg unit) rfl, ?_, ?_, fun c => ?_⟩
    · unfold OnlyReed
      rw [reedOf_setReed]
    · rw [reedOf_setReed, clearMarks_eq, foldl_unmark_eq]
      exact ⟨_, rfl⟩
    · unfold ctxAt
      rw [reedOf_setReed, clearMarks_eq]
      show ((List.range 8).foldl unmark x).ctxOf c = _
      simp only [ctxOf_foldl_unmark, List.mem_range]
      rfl
  case restart =>
    refine writesRed_of (f := fun t => setReed r (restartCtx n (reedOf t r)) t) (if_neg (by omega)) ?_
    unfold restartCtx
    exact apply_ite (fun y => setReed r y s) ..
  case window =>
    refine (if_neg unit).trans ?_
    unfold notePace
    rw [Nat.min_eq_left hp]

/-! ### Context switches -/

/-- The context switched to has the reed. -/
@[simp] theorem switchTo_running (c : Nat) (x : Reed) : (switchTo c x).running = some c := rfl
/-- A switch costs 6 beats (R25). -/
@[simp] theorem switchTo_clock (c : Nat) (x : Reed) : (switchTo c x).clock = x.clock + 6 := rfl
/-- A switch drops what was fetched (R167). -/
@[simp] theorem switchTo_latch (c : Nat) (x : Reed) : (switchTo c x).latch = [] := rfl
/-- A switch preempts what ran, and the context switched to no longer waits (R25). -/
@[simp] theorem switchTo_preempted (c : Nat) (x : Reed) : (switchTo c x).preempted =
    (match x.running with | some o => o :: x.preempted | none => x.preempted).filter (· != c) := by
  unfold switchTo
  cases x.running <;> rfl
/-- A switch leaves the far-store buffer alone. -/
@[simp] theorem switchTo_stores (c : Nat) (x : Reed) : (switchTo c x).stores = x.stores := by
  unfold switchTo
  cases x.running <;> rfl
/-- A switch leaves the progress of the tides alone. -/
@[simp] theorem switchTo_progress (c : Nat) (x : Reed) : (switchTo c x).progress = x.progress := by
  unfold switchTo
  cases x.running <;> rfl
/-- A switch leaves the token flags alone. -/
@[simp] theorem switchTo_tk (c : Nat) (x : Reed) : (switchTo c x).page.tk = x.page.tk := by
  unfold switchTo
  cases x.running <;> rfl

/-- The context that had the reed loses its top copy of the return stack; no context changes else (R25, R150, R167). -/
theorem ctxOf_switchTo (c : Nat) (x : Reed) (b : Nat) : (switchTo c x).ctxOf b =
    if x.running = some b then { x.ctxOf b with run := { (x.ctxOf b).run with topValid := false } } else x.ctxOf b := by
  unfold switchTo
  cases x.running with
  | none => rfl
  | some o =>
    simp only [addDiscard_ctx]
    show (x.setCtx o { x.ctxOf o with run := { (x.ctxOf o).run with topValid := false } }).ctxOf b = _
    by_cases hb : b = o
    · subst hb
      simp
    · simp [ctxOf_setCtx_other _ _ _ _ hb, Ne.symm hb]

/-- A context whose top copy is not valid is the same after a switch. -/
theorem ctxOf_switchTo_of_topInvalid {c : Nat} {x : Reed} {b : Nat} (h : (x.ctxOf b).run.topValid = false) :
    (switchTo c x).ctxOf b = x.ctxOf b := by
  rw [ctxOf_switchTo]
  split
  · rw [← h]
  · rfl

/-- A switch leaves of every context all but the validity of its top copy. -/
theorem ctxOf_switchTo_run (c : Nat) (x : Reed) (b : Nat) : (switchTo c x).ctxOf b =
    { x.ctxOf b with run := { (x.ctxOf b).run with topValid := ((switchTo c x).ctxOf b).run.topValid } } := by
  rw [ctxOf_switchTo]
  split <;> rfl

/-- From `s` to `t` reed `r` was switched to context `c` and nothing outside it changed: 6 beats passed, what ran is
preempted, and the other contexts keep all but the validity of their top copies (R25, R150, R167). -/
def Switched (r c : Nat) (s t : State) : Prop :=
  let x := reedOf s r
  OnlyReed r s t ∧ (reedOf t r).running = some c ∧ (reedOf t r).clock = x.clock + 6 ∧ (reedOf t r).latch = [] ∧
    (reedOf t r).preempted = (match x.running with | some o => o :: x.preempted | none => x.preempted).filter (· != c) ∧
    (reedOf t r).stores = x.stores ∧ (reedOf t r).progress = x.progress ∧
    ∀ b, b ≠ c →
      ctxAt t r b = { ctxAt s r b with run := { (ctxAt s r b).run with topValid := (ctxAt t r b).run.topValid } }

/-- A reed that differs in one context, its stations and its registers is switched to that context. -/
theorem switched_of {r c : Nat} {s : State} {y : Reed} {m : Tab Ctx} {l : List Station} {p : RedPage}
    (hy : y = { reedOf s r with ctx := m, stations := l, page := p }) (hc : ∀ b, b ≠ c → y.ctxOf b = ctxAt s r b) :
    Switched r c s (setReed r (switchTo c y) s) := by
  unfold Switched OnlyReed ctxAt
  simp only [reedOf_setReed, switchTo_running, switchTo_clock, switchTo_latch, switchTo_preempted, switchTo_stores,
    switchTo_progress]
  refine ⟨trivial, trivial, by rw [hy], trivial, by rw [hy], by rw [hy], by rw [hy], fun b hb => ?_⟩
  have h := ctxOf_switchTo_run c y b
  rw [hc b hb] at h
  exact h

/-! ### Contexts start, resume and are passed over -/

/-- A context suspended under SKIP_NEXT, as it resumes (R30). -/
def resumedCtx (k : Ctx) : Ctx :=
  { k with page := { k.page with skipping := false }, sched := { k.sched with phase := .started }
           run := { k.run with topValid := false } }

/-- A context as it starts for the entry `e` at position `j` of domain `d` (R24, R40, R53). -/
def startedCtx (s : State) (d j : Nat) (e : W64) (k : Ctx) : Ctx :=
  { startRegs k with sched := { phase := .started, dom := d, pos := j, entry := e, deadline := deadlineOf (domOf s d) e,
                                tide := (domOf s d).tide } }

/-- An entry resumes its context where that was suspended under SKIP_NEXT (R30). -/
theorem startContext_resumes {s : State} {d j : Nat} {e : W64} {x : Reed} {k : Ctx} (hk : x.ctxOf (entryCtx e) = k)
    (h : k.sched.phase = .suspended ∧ k.sched.resumed = true) :
    startContext s d j e x = switchTo (entryCtx e) (x.setCtx (entryCtx e) (resumedCtx k)) := by
  subst hk
  unfold startContext
  exact if_pos (by simp [h.1, h.2])

/-- An entry starts its context everywhere else (R24, R40). -/
theorem startContext_starts {s : State} {d j : Nat} {e : W64} {x : Reed} {k : Ctx} (hk : x.ctxOf (entryCtx e) = k)
    (h : ¬ (k.sched.phase = .suspended ∧ k.sched.resumed = true)) :
    let y := clearTokens (entryTkwait e) (x.setCtx (entryCtx e) (startedCtx s d j e k))
    startContext s d j e x =
      switchTo (entryCtx e) { y with stations := y.stations.filter fun t => t.ctx != entryCtx e } := by
  subst hk
  unfold startContext
  exact if_neg (by simpa using h)

/-- CONTEXT_START of a ready entry whose domain may take the reed (R24). -/
theorem exec_contextStart {s : State} {r d j : Nat} {e : W64} (hr : r < 544) (hd : d < 8)
    (he : readyEntry s (reedOf s r) d = some (j, e)) (hm : mayTake s r (reedOf s r) d = true) :
    exec (.contextStart r d) s = .next (setReed r (startContext s d j e (reedOf s r)) s) := by
  show execContextStart r d s = _
  unfold execContextStart
  rw [if_neg (by omega)]
  simp only [he]
  exact if_pos hm

/-- CONTEXT_RESUME of the context that may resume (R25). -/
theorem exec_contextResume {s : State} {r c : Nat} (hr : r < 544) (hc : resumable s (reedOf s r) = some c) :
    let x := reedOf s r
    exec (.contextResume r) s = .next (setReed r
      (switchTo c (x.setCtx c { x.ctxOf c with run := { (x.ctxOf c).run with topValid := false } })) s) := by
  show execContextResume r s = _
  unfold execContextResume
  rw [if_neg (by omega)]
  simp only [hc]

/-- A context that resumes under SKIP_NEXT has the reed, and stands where it stopped (R30). -/
theorem startContext_resumed_facts {s : State} {r d j : Nat} {e : W64}
    (h : (ctxAt s r (entryCtx e)).sched.phase = .suspended ∧ (ctxAt s r (entryCtx e)).sched.resumed = true) :
    let t := setReed r (startContext s d j e (reedOf s r)) s
    Switched r (entryCtx e) s t ∧ ctxAt t r (entryCtx e) = resumedCtx (ctxAt s r (entryCtx e)) ∧
      (reedOf t r).page.tk = (reedOf s r).page.tk := by
  rw [startContext_resumes rfl h]
  refine ⟨switched_of rfl fun b hb => ctxOf_setCtx_other _ _ _ _ hb, ?_, ?_⟩
  · unfold ctxAt
    rw [reedOf_setReed, ctxOf_switchTo_of_topInvalid (by rw [ctxOf_setCtx]; rfl), ctxOf_setCtx]
  · rw [reedOf_setReed, switchTo_tk]
    rfl

/-- A context that starts has the reed, its registers and schedule are those of the start, and its token flags are cleared
(R24, R40). -/
theorem startContext_started_facts {s : State} {r d j : Nat} {e : W64}
    (h : ¬ ((ctxAt s r (entryCtx e)).sched.phase = .suspended ∧ (ctxAt s r (entryCtx e)).sched.resumed = true)) :
    let t := setReed r (startContext s d j e (reedOf s r)) s
    Switched r (entryCtx e) s t ∧ ctxAt t r (entryCtx e) = startedCtx s d j e (ctxAt s r (entryCtx e)) ∧
      (reedOf t r).page.tk = (reedOf s r).page.tk &&& ~~~entryTkwait e := by
  rw [startContext_starts rfl h]
  refine ⟨switched_of rfl fun b hb => ctxOf_setCtx_other _ _ _ _ hb, ?_, ?_⟩
  · unfold ctxAt
    rw [reedOf_setReed, ctxOf_switchTo_of_topInvalid]
    · exact ctxOf_setCtx ..
    · exact congrArg (fun k : Ctx => k.run.topValid) (ctxOf_setCtx ..)
  · rw [reedOf_setReed, switchTo_tk]
    rfl

/-- ENTRY_PASSED_OVER of a late entry with RUN = 0 (R24). -/
theorem exec_entryPassedOver {s : State} {r d j : Nat} (hr : r < 544) (hd : d < 8) (hj : j < 8)
    (hrun : (reedOf s r).page.runOn = false) (hl : entryLate s (reedOf s r) d j = true) :
    exec (.entryPassedOver r d j) s =
      .next (setReed r (endEntry d j (clearTokens (entryTkwait ((reedOf s r).entryAt d j)) (reedOf s r))) s) := by
  show execEntryPassedOver r d j s = _
  unfold execEntryPassedOver
  rw [if_neg (by omega)]
  exact if_pos (by rw [hrun, hl]; rfl)

/-- Settles O23: the switch to a context, and for each row the context switched to. -/
theorem contextsStartResumeAndPassOver : Obligations.ContextsStartResumeAndPassOver := by
  intro s r d hr hd
  refine ⟨fun j e he hm => ⟨_, exec_contextStart hr hd he hm, ?start⟩,
    fun c hc => ⟨_, exec_contextResume hr hc, ?resume⟩, fun j hj hrun hl => ⟨_, exec_entryPassedOver hr hd hj hrun hl, ?_, ?_⟩⟩
  case start =>
    by_cases h : (ctxAt s r (entryCtx e)).sched.phase = .suspended ∧ (ctxAt s r (entryCtx e)).sched.resumed = true
    · obtain ⟨hsw, hk, htk⟩ := startContext_resumed_facts (d := d) (j := j) h
      rw [if_pos h, hk]
      exact ⟨hsw, rfl, rfl, htk⟩
    · obtain ⟨hsw, hk, htk⟩ := startContext_started_facts (d := d) (j := j) h
      rw [if_neg h, hk]
      refine ⟨hsw, rfl, rfl, rfl, ⟨_, rfl⟩, fun n p hp => ?_, rfl, htk⟩
      unfold startedCtx startRegs
      rw [hp]
      rfl
  case resume =>
    refine ⟨switched_of rfl fun b hb => ctxOf_setCtx_other _ _ _ _ hb, ?_⟩
    unfold ctxAt
    rw [reedOf_setReed, ctxOf_switchTo_of_topInvalid (by rw [ctxOf_setCtx]), ctxOf_setCtx]
  · unfold OnlyReed
    rw [reedOf_setReed]
  · rw [reedOf_setReed]
    rfl

/-! ### Overruns -/

/-- OVERRUN_BUDGET between bundles of a context that has used its BUDGET (R28). -/
theorem exec_overrunBudget_spent {s : State} {r c : Nat} (hr : r < 544) (hrun : (reedOf s r).running = some c)
    (ha : inAtomic (reedOf s r) = false) (hh : holdsOff (ctxAt s r c) = false)
    (hs : budgetSpent (ctxAt s r c) (bundleAt s r (reedOf s r) (ctxAt s r c).run.pc) = true) :
    exec (.overrunBudget r) s = .next (takeOverrun r c .budget s) := by
  unfold ctxAt at hh hs
  show execOverrunBudget r s = _
  unfold execOverrunBudget
  rw [if_neg (by omega)]
  simp only [hrun]
  exact if_pos (by rw [ha, hh, hs]; rfl)

/-- OVERRUN_BUDGET in a wait for the LOU in which BUDGET runs out (R26, R28). -/
theorem exec_overrunBudget_wait {s : State} {r c : Nat} (hr : r < 544) (hrun : (reedOf s r).running = some c)
    (hs : budgetSpent (ctxAt s r c) (bundleAt s r (reedOf s r) (ctxAt s r c).run.pc) = false)
    (hw : budgetEndsWait s r (reedOf s r) = some c) :
    exec (.overrunBudget r) s = .next (takeOverrun r c .budget (setReed r (waitOut c (reedOf s r)) s)) := by
  unfold ctxAt at hs
  show execOverrunBudget r s = _
  unfold execOverrunBudget
  rw [if_neg (by omega)]
  simp only [hrun]
  rw [if_neg (by rw [hs, Bool.and_false]; decide), hw]

/-- OVERRUN_DEADLINE of a started context whose deadline tick is reached (R28). -/
theorem exec_overrunDeadline {s : State} {r c : Nat} (hr : r < 544) (hc : c < 8) (hp : (ctxAt s r c).sched.phase = .started)
    (hd : (ctxAt s r c).sched.deadline ≤ now s) : exec (.overrunDeadline r c) s = .next (deadlineHit r c s) := by
  unfold ctxAt at hp hd
  show execOverrunDeadline r c s = _
  unfold execOverrunDeadline
  rw [if_neg (by omega)]
  exact if_pos (by rw [hp, decide_eq_true hd]; rfl)

/-- A REP or an atomic bundle holds the overrun off until its boundary, and a TEND that has issued is not overtaken (R28,
R29). -/
theorem deadlineHit_held {s : State} {r c : Nat}
    (h : (reedOf s r).running = some c ∧ (inAtomic (reedOf s r) = true ∨ holdsOff (ctxAt s r c) = true)) :
    let x := reedOf s r
    let k := ctxAt s r c
    deadlineHit r c s = if inAtomic x && isTend k.regs x.latch then s
      else setReed r (x.setCtx c { k with sched := { k.sched with due := some .deadline } }) s := by
  unfold deadlineHit
  exact if_pos h

/-- A deadline that nothing holds off is an overrun at once, cause BUDGET first (R28). -/
theorem deadlineHit_taken {s : State} {r c : Nat}
    (h : ¬ ((reedOf s r).running = some c ∧ (inAtomic (reedOf s r) = true ∨ holdsOff (ctxAt s r c) = true))) :
    deadlineHit r c s = takeOverrun r c
      (if budgetSpent (ctxAt s r c) (bundleAt s r (reedOf s r) (ctxAt s r c).run.pc) then .budget else .deadline) s := by
  unfold deadlineHit
  exact (if_neg h).trans (apply_ite (fun cause => takeOverrun r c cause s) ..).symm

/-- OVERRUN_START of a late entry with RUN = 1 (R28). -/
theorem exec_overrunStart {s : State} {r d j : Nat} (hr : r < 544) (hd : d < 8) (hj : j < 8)
    (hrun : (reedOf s r).page.runOn = true) (hl : entryLate s (reedOf s r) d j = true) :
    exec (.overrunStart r d j) s = .next (startOverrun r d j s) := by
  show execOverrunStart r d j s = _
  unfold execOverrunStart
  rw [if_neg (by omega)]
  exact if_pos (by rw [hrun, hl]; rfl)

/-- Settles O24: each row takes its overrun in the tide of the run, and `overran_take` says what that does. -/
theorem overrunsFollowThePolicy : Obligations.OverrunsFollowThePolicy := by
  intro s r c hr hc x k present spent
  refine ⟨fun hrun ha hh hs hp => ⟨_, exec_overrunBudget_spent hr hrun ha hh hs, overran_take r c _ s hp⟩,
    fun hrun hs hw => fun hp => ⟨_, exec_overrunBudget_wait hr hrun hs hw, overran_take r c _ _ hp⟩,
    fun hph hdl hp => ?deadline, fun d j hd hj hrun hl he => ?start⟩
  case deadline =>
    rw [exec_overrunDeadline hr hc hph hdl]
    split
    · rename_i h
      rw [deadlineHit_held h]
    · rename_i h
      exact ⟨_, congrArg _ (deadlineHit_taken h), overran_take r c _ s hp⟩
  case start =>
    subst he
    exact ⟨_, exec_overrunStart hr hd hj hrun hl, overran_take r _ _ _ (by simp [ctxAt]; rfl)⟩

end Sys2Proof.Machine
end

section
/-! SUPPORT. The pace, clock and power loops (R32, R33, R368, R395). -/

namespace Sys2Proof.Machine

/-- PACE_LOOP_ADJUST of a healthy working reed whose time has come (R32, R395). -/
theorem exec_paceLoopAdjust {s : State} {r : Nat} (hr : r < 544) (hon : s.glb.state ≠ .off) (ht : s.pwr.loopNext ≤ now s)
    (hh : healthyReed s r = true) (n : Nat) :
    let q := s.pwr.adjust r n
    exec (.paceLoopAdjust r n) s = .next (if q.tgtUnmet = true ∧ s.pwr.tgtUnmet = false then
      irqSet 2 1 (fbRaise 0x0401 (powerPayload q) (setPwr q s)) else setPwr q s) := by
  show execPaceLoopAdjust r n s = _
  unfold execPaceLoopAdjust
  rw [if_neg (Nat.not_le.2 hr), if_neg (by simp [hon, ht, hh])]
  simp only [Bool.and_eq_true, Bool.not_eq_true']

/-- FAST_RAISE of a healthy working reed whose time has come (R32, R368). -/
theorem exec_fastRaise {s : State} {r : Nat} (hr : r < 544) (hon : s.glb.state ≠ .off) (ht : s.pwr.fastNext ≤ now s)
    (hh : healthyReed s r = true) (n : Nat) :
    let t := setPwr (s.pwr.raise (now s) n) s
    exec (.fastRaise r n) s = if n < 1530 ∧ 1700 ≤ s.pwr.vdd then
        .next (if (condemn r true t).spr = s.spr then condemn r true t
          else fbRaise 0x0402 (payload r n) (condemn r true t))
      else .next t := by
  show execFastRaise r n s = _
  unfold execFastRaise
  rw [if_neg (Nat.not_le.2 hr), if_neg (by simp [hon, ht, hh])]
  rfl

/-- PKG_POWER_WINDOW whose window has ended (R33, R395). -/
theorem exec_pkgPowerWindow {s : State} (hon : s.glb.state ≠ .off) (ht : s.pwr.winNext ≤ now s) (n : Nat) :
    let q := s.pwr.window n
    exec (.pkgPowerWindow n) s = .next (if q.plimUnmet = true then
        let t := fbRaise 0x0302 (powerPayload q) (setPwr q s)
        if s.pwr.plimUnmet = true then t else irqSet 2 2 t
      else setPwr q s) := by
  show execPkgPowerWindow n s = _
  unfold execPkgPowerWindow
  rw [if_neg (by simp [hon, ht])]
  cases hq : (s.pwr.window n).plimUnmet <;> cases s.pwr.plimUnmet <;> simp [hq]

/-! ### The regular adjustment (R32) -/

/-- A pace below the target raises VDD_CORE by 2.5 mV, to 0.85 V at most. -/
theorem adjust_below {p : Pwr} {r n : Nat} (h : n < p.effective) :
    (p.adjust r n).vdd = min 1700 (p.vdd + 5) ∧ (p.adjust r n).tgtUnmet = decide (1700 ≤ p.vdd) := by
  unfold Pwr.adjust
  simp only [if_pos h]
  exact ⟨rfl, rfl⟩

/-- A pace at the target lowers VDD_CORE by 2.5 mV where it exceeds the target by more than 3 %, to 0.62 V at least. -/
theorem adjust_above {p : Pwr} {r n : Nat} (h : p.effective ≤ n) :
    (p.adjust r n).vdd = (if p.effective * 103 < n * 100 then max 1240 (p.vdd - 5) else p.vdd) ∧
      (p.adjust r n).tgtUnmet = false := by
  unfold Pwr.adjust
  simp only [if_neg (Nat.not_lt.2 h)]
  exact ⟨rfl, trivial⟩

/-- The adjustment touches the minimum shown, its own time, VDD_CORE and the unmet target. -/
theorem adjust_eq (p : Pwr) (r n : Nat) : p.adjust r n =
    { p with minPhys := r, minPace := min n 0xFFFF, loopNext := p.loopNext + 4096
             vdd := (p.adjust r n).vdd, tgtUnmet := (p.adjust r n).tgtUnmet } := by
  unfold Pwr.adjust
  simp only []
  split <;> rfl

/-! ### The fast raise (R32) -/

/-- A pace below 1.53 G beats/s raises VDD_CORE by 10 mV, to 0.85 V at most. -/
theorem raise_low {p : Pwr} {n : Nat} (tick : Nat) (h : n < 1530) : p.raise tick n =
    { p with vdd := min 1700 (p.vdd + 20), fastRaise := decide (p.vdd + 20 < 1700), fastNext := tick + 256 } := if_pos h

/-- At 0.85 V the fast raise has come to its end. -/
theorem raise_limit {p : Pwr} {n : Nat} (tick : Nat) (h : n < 1530) (hv : 1700 ≤ p.vdd) : p.raise tick n =
    { p with vdd := 1700, fastRaise := false, fastNext := tick + 256 } := by
  rw [raise_low tick h, Nat.min_eq_left (by omega), decide_eq_false (by omega)]

/-- A pace of 1.53 G beats/s ends the fast raise. -/
theorem raise_high {p : Pwr} {n : Nat} (tick : Nat) (h : 1530 ≤ n) : p.raise tick n = { p with fastRaise := false } :=
  if_neg (Nat.not_lt.2 h)

/-! ### The package power limit (R33) -/

/-- A window above the limit lowers the effective target, to 1,500 at least. -/
theorem window_over {p : Pwr} {n : Nat} (h : p.limit < n) :
    (p.window n).effective = max 1500 (p.effective - p.target / 100) ∧
      (p.window n).plimUnmet = decide (p.effective ≤ 1500) := by
  unfold Pwr.window
  simp only [if_pos h]
  exact ⟨trivial, trivial⟩

/-- A window of at most 95 % of the limit raises the effective target, to the programmed one at most. -/
theorem window_under {p : Pwr} {n : Nat} (h : n ≤ p.limit) (hn : n * 100 ≤ p.limit * 95) :
    (p.window n).effective = min p.target (p.effective + p.target / 100) ∧ (p.window n).plimUnmet = false := by
  unfold Pwr.window
  simp only [if_neg (Nat.not_lt.2 h), if_pos hn]
  exact ⟨trivial, trivial⟩

/-- Any other window leaves the effective target. -/
theorem window_between {p : Pwr} {n : Nat} (h : n ≤ p.limit) (hn : p.limit * 95 < n * 100) :
    (p.window n).effective = p.effective ∧ (p.window n).plimUnmet = false := by
  unfold Pwr.window
  simp only [if_neg (Nat.not_lt.2 h), if_neg (Nat.not_le.2 hn)]
  exact ⟨trivial, trivial⟩

/-- A window touches the powers shown, its own time, the effective target and the unmet limit. -/
theorem window_eq {p : Pwr} {n : Nat} (hn : n ≤ 0xFFFF) : p.window n =
    { p with now := n, peak := max p.peak n, winNext := p.winNext + 1048576
             effective := (p.window n).effective, plimUnmet := (p.window n).plimUnmet } := by
  unfold Pwr.window
  simp only [Nat.min_eq_left hn]
  repeat' split
  all_goals rfl

/-- Settles O25: each row answers with what its loop makes of the PWR page, by the cases of the pace or the power. -/
theorem powerLoopsAdjust : Obligations.PowerLoopsAdjust := by
  intro s r n hr hon
  refine ⟨fun ht hh => ?loop, fun ht hh => ⟨fun hn => ?done, fun hn hv => ?raise, fun hn hv => ?retire⟩,
    fun ht hn _ => ?window⟩
  case loop =>
    refine ⟨_, adjust_eq s.pwr r n, fun h => adjust_below h, fun h h3 => ?_, fun h3 => ?_,
      exec_paceLoopAdjust hr hon ht hh n⟩
    · obtain ⟨hv, hu⟩ := adjust_above (r := r) h
      exact ⟨hv.trans (if_neg (Nat.not_lt.2 h3)), hu⟩
    · obtain ⟨hv, hu⟩ := adjust_above (p := s.pwr) (r := r) (n := n) (by omega)
      exact ⟨hv.trans (if_pos h3), hu⟩
  case done =>
    rw [exec_fastRaise hr hon ht hh, if_neg (by omega), raise_high _ hn]
    rfl
  case raise =>
    rw [exec_fastRaise hr hon ht hh, if_neg (by omega), raise_low _ hn]
    rfl
  case retire =>
    rw [exec_fastRaise hr hon ht hh, if_pos ⟨hn, hv⟩, raise_limit _ hn hv]
    rfl
  case window =>
    exact ⟨_, window_eq hn, fun h => window_over h, fun h => window_under (by omega) h, fun h h' => window_between h' h,
      exec_pkgPowerWindow hon ht n⟩

end Sys2Proof.Machine
end

section
/-! SUPPORT. The Meridian is left alone by whatever happens at a tide boundary but the domain's own advance: by reeds that
overrun and issue, by the Queue Manager, by the Sluice engines, by the ports and buses, and by a takeover (R419). -/

namespace Sys2Proof.Machine

/-! ### Folds and steps of work -/

/-- What every step of a fold leaves of the Meridian, the fold leaves. -/
theorem foldl_mer {β : Type} {g : State → β → State} (h : ∀ t b, (g t b).mer = t.mer) (l : List β) (s : State) :
    (l.foldl g s).mer = s.mer := foldl_keeps (fun t => t.mer) g h l s

/-- A condition between two states, each with the same Meridian. -/
theorem ite_mer {p : Prop} [Decidable p] {m : Mer} {t u : State} (ht : t.mer = m) (hu : u.mer = m) :
    (if p then t else u).mer = m := by
  split
  · exact ht
  · exact hu

/-- Where a step of work is possible, it leaves the Meridian alone. -/
def StepKeepsMer (s : State) (o : Option State) : Prop := ∀ t, o = some t → t.mer = s.mer

/-- Work that is not possible leaves the Meridian alone. -/
theorem stepKeepsMer_none (s : State) : StepKeepsMer s none := fun t h => (Option.some_ne_none t h.symm).elim
/-- A step of work to a state with the same Meridian. -/
theorem stepKeepsMer_some {s t : State} (h : t.mer = s.mer) : StepKeepsMer s (some t) :=
  fun _ hu => (congrArg State.mer (Option.some.inj hu)).symm.trans h

/-- Work whose every step leaves the Meridian alone leaves it alone. -/
theorem workOn_mer {f : State → Option State} (h : ∀ s, StepKeepsMer s (f s)) (n : Nat) (s : State) :
    (workOn f n s).mer = s.mer := by
  induction n generalizing s with
  | zero => rfl
  | succ n ih =>
    unfold workOn
    split
    · rename_i t ht
      rw [ih, h s t ht]
    · rfl

/-! ### Exceptions and overruns -/

/-- `noteExc` leaves the Meridian alone. -/
@[simp] theorem noteExc_mer (r : Nat) (e : Exc) (s : State) : (noteExc r e s).mer = s.mer := by
  unfold noteExc
  exact ite_mer (ite_mer (noteUe_mer ..) rfl) rfl

/-- `escalate` leaves the Meridian alone. -/
@[simp] theorem escalate_mer (r c : Nat) (e : Exc) (reason : Nat) (fpc npc : W16) (s : State) :
    (escalate r c e reason fpc npc s).mer = s.mer := by
  unfold escalate
  exact ite_mer (fireSource_mer ..) (fireSource_mer ..)

/-- `enterHandler` leaves the Meridian alone. -/
@[simp] theorem enterHandler_mer (r c : Nat) (e : Exc) (epc fpc npc : W16) (s : State) :
    (enterHandler r c e epc fpc npc s).mer = s.mer := writePlaced_mer ..

/-- `takeExc` leaves the Meridian alone. -/
@[simp] theorem takeExc_mer (r c : Nat) (e : Exc) (epc fpc npc : W16) (s : State) :
    (takeExc r c e epc fpc npc s).mer = s.mer := by
  unfold takeExc
  exact ite_mer (escalate_mer ..) (enterHandler_mer ..)

/-- `takeOverrun` leaves the Meridian alone. -/
@[simp] theorem takeOverrun_mer (r c : Nat) (cause : OvrCause) (s : State) : (takeOverrun r c cause s).mer = s.mer := by
  unfold takeOverrun
  exact ite_mer rfl (ite_mer (escalate_mer ..) (ite_mer rfl (ite_mer rfl rfl)))

/-- `boundary` leaves the Meridian alone. -/
@[simp] theorem boundary_mer (r c : Nat) (s : State) : (boundary r c s).mer = s.mer := by
  unfold boundary
  refine ite_mer rfl (ite_mer rfl ?_)
  split
  · rfl
  · exact ite_mer rfl (ite_mer (takeOverrun_mer ..) (takeOverrun_mer ..))

/-- `suppress` leaves the Meridian alone. -/
@[simp] theorem suppress_mer (r c : Nat) (e : Exc) (beats : Nat) (s : State) : (suppress r c e beats s).mer = s.mer := by
  unfold suppress
  rw [boundary_mer, takeExc_mer, noteExc_mer]
  rfl

/-- `deadlineHit` leaves the Meridian alone. -/
@[simp] theorem deadlineHit_mer (r c : Nat) (s : State) : (deadlineHit r c s).mer = s.mer := by
  unfold deadlineHit
  exact ite_mer (ite_mer rfl rfl) (ite_mer (takeOverrun_mer ..) (takeOverrun_mer ..))

/-- `startOverrun` leaves the Meridian alone. -/
@[simp] theorem startOverrun_mer (r d j : Nat) (s : State) : (startOverrun r d j s).mer = s.mer := takeOverrun_mer ..

/-! ### Bundles that issue -/

/-- `postStore` leaves the Meridian alone. -/
@[simp] theorem postStore_mer (r : Nat) (f : Far) (s : State) : (postStore r f s).mer = s.mer := by
  unfold postStore
  split <;> rfl

/-- `closeSlot` leaves the Meridian alone. -/
@[simp] theorem closeSlot_mer (tags : List Nat) (s : State) (p : Nat × Nat) : (closeSlot tags s p).mer = s.mer := by
  unfold closeSlot
  extract_lets t t1 s1 x s2
  have h2 : s2.mer = s.mer := ite_mer rfl rfl
  exact ite_mer ((setTokenLogical_mer ..).trans h2) h2

/-- `reedStore` leaves the Meridian alone. -/
@[simp] theorem reedStore_mer (r : Nat) (tags : List Nat) (ws : List StoreWord) (s : State) :
    (reedStore r tags ws s).mer = s.mer := by
  unfold reedStore
  rw [foldl_mer (closeSlot_mer tags), deviceWrite_mer]
  exact foldl_mer (g := slotLate) (fun _ _ => rfl) _ _

/-- `finishTend` leaves the Meridian alone. -/
@[simp] theorem finishTend_mer (r c : Nat) (s : State) : (finishTend r c s).mer = s.mer := rfl

/-- `completeBundle` leaves the Meridian alone. -/
@[simp] theorem completeBundle_mer (r c : Nat) (far : Option Nat) (charge : Nat) (s : State) :
    (completeBundle r c far charge s).mer = s.mer := by
  unfold completeBundle
  extract_lets x v k effs ctl ch trap fa k1 x0 tn pred extra stores ims pf x1 x2 x3 s0 s1 s2 s3
  have h0 : s0.mer = s.mer := by
    simp only [s0]
    cases farOf effs with
    | none => rfl
    | some p => exact ite_mer (postStore_mer ..) rfl
  have h3 : s3.mer = s.mer := by
    simp only [s3, s2, s1]
    rw [foldl_mer fun t e => ite_mer rfl (reedStore_mer ..), afterLocalStore_mer, deviceWrite_mer, h0]
  clear_value s3 trap ctl
  split
  · exact h3
  · rw [boundary_mer, takeExc_mer, h3]
  · rw [boundary_mer, h3]

/-- `sendHostRead` leaves the Meridian alone. -/
@[simp] theorem sendHostRead_mer (o : Originator) (w bytes : Nat) (s : State) : (sendHostRead o w bytes s).mer = s.mer := by
  unfold sendHostRead
  exact ite_mer rfl rfl

/-- `issueAtlasRead` leaves the Meridian alone. -/
@[simp] theorem issueAtlasRead_mer (route agent slot sheet addr : Nat) (s : State) :
    (issueAtlasRead route agent slot sheet addr s).mer = s.mer := sendOn_mer ..

/-- `issueFarRead` leaves the Meridian alone. -/
@[simp] theorem issueFarRead_mer (r : Nat) (pls : List Place) (s : State) : (issueFarRead r pls s).mer = s.mer := by
  unfold issueFarRead
  extract_lets hosts s1
  have h1 : s1.mer = s.mer := by
    simp only [s1]
    cases hosts with
    | nil => rfl
    | cons w _ => exact sendHostRead_mer ..
  rw [foldl_mer, h1]
  intro t la
  split
  · exact issueAtlasRead_mer ..
  · rfl

/-- `tryIssue` leaves the Meridian alone. -/
@[simp] theorem tryIssue_mer (r : Nat) (s : State) : (tryIssue r s).mer = s.mer := by
  unfold tryIssue
  simp only []
  split
  · rfl
  · refine ite_mer rfl (ite_mer rfl ?_)
    split
    · exact suppress_mer ..
    · refine ite_mer rfl ?_
      split
      · exact suppress_mer ..
      · split
        · exact ite_mer (ite_mer (suppress_mer ..) (issueFarRead_mer ..)) (ite_mer rfl (completeBundle_mer ..))
        · exact completeBundle_mer ..

/-! ### The reed's side of a boundary -/

/-- `endTide` leaves the Meridian alone. -/
@[simp] theorem endTide_mer (r d : Nat) (s : State) : (endTide r d s).mer = s.mer := by
  unfold endTide
  refine (foldl_mer (fun t j => ?_) _ _).trans (foldl_mer (fun t c => deadlineHit_mer r c t) _ _)
  exact ite_mer (ite_mer (startOverrun_mer r d j t) rfl) rfl

/-- `newTide` leaves the Meridian alone. -/
@[simp] theorem newTide_mer (r d : Nat) (s : State) : (newTide r d s).mer = s.mer := by
  unfold newTide swapBank
  exact ite_mer rfl (ite_mer rfl rfl)

/-! ### The Queue Manager -/

/-- `hostWrite` leaves the Meridian alone. -/
@[simp] theorem hostWrite_mer (ws : List (Nat × StoreWord)) (s : State) : (hostWrite ws s).mer = s.mer := by
  unfold hostWrite
  exact ite_mer rfl rfl

/-- `qmWrite` leaves the Meridian alone. -/
@[simp] theorem qmWrite_mer (a : Nat) (ws : List W16) (s : State) : (qmWrite a ws s).mer = s.mer := by
  unfold qmWrite
  split
  · exact hostWrite_mer ..
  · exact deviceWrite_mer ..

/-- `writeShadow` leaves the Meridian alone. -/
@[simp] theorem writeShadow_mer (q : Nat) (s : State) : (writeShadow q s).mer = s.mer := by
  unfold writeShadow
  exact ite_mer rfl (ite_mer (setQueue_mer ..) (ite_mer rfl ((qmWrite_mer ..).trans (setQueue_mer ..))))

/-- `dropRecord` leaves the Meridian alone. -/
@[simp] theorem dropRecord_mer (q : Nat) (s : State) : (dropRecord q s).mer = s.mer := fbRaise_mer ..

/-- `putRecord` leaves the Meridian alone. -/
@[simp] theorem putRecord_mer (q : Nat) (count : Bool) (rec : List W32) (s : State) :
    (putRecord q count rec s).mer = s.mer := by
  unfold putRecord
  extract_lets x at' x1
  exact ite_mer (dropRecord_mer ..) ((writeShadow_mer ..).trans ((setQueue_mer ..).trans (qmWrite_mer ..)))

/-- `enterFullHold` leaves the Meridian alone. -/
@[simp] theorem enterFullHold_mer (q : Nat) (s : State) : (enterFullHold q s).mer = s.mer := by
  unfold enterFullHold
  exact ite_mer rfl (ite_mer (fireSource_mer ..) rfl)

/-- `holdRecord` leaves the Meridian alone. -/
@[simp] theorem holdRecord_mer (q : Nat) (rec : List W32) (s : State) : (holdRecord q rec s).mer = s.mer := by
  unfold holdRecord
  exact ite_mer rfl (enterFullHold_mer ..)

/-- `postRecord` leaves the Meridian alone. -/
@[simp] theorem postRecord_mer (q : Nat) (rec : List W32) (s : State) : (postRecord q rec s).mer = s.mer := by
  unfold postRecord
  exact ite_mer (dropRecord_mer ..) (ite_mer (putRecord_mer ..) (holdRecord_mer ..))

/-! ### Streams -/

/-- `postStream` leaves the Meridian alone. -/
@[simp] theorem postStream_mer (b i : Nat) (c : Cpl) (s : State) : (postStream b i c s).mer = s.mer := postRecord_mer ..

/-- `endJob` leaves the Meridian alone. -/
@[simp] theorem endJob_mer (b n : Nat) (s : State) : (endJob b n s).mer = s.mer := rfl

/-- `stopStream` leaves the Meridian alone. -/
@[simp] theorem stopStream_mer (b i tag seq op : Nat) (s : State) : (stopStream b i tag seq op s).mer = s.mer :=
  postStream_mer ..

/-- `resumeStream` leaves the Meridian alone. -/
@[simp] theorem resumeStream_mer (b i tag seq : Nat) (s : State) : (resumeStream b i tag seq s).mer = s.mer :=
  postStream_mer ..

/-- `streamToken` leaves the Meridian alone. -/
@[simp] theorem streamToken_mer (b : Nat) (x : Stream) (s : State) : (streamToken b x s).mer = s.mer := by
  unfold streamToken
  exact ite_mer (setTokenLogical_mer ..) rfl

/-- `residency` leaves the Meridian alone. -/
@[simp] theorem residency_mer (b i : Nat) (late : Bool) (s : State) : (residency b i late s).mer = s.mer := by
  unfold residency
  extract_lets x s1 e s2
  have h1 : s1.mer = s.mer := ite_mer (streamToken_mer ..) rfl
  exact ite_mer ((postStream_mer ..).trans h1) h1

/-- `ringBoundary` leaves the Meridian alone. -/
@[simp] theorem ringBoundary_mer (b i : Nat) (s : State) : (ringBoundary b i s).mer = s.mer := by
  unfold ringBoundary
  simp only []
  split
  · exact ite_mer (residency_mer ..) rfl
  · exact residency_mer ..
  · rfl
  · rfl

/-- `noteCause` leaves the Meridian alone. -/
@[simp] theorem noteCause_mer (b i cause y : Nat) (s : State) : (noteCause b i cause y s).mer = s.mer := by
  unfold noteCause
  exact ite_mer rfl (ite_mer rfl rfl)

/-- `faultRecord` leaves the Meridian alone. -/
@[simp] theorem faultRecord_mer (b i cause index : Nat) (s : State) : (faultRecord b i cause index s).mer = s.mer := rfl

/-- `streamFault` leaves the Meridian alone. -/
@[simp] theorem streamFault_mer (b i cause addr y n : Nat) (s : State) : (streamFault b i cause addr y n s).mer = s.mer := by
  unfold streamFault
  rw [postStream_mer]
  exact ite_mer (ite_mer (noteCause_mer ..) (noteCause_mer ..)) (noteCause_mer ..)

/-- Samples that can be written leave the Meridian alone. -/
theorem writeLinear_mer (b : Nat) (x : Stream) (off : Nat) (vs : List Int) (s : State) :
    StepKeepsMer s (writeLinear b x off vs s) := by
  unfold writeLinear
  split
  · exact stepKeepsMer_none s
  · simp only []
    split
    · exact stepKeepsMer_some (deviceWrite_mer ..)
    · exact stepKeepsMer_none s

/-- Ring samples that can be written leave the Meridian alone. -/
theorem writeRing_mer (b : Nat) (x : Stream) (j : Nat) (vs : List Int) (s : State) :
    StepKeepsMer s (writeRing b x j vs s) := by
  unfold writeRing
  simp only []
  split
  · exact stepKeepsMer_none s
  · rename_i s1 h1
    have h := writeLinear_mer _ _ _ _ _ _ h1
    split
    · exact stepKeepsMer_some h
    · exact fun t ht => (writeLinear_mer _ _ _ _ _ t ht).trans h

/-- `putSamples` leaves the Meridian alone. -/
@[simp] theorem putSamples_mer (b i : Nat) (x : Stream) (y : Nat) (vs : List Int) (s : State) :
    (putSamples b i x y vs s).mer = s.mer := by
  unfold putSamples
  split
  · rename_i s1 h1
    exact (writeRing_mer _ _ _ _ _ s1 h1 :)
  · exact streamFault_mer ..

/-- `endCopy` leaves the Meridian alone. -/
@[simp] theorem endCopy_mer (b i : Nat) (x : Stream) (s : State) : (endCopy b i x s).mer = s.mer := by
  unfold endCopy
  rw [postStream_mer, endJob_mer, streamToken_mer]
  rfl

/-- The end of a source leaves the Meridian alone. -/
theorem sourceEnd_mer (b i : Nat) (x : Stream) (s : State) : StepKeepsMer s (sourceEnd b i x s) := by
  unfold sourceEnd
  split
  · exact stepKeepsMer_some (endCopy_mer ..)
  · split
    · exact stepKeepsMer_some (postStream_mer ..)
    · split
      · exact stepKeepsMer_none s
      · exact stepKeepsMer_some (putSamples_mer ..)

/-- A unit of work of a RING or COPY stream leaves the Meridian alone. -/
theorem linearStep_mer (b i : Nat) (s : State) : StepKeepsMer s (linearStep b i s) := by
  unfold linearStep
  simp only []
  split
  · exact stepKeepsMer_none s
  split
  · exact stepKeepsMer_some (endCopy_mer ..)
  split
  · split
    · exact stepKeepsMer_none s
    · exact stepKeepsMer_some (putSamples_mer ..)
  split
  · exact stepKeepsMer_none s
  · exact stepKeepsMer_some (streamFault_mer ..)
  split
  · exact sourceEnd_mer b i _ s
  split
  · exact stepKeepsMer_none s
  · exact stepKeepsMer_some (putSamples_mer ..)

/-- `endGather` leaves the Meridian alone. -/
@[simp] theorem endGather_mer (b i : Nat) (x : Stream) (s : State) : (endGather b i x s).mer = s.mer := by
  unfold endGather
  split
  · rfl
  · rw [postStream_mer, endJob_mer, streamToken_mer]
    rfl

/-- `elementFault` leaves the Meridian alone. -/
@[simp] theorem elementFault_mer (b i cause addr zeros edoff : Nat) (s : State) :
    (elementFault b i cause addr zeros edoff s).mer = s.mer := by
  unfold elementFault
  extract_lets x s1 s2 y tag
  have h1 : s1.mer = s.mer := noteCause_mer ..
  have h2 : s2.mer = s.mer := by
    simp only [s2]
    cases hw : writeLinear b x edoff (List.replicate zeros 0) s1 with
    | none => exact h1
    | some t => exact (writeLinear_mer _ _ _ _ _ t hw).trans h1
  exact ite_mer h2 ((postStream_mer ..).trans h1)

/-- An element of work of a GATHER stream leaves the Meridian alone. -/
theorem gatherStep_mer (b i : Nat) (s : State) : StepKeepsMer s (gatherStep b i s) := by
  unfold gatherStep
  simp only []
  split
  · exact stepKeepsMer_none s
  split
  · exact stepKeepsMer_some (endGather_mer ..)
  split
  · exact stepKeepsMer_none s
  · exact stepKeepsMer_some (elementFault_mer ..)
  split
  · exact stepKeepsMer_some (elementFault_mer ..)
  split
  · exact stepKeepsMer_some (elementFault_mer ..)
  split
  · exact stepKeepsMer_none s
  · exact stepKeepsMer_some (elementFault_mer ..)
  split
  · rename_i t ht
    exact stepKeepsMer_some (writeLinear_mer _ _ _ _ _ t ht)
  · exact stepKeepsMer_none s

/-- `advance` leaves the Meridian alone. -/
@[simp] theorem advance_mer (b i : Nat) (s : State) : (advance b i s).mer = s.mer := by
  refine workOn_mer (fun t => ?_) _ _
  split
  · exact gatherStep_mer b i t
  · exact linearStep_mer b i t

/-- `streamBoundary` leaves the Meridian alone. -/
@[simp] theorem streamBoundary_mer (b i : Nat) (s : State) : (streamBoundary b i s).mer = s.mer := by
  unfold streamBoundary
  simp only []
  split
  · exact stopStream_mer ..
  · have resumed (o : Option (Nat × Nat)) : (match o with
        | some (tag, seq) => if (streamOf s b i).st = StreamSt.paused then resumeStream b i tag seq s else s
        | none => s).mer = s.mer := by
      cases o with
      | none => rfl
      | some p => exact ite_mer (resumeStream_mer ..) rfl
    rw [advance_mer]
    exact ite_mer ((ringBoundary_mer ..).trans (resumed _)) (resumed _)

/-- `sluiceBoundary` leaves the Meridian alone. -/
@[simp] theorem sluiceBoundary_mer (d : Nat) (s : State) : (sluiceBoundary d s).mer = s.mer :=
  foldl_mer (fun _ _ => streamBoundary_mer ..) _ _

/-- `sluiceDomainStop` leaves the Meridian alone. -/
@[simp] theorem sluiceDomainStop_mer (d : Nat) (s : State) : (sluiceDomainStop d s).mer = s.mer :=
  foldl_mer (fun _ _ => ite_mer (stopStream_mer ..) rfl) _ _

/-! ### Ports, buses, pools and the takeover -/

/-- `aspEndTide` leaves the Meridian alone. -/
@[simp] theorem aspEndTide_mer (d n : Nat) (s : State) : (aspEndTide d n s).mer = s.mer := by
  unfold aspEndTide
  exact ite_mer (ite_mer (irqSet_mer ..) rfl) rfl

/-- `sspFlag` leaves the Meridian alone. -/
@[simp] theorem sspFlag_mer (d n : Nat) (s : State) : (sspFlag d n s).mer = s.mer := by
  unfold sspFlag
  exact ite_mer (setTokenLogical_mer ..) rfl

/-- `mapAsp` leaves the Meridian alone. -/
@[simp] theorem mapAsp_mer (f : Asp → Asp) (s : State) : (mapAsp f s).mer = s.mer := rfl

/-- `poolBoundary` leaves the Meridian alone. -/
@[simp] theorem poolBoundary_mer (d : Nat) (s : State) : (poolBoundary d s).mer = s.mer := rfl

/-- `applyBusCommits` leaves the Meridian alone. -/
@[simp] theorem applyBusCommits_mer (d : Nat) (s : State) : (applyBusCommits d s).mer = s.mer := by
  refine foldl_mer (fun t be => ?_) _ _
  split
  · exact ite_mer rfl rfl
  · rfl

/-- `writeChannels` leaves the Meridian alone. -/
@[simp] theorem writeChannels_mer (e : BusEntry) (vs : List (Nat × W32)) (s : State) :
    (writeChannels e vs s).mer = s.mer := by
  unfold writeChannels
  split
  · rfl
  · exact deviceWrite_mer ..

/-- `substituteBus` leaves the Meridian alone. -/
@[simp] theorem substituteBus_mer (b : Nat) (e : BusEntry) (s : State) : (substituteBus b e s).mer = s.mer := by
  unfold substituteBus
  exact ite_mer ((setTokenLogical_mer ..).trans (writeChannels_mer ..)) (writeChannels_mer ..)

/-- `busSubstitution` leaves the Meridian alone. -/
@[simp] theorem busSubstitution_mer (d : Nat) (s : State) : (busSubstitution d s).mer = s.mer :=
  foldl_mer (fun _ _ => ite_mer (substituteBus_mer ..) rfl) _ _

/-- `retirePhysical` leaves the Meridian alone. -/
@[simp] theorem retirePhysical_mer (p : Nat) (s : State) : (retirePhysical p s).mer = s.mer := by
  unfold retirePhysical
  exact ite_mer rfl rfl

/-- `takeover` leaves the Meridian alone. -/
@[simp] theorem takeover_mer (s : State) : (takeover s).mer = s.mer := by
  unfold takeover
  exact (irqSet_mer ..).trans (retirePhysical_mer ..)

/-- `migrationBoundary` leaves the Meridian alone. -/
@[simp] theorem migrationBoundary_mer (d : Nat) (ready : Bool) (s : State) : (migrationBoundary d ready s).mer = s.mer := by
  unfold migrationBoundary
  exact ite_mer (ite_mer (takeover_mer _) rfl) rfl

end Sys2Proof.Machine
end

section
/-! SUPPORT. Domains of the Meridian: the bits of TD_EN as they apply, and the boundary that comes next (R16 to R19, R399,
R419). -/

namespace Sys2Proof.Machine

/-! ### One domain changes -/

/-- From `s` to `t` domain `d` became `y`; of the rest of the MER page at most LATESTART changed. -/
def DomBecomes (d : Nat) (y : Domain) (s t : State) : Prop :=
  t.mer.en = s.mer.en ∧ t.mer.ticks = s.mer.ticks ∧ t.mer.cfg = s.mer.cfg ∧
    ∀ e, domOf t e = if e = d then y else domOf s e

/-- A state whose MER page differs in one domain and LATESTART. -/
theorem domBecomes_of_set {d : Nat} {y : Domain} {s t : State} {late : Bool}
    (h : t.mer = { s.mer with doms := Tab.set s.mer.doms d y, lateStart := late }) : DomBecomes d y s t := by
  refine ⟨by rw [h], by rw [h], by rw [h], fun e => ?_⟩
  unfold domOf
  rw [h, Tab.get_set]

/-- A state with the same MER page. -/
theorem domBecomes_of_same {d : Nat} {s t : State} (h : t.mer = s.mer) : DomBecomes d (domOf s d) s t := by
  refine ⟨by rw [h], by rw [h], by rw [h], fun e => ?_⟩
  have he : domOf t e = domOf s e := by rw [domOf, h, domOf]
  rw [he]
  split
  · rename_i hd
    rw [hd]
  · rfl

/-- A condition between two states and what a domain became in each. -/
theorem domBecomes_ite {p : Prop} [Decidable p] {d : Nat} {y z : Domain} {s t u : State} (ht : DomBecomes d y s t)
    (hu : DomBecomes d z s u) : DomBecomes d (if p then y else z) s (if p then t else u) := by
  split
  · exact ht
  · exact hu

/-! ### Start and stop (R16 to R19, R399) -/

/-- The MER page with one domain changed. -/
def Mer.withDom (m : Mer) (d : Nat) (y : Domain) : Mer := { m with doms := Tab.set m.doms d y }

/-- A domain as it stops being active (R17, R18). -/
def stoppedDom (x : Domain) : Domain := { x with active := false, clearing := false, begun := false }

/-- Stopping a domain changes of the Meridian that domain alone (R19). -/
theorem stopDomain_mer (d : Nat) (s : State) : (stopDomain d s).mer = s.mer.withDom d (stoppedDom (domOf s d)) := by
  unfold stopDomain stopBlocks
  rw [sluiceDomainStop_mer]
  rfl

/-- A domain as it becomes active at tick `u` (R17). -/
def startedDom (u : Nat) (x : Domain) : Domain :=
  { x with active := true, clearing := false, begun := false, tide := 0, first := if x.start < u then u + 1024 else x.start }

/-- Starting a domain changes of the Meridian that domain, and LATESTART where its start has passed (R17). -/
theorem startDomain_mer (d u : Nat) (s : State) : (startDomain d u s).mer =
    { s.mer with doms := Tab.set s.mer.doms d (startedDom u (domOf s d))
                 lateStart := s.mer.lateStart || decide ((domOf s d).start < u) } := by
  unfold startDomain startedDom
  by_cases h : (domOf s d).start < u
  · simp only [h, decide_true, if_true, irqSet_mer, Bool.or_true]
    rfl
  · simp only [h, decide_false, if_false, Bool.or_false]
    rfl

/-- The period of a domain is judged by the family of CFG (R16). -/
theorem periodOk_of_cfg {s t : State} (h : t.mer.cfg = s.mer.cfg) (x : Domain) : periodOk t x = periodOk s x := by
  unfold periodOk periodBounds
  rw [h]

/-- A domain once its bit of TD_EN has been applied at tick `u` (R16 to R18, R399). -/
def enabledDom (s : State) (u : Nat) (v : W32) (d : Nat) : Domain :=
  let x := domOf s d
  if bitOf v d then
    if x.active then { x with clearing := false } else if periodOk s x then startedDom u x else x
  else if x.active then
    if x.begun then { x with clearing := true, clearFrom := u } else stoppedDom x
  else x

/-- One bit of TD_EN sets its own domain and no other (R16 to R18). -/
theorem applyEn_domBecomes (ag u : Nat) (v : W32) (s : State) (d : Nat) :
    DomBecomes d (enabledDom s u v d) s (applyEn ag u v s d) :=
  domBecomes_ite
    (domBecomes_ite (domBecomes_of_set rfl)
      (domBecomes_ite (domBecomes_of_set (startDomain_mer d u s)) (domBecomes_of_same (refuseReg_mer ..))))
    (domBecomes_ite (domBecomes_ite (domBecomes_of_set rfl) (domBecomes_of_set (stopDomain_mer d s)))
      (domBecomes_of_same rfl))

/-- Bits of TD_EN, each applied once, set their own domains and no other. -/
theorem foldl_applyEn_doms (ag u : Nat) (v : W32) (l : List Nat) (hl : l.Nodup) (s : State) :
    let t := l.foldl (applyEn ag u v) s
    t.mer.en = s.mer.en ∧ t.mer.ticks = s.mer.ticks ∧ t.mer.cfg = s.mer.cfg ∧
      ∀ e, domOf t e = if e ∈ l then enabledDom s u v e else domOf s e := by
  induction l generalizing s with
  | nil => exact ⟨rfl, rfl, rfl, fun e => rfl⟩
  | cons d l ih =>
    obtain ⟨hd, hl⟩ := List.nodup_cons.1 hl
    obtain ⟨hen, hticks, hcfg, hdom⟩ := applyEn_domBecomes ag u v s d
    obtain ⟨ien, iticks, icfg, idom⟩ := ih hl (applyEn ag u v s d)
    refine ⟨ien.trans hen, iticks.trans hticks, icfg.trans hcfg, fun e => (idom e).trans ?_⟩
    by_cases he : e = d
    · subst he
      rw [if_neg hd, hdom, if_pos rfl, if_pos (List.mem_cons_self ..)]
    · have same : domOf (applyEn ag u v s d) e = domOf s e := (hdom e).trans (if_neg he)
      simp only [enabledDom, same, periodOk_of_cfg hcfg, List.mem_cons, he, false_or]

/-- Settles O28: the bits of TD_EN are applied in turn, and each sets its own domain. -/
theorem domainsStartAndClear : Obligations.DomainsStartAndClear := by
  intro s ag v u
  obtain ⟨hen, hticks, hcfg, hdom⟩ :=
    foldl_applyEn_doms ag u v (List.range 8) List.nodup_range (setMer { s.mer with en := v.setWidth 8 } s)
  refine ⟨writeTdEn ag v s, writes_of (f := writeTdEn ag v) rfl rfl, hen, hticks, hcfg, fun d => (hdom d).trans ?_⟩
  by_cases hd : 8 ≤ d
  · rw [if_neg (by simpa using hd)]
    exact (if_pos hd).symm
  · rw [if_pos (by simpa using hd)]
    exact (if_neg hd).symm

/-! ### The boundary that comes next (R419) -/

/-- What does not come before `b`, where `b` does not come before `c`, does not come before `c` (R419). -/
theorem earlier_false_trans {s : State} {a b c : Nat} (h : earlier s a b = false) (h' : earlier s b c = false) :
    earlier s a c = false := by
  simp only [earlier, Bool.or_eq_false_iff, Bool.and_eq_false_iff, decide_eq_false_iff_not, beq_eq_false_iff_ne] at *
  omega

/-- Of two domains at most one comes before the other. -/
theorem earlier_asymm {s : State} {a b : Nat} (h : earlier s a b = true) : earlier s b a = false := by
  simp only [earlier, Bool.or_eq_true, Bool.and_eq_true, decide_eq_true_eq, beq_iff_eq, Bool.or_eq_false_iff,
    Bool.and_eq_false_iff, decide_eq_false_iff_not, beq_eq_false_iff_ne] at *
  omega

/-- No domain comes before itself. -/
theorem earlier_irrefl (s : State) (a : Nat) : earlier s a a = false := by
  simp [earlier]

/-- The better of a candidate and a domain (R419). -/
def better (s : State) (best : Option Nat) (d : Nat) : Option Nat :=
  match best with
  | some b => if earlier s d b then some d else some b
  | none => some d

/-- The domains whose boundary tick has been reached. -/
def dueDomains (s : State) : List Nat :=
  (List.range 8).filter fun d => (domOf s d).active && decide ((domOf s d).nextTick ≤ now s)

/-- A domain is due where it is active and its next boundary tick has been reached. -/
theorem mem_dueDomains {s : State} {d : Nat} :
    d ∈ dueDomains s ↔ d < 8 ∧ (domOf s d).active = true ∧ (domOf s d).nextTick ≤ now s := by
  simp [dueDomains]

/-- The next boundary is that of the best of the due domains. -/
theorem nextBoundary_eq (s : State) : nextBoundary s = (dueDomains s).foldl (better s) none := rfl

/-- The best of a candidate and a list is one of them, and none of them comes before it. -/
theorem foldl_better {s : State} {l : List Nat} {b d : Nat} (h : l.foldl (better s) (some b) = some d) :
    d ∈ b :: l ∧ ∀ e ∈ b :: l, earlier s e d = false := by
  induction l generalizing b with
  | nil =>
    obtain rfl : b = d := Option.some.inj h
    simpa using earlier_irrefl s b
  | cons a l ih =>
    rw [List.foldl_cons] at h
    by_cases hab : earlier s a b = true
    · rw [show better s (some b) a = some a from if_pos hab] at h
      obtain ⟨hmem, hbest⟩ := ih h
      refine ⟨List.mem_cons_of_mem _ hmem, fun e he => ?_⟩
      obtain rfl | he := List.mem_cons.1 he
      · exact earlier_false_trans (earlier_asymm hab) (hbest a (List.mem_cons_self ..))
      · exact hbest e he
    · rw [show better s (some b) a = some b from if_neg hab] at h
      obtain ⟨hmem, hbest⟩ := ih h
      have hb := hbest b (List.mem_cons_self ..)
      refine ⟨?_, fun e he => ?_⟩
      · obtain rfl | hd := List.mem_cons.1 hmem
        · exact List.mem_cons_self ..
        · exact List.mem_cons_of_mem _ (List.mem_cons_of_mem _ hd)
      · obtain rfl | he := List.mem_cons.1 he
        · exact hb
        obtain rfl | he := List.mem_cons.1 he
        · exact earlier_false_trans (by simpa using hab) hb
        · exact hbest e (List.mem_cons_of_mem _ he)

/-- The next boundary is that of a due domain before which no due domain comes (R419). -/
theorem nextBoundary_first {s : State} {d : Nat} (h : nextBoundary s = some d) :
    d ∈ dueDomains s ∧ ∀ e ∈ dueDomains s, earlier s e d = false := by
  rw [nextBoundary_eq] at h
  generalize dueDomains s = l at *
  cases l with
  | nil => cases h
  | cons b l => exact foldl_better h

/-- Where no domain is due there is no next boundary. -/
theorem nextBoundary_none {s : State} (h : ∀ d, d < 8 → (domOf s d).active = true → now s < (domOf s d).nextTick) :
    nextBoundary s = none := by
  have nil : dueDomains s = [] := List.eq_nil_iff_forall_not_mem.2 fun d hd => by
    obtain ⟨h8, ha, ht⟩ := mem_dueDomains.1 hd
    exact Nat.not_lt.2 ht (h d h8 ha)
  rw [nextBoundary_eq, nil]
  rfl

/-! ### The boundary (R17, R18, R419) -/

/-- The end of a tide leaves the Meridian alone. -/
theorem closeTide_mer (d : Nat) (s : State) : (closeTide d s).mer = s.mer :=
  (foldl_mer (fun t n => aspEndTide_mer d n t) _ _).trans (foldl_mer (fun t r => endTide_mer r d t) _ _)

/-- Bundles tried again leave the Meridian alone. -/
theorem retryHeld_mer (s : State) : (retryHeld s).mer = s.mer :=
  foldl_mer (fun t r => ite_mer (tryIssue_mer r t) rfl) _ _

/-- The tide that begins changes of the Meridian its domain's advance alone (R17). -/
theorem openTide_mer (d : Nat) (s : State) : (openTide d s).mer = s.mer.withDom d (domOf s d).advance := by
  unfold openTide
  extract_lets s1 s2 s3 s4
  calc (busSubstitution d (applyBusCommits d s4)).mer
    _ = s4.mer := (busSubstitution_mer ..).trans (applyBusCommits_mer ..)
    _ = s3.mer := foldl_mer (fun t n => sspFlag_mer d n t) _ _
    _ = s2.mer := sluiceBoundary_mer ..
    _ = s1.mer := foldl_mer (fun t r => newTide_mer r d t) _ _

/-- A domain after its boundary: stopped where its clear has come due, else in its next tide (R17, R18). -/
def afterBoundary (x : Domain) : Domain :=
  if x.clearing = true ∧ x.clearFrom ≤ x.nextTick then stoppedDom x else x.advance

/-- A boundary changes of the Meridian its own domain alone (R419). -/
theorem tideBoundary_mer (d : Nat) (s : State) :
    (tideBoundary d s).mer = s.mer.withDom d (afterBoundary (domOf s d)) := by
  unfold tideBoundary afterBoundary
  extract_lets x s1
  have h1 : s1.mer = s.mer := ite_mer (closeTide_mer d s) rfl
  have hx : domOf s1 d = x := by
    unfold domOf
    rw [h1]
    rfl
  by_cases h : x.clearing = true ∧ x.clearFrom ≤ x.nextTick
  · rw [if_pos h, if_pos h, stopDomain_mer, h1, hx]
  · rw [if_neg h, if_neg h, retryHeld_mer, migrationBoundary_mer, openTide_mer, h1, hx]

/-- Settles O29: the domain chosen is the first of those due, and of its boundary's many effects only its own advance reaches
the Meridian. -/
theorem tideBoundaryAdvancesOneDomain : Obligations.TideBoundaryAdvancesOneDomain := by
  intro s
  refine ⟨fun d hd => ?_, fun h => ?_⟩
  · obtain ⟨hmem, hfirst⟩ := nextBoundary_first hd
    obtain ⟨h8, ha, ht⟩ := mem_dueDomains.1 hmem
    refine ⟨h8, ha, ht, fun e he hea het => hfirst e (mem_dueDomains.2 ⟨he, hea, het⟩), tideBoundary d s, ?_,
      tideBoundary_mer d s⟩
    show execTideBoundary s = _
    unfold execTideBoundary
    rw [hd]
  · show execTideBoundary s = _
    unfold execTideBoundary
    rw [nextBoundary_none h]

end Sys2Proof.Machine
end

section
/-! SUPPORT. Far reads and posted far stores of a reed as they end (R60, R61, R173, R292). -/

namespace Sys2Proof.Machine

/-! ### Far reads (R60) -/

/-- FAR_READ_DATA of a reed that waits on a far read. -/
theorem exec_farReadData {s : State} {r : Nat} {f : Far} (hr : r < 544) (h : waitingRead s r = some f) (data : W64) (ok : Bool) :
    exec (.farReadData r data ok) s = .next (farArrives r f data ok s) := by
  show execFarReadData r data ok s = _
  unfold execFarReadData
  rw [if_neg (Nat.not_le.2 hr), h]

/-- Data from outside the device are taken as they come, or fail the read (R60, R162). -/
theorem farArrives_remote {s : State} {r : Nat} {f : Far}
    (h : ((touched f.byte f.len).any fun w => remotePlace (placeOf s r w)) = true) (data : W64) (ok : Bool) :
    farArrives r f data ok s = if ok then resumeBundle r (some data.toNat) (farCharge s r f.tgt (f.byte / 2)) (endFarRead r s)
      else failFarRead r 4 (f.byte / 2) (endFarRead r s) := if_pos h

/-- What the device's own memory holds is not remote. -/
theorem remotePlace_of_word {pl : Place} (h : pl.word.isSome) : remotePlace pl = false := by
  cases pl with
  | host _ | atlas _ _ => cases h
  | _ => rfl

/-- Words of the device's own memories without an error are read as they stand (R60, R190). -/
theorem localRead_sound {s : State} {r : Nat} {f : Far}
    (hfirst : (placeOf s r (f.byte / 2)).word.isSome)
    (h : ∀ w ∈ touched f.byte f.len, rebacked s (placeOf s r w) = false ∧ placeBad s (placeOf s r w) = false) :
    localRead r f s = (.ok (bytesAt s r f.byte f.len), s) := by
  have hnone : ((touched f.byte f.len).find? fun w => rebacked s (placeOf s r w) || placeBad s (placeOf s r w)) = none := by
    refine List.find?_eq_none.2 fun w hw => ?_
    obtain ⟨hb, he⟩ := h w hw
    simp [hb, he]
  unfold localRead
  simp only [hnone]
  cases hp : placeOf s r (f.byte / 2) with
  | page _ | reserved =>
    rw [hp] at hfirst
    cases hfirst
  | _ => rfl

/-- A far read of the device's own memories that meets no error completes its bundle with what they hold (R60). -/
theorem farArrives_local {s : State} {r : Nat} {f : Far}
    (h : ∀ w, w = f.byte / 2 ∨ w ∈ touched f.byte f.len →
      (placeOf s r w).word.isSome ∧ rebacked s (placeOf s r w) = false ∧ placeBad s (placeOf s r w) = false)
    (data : W64) (ok : Bool) : farArrives r f data ok s =
      resumeBundle r (some (bytesAt s r f.byte f.len)) (farCharge s r f.tgt (f.byte / 2)) s := by
  have hlocal : ¬ ((touched f.byte f.len).any fun w => remotePlace (placeOf s r w)) = true := by
    intro hany
    obtain ⟨w, hw, hremote⟩ := List.any_eq_true.1 hany
    rw [remotePlace_of_word (h w (.inr hw)).1] at hremote
    cases hremote
  unfold farArrives
  rw [if_neg hlocal, localRead_sound (h _ (.inl rfl)).1 fun w hw => (h w (.inr hw)).2]

/-- The timeout of a HOST or ATLAS access has run out (R60, R62). -/
theorem timedOut_of {s : State} {x : Reed} {tgt since : Nat} (ht : tgt = 4 ∨ tgt = 5)
    (h : since + 16 * max 1 (fld x.page.farTmo (16 * (tgt - 4)) 16) ≤ now s) : timedOut s x tgt since = true := by
  rcases ht with rfl | rfl <;> exact decide_eq_true h

/-- FAR_READ_TIMEOUT once the timeout has run out fails the read (R60). -/
theorem exec_farReadTimeout {s : State} {r since : Nat} {f : Far} (hr : r < 544) (h : waitingRead s r = some f)
    (hw : (reedOf s r).wait = some (.farRead since)) (ht : timedOut s (reedOf s r) f.tgt since = true) :
    let x := reedOf s r
    exec (.farReadTimeout r) s =
      .next (failFarRead r 3 (f.byte / 2) (lateFarRead r (setReed r { x with lateReads := x.lateReads + 1 } s))) := by
  show execFarReadTimeout r s = _
  unfold execFarReadTimeout
  rw [if_neg (Nat.not_le.2 hr)]
  simp only [h, hw]
  rw [if_pos ht]

/-- A late request that leaves its list changes no reed. -/
theorem reedOf_dropLateRead (r : Nat) (s : State) (q : Nat) : reedOf (dropLateRead r s) q = reedOf s q := by
  unfold dropLateRead
  split
  · rfl
  · split <;> rfl

/-- FAR_READ_LATE of a reed that has late reads counts one of them (R60). -/
theorem exec_farReadLate {s : State} {r : Nat} (hr : r < 544) (h : 0 < (reedOf s r).lateReads) :
    exec (.farReadLate r) s = .next (countLate r (dropLateRead r s)) := by
  show execFarReadLate r s = _
  unfold execFarReadLate
  rw [if_neg (Nat.not_le.2 hr), if_neg (Nat.ne_of_gt h)]

/-- A late read that is counted leaves the reed's late reads and joins its counter (R60). -/
theorem reedOf_countLate {s : State} {r : Nat} {x : Reed} (hx : reedOf s r = x) (h : 0 < x.lateReads) :
    reedOf (countLate r s) r =
      { x with lateReads := x.lateReads - 1, page := { x.page with late := satInc 0xFFFF x.page.late } } := by
  subst hx
  unfold countLate
  simp only [if_neg (Nat.ne_of_gt h), reedOf_setReed]

/-! ### The store buffer (R61) -/

/-- Each reed waits, or does not, as it did. -/
def WaitsKept (s t : State) : Prop := ∀ q, (reedOf t q).wait = (reedOf s q).wait

/-- Waits that are kept are kept on. -/
theorem WaitsKept.trans {s t u : State} (h : WaitsKept s t) (k : WaitsKept t u) : WaitsKept s u := fun q => (k q).trans (h q)

/-- A reed rewritten with its wait as it was keeps every wait. -/
theorem waitsKept_setReed {s : State} {r : Nat} {x : Reed} (h : x.wait = (reedOf s r).wait) : WaitsKept s (setReed r x s) := by
  intro q
  by_cases hq : q = r
  · rw [hq, reedOf_setReed, h]
  · rw [reedOf_setReed_other _ _ _ _ hq]

/-- With no reed changed every wait is kept. -/
theorem waitsKept_of_reeds {s t : State} (h : t.reeds = s.reeds) : WaitsKept s t := fun q => by rw [reedOf_of h]

/-- The oldest store that leaves the buffer changes no wait. -/
theorem waitsKept_popStore (r : Nat) (s : State) : WaitsKept s (popStore r s) := waitsKept_setReed rfl

/-- A store that fails changes no wait. -/
theorem waitsKept_storeFailed (r a : Nat) (s : State) : WaitsKept s (storeFailed r a s) :=
  (waitsKept_setReed (x := { reedOf s r with page := { (reedOf s r).page with werr := true } }) rfl).trans
    (waitsKept_of_reeds rfl)

/-- The places of a reed's words do not change as the buffer moves up. -/
theorem placeOf_popStore (r q a : Nat) (s : State) : placeOf (popStore r s) q a = placeOf s q a := rfl

/-- Nobody waits for a place in the buffer. -/
theorem storeLeft_eq_self {s : State} {r : Nat} (h : ∀ c, (reedOf s r).wait ≠ some (.storeFull c)) : storeLeft r s = s := by
  unfold storeLeft
  split
  · rename_i c hc
    exact absurd hc (h c)
  · rfl

/-- No bundle is held at its boundary. -/
theorem retryHeld_eq_self {s : State} (h : ∀ q, (reedOf s q).wait ≠ some .held) : retryHeld s = s := by
  unfold retryHeld
  induction reedNumbers s with
  | nil => rfl
  | cons q qs ih => rw [List.foldl_cons, if_neg (h q), ih]

/-- After an end of a store that no reed awaited nothing more happens. -/
theorem storeLeft_of_waitsKept {s t : State} {r : Nat} (hk : WaitsKept s t)
    (h : ∀ c, (reedOf s r).wait ≠ some (.storeFull c)) : storeLeft r t = t :=
  storeLeft_eq_self fun c => (hk r).symm ▸ h c

/-- After a state in which no bundle was held, waits kept, none is tried again. -/
theorem retryHeld_of_waitsKept {s t : State} (hk : WaitsKept s t) (h : ∀ q, (reedOf s q).wait ≠ some .held) :
    retryHeld t = t := retryHeld_eq_self fun q => (hk q).symm ▸ h q

/-! ### A store reaches its target (R173, R292) -/

/-- A store with words out of reach fails, at its first word (R61). -/
theorem storeArrives_unsent {s : State} {r : Nat} {e : FarStore} {w : StoreWord} {ws : List StoreWord} (he : e.words = w :: ws)
    (h : e.words.any (storeUnsent s r) = true) : storeArrives r e s = storeFailed r w.addr s := by
  unfold storeArrives
  rw [he] at h ⊢
  exact if_pos h

/-- A store to host memory goes out as one write (R292). -/
theorem storeArrives_host {s : State} {r a : Nat} {e : FarStore} {w : StoreWord} {ws : List StoreWord} (he : e.words = w :: ws)
    (hw : placeOf s r w.addr = .host a) (h : e.words.any (storeUnsent s r) = false) :
    storeArrives r e s = hostWrite (e.words.map fun v => (v.addr - 0x20000000000, v)) s := by
  unfold storeArrives
  rw [he] at h ⊢
  simp only [hw]
  exact if_neg (by rw [h]; decide)

/-- No token slot lies below the token area (R171). -/
theorem enabledSlot_below {o : Nat} (h : o < tokenArea) (s : State) (b : Nat) : enabledSlot s (.pool b o) = none := by
  have hslot : slotAt o = none := if_neg (by omega)
  unfold enabledSlot
  simp only [hslot]

/-- Words of no token slot have none to close or to be late for. -/
theorem slotsOnce_eq_nil {s : State} {pls : List Place} (h : ∀ pl ∈ pls, enabledSlot s pl = none) : slotsOnce s pls = [] := by
  unfold slotsOnce
  rw [List.filterMap_eq_nil_iff.2 h]
  rfl

/-- A reed store that meets no token slot is written whole (R173, R175). -/
theorem reedStore_of_noSlot {s : State} {r : Nat} {tags : List Nat} {ws : List StoreWord}
    (h : ∀ p ∈ placed s r ws, enabledSlot s p.1 = none) : reedStore r tags ws s = deviceWrite (placed s r ws) s := by
  have hok : ∀ p ∈ placed s r ws, tagOk s tags p.1 = true := fun p hp => by
    unfold tagOk
    rw [h p hp]
  have hgood : (placed s r ws).filter (fun p => tagOk s tags p.1) = placed s r ws := List.filter_eq_self.2 hok
  have hlate : (placed s r ws).filter (fun p => !tagOk s tags p.1) = [] :=
    List.filter_eq_nil_iff.2 fun p hp => by simp [hok p hp]
  unfold reedStore
  simp only [hgood, hlate]
  rw [slotsOnce_eq_nil (by simp), slotsOnce_eq_nil]
  · rfl
  · intro pl hpl
    obtain ⟨p, hp, rfl⟩ := List.mem_map.1 (List.mem_filter.1 hpl).1
    exact h p hp

/-- A store outside the banks triggers no bus and no output slot (R231, R318). -/
theorem afterSysStore_of_noBank {ws : List PlacedWord} (h : ∀ p ∈ ws, ∀ a, p.1 ≠ .bank a) (s : State) :
    afterSysStore ws s = s := by
  unfold afterSysStore
  induction ws with
  | nil => rfl
  | cons p ws ih =>
    rw [List.foldl_cons]
    have hp := h p (List.mem_cons_self ..)
    split
    · rename_i a ha
      exact absurd ha (hp a)
    · exact ih fun q hq => h q (List.mem_cons_of_mem _ hq)

/-- A store to a bed pool below its token area is written, and that is all (R173). -/
theorem storeArrives_pool {s : State} {r : Nat} {e : FarStore} {w : StoreWord} {ws : List StoreWord} (he : e.words = w :: ws)
    (h : ∀ v ∈ e.words, ∃ b o, placeOf s r v.addr = .pool b o ∧ o < tokenArea) :
    storeArrives r e s = deviceWrite (placed s r e.words) s := by
  have hplaced : ∀ p ∈ placed s r e.words, ∃ b o, p.1 = .pool b o ∧ o < tokenArea := fun p hp => by
    obtain ⟨v, hv, rfl⟩ := List.mem_map.1 hp
    exact h v hv
  have hsent : ¬ e.words.any (storeUnsent s r) = true := fun hany => by
    obtain ⟨v, hv, hun⟩ := List.any_eq_true.1 hany
    obtain ⟨b, o, hpl, -⟩ := h v hv
    simp [storeUnsent, hpl, farUnsent, rebacked] at hun
  obtain ⟨b, o, hfirst, -⟩ := h w (he ▸ List.mem_cons_self ..)
  have hstore : storeArrives r e s = afterSysStore (placed s r e.words) (reedStore r e.tags e.words s) := by
    unfold storeArrives
    rw [he] at hsent ⊢
    simp only [hfirst]
    exact if_neg hsent
  rw [hstore, reedStore_of_noSlot, afterSysStore_of_noBank]
  · intro p hp a
    obtain ⟨b, o, hpl, -⟩ := hplaced p hp
    simp [hpl]
  · intro p hp
    obtain ⟨b, o, hpl, ho⟩ := hplaced p hp
    rw [hpl, enabledSlot_below ho]

/-- A write of host memory changes no reed. -/
theorem hostWrite_reeds (ws : List (Nat × StoreWord)) (s : State) : (hostWrite ws s).reeds = s.reeds := by
  unfold hostWrite
  simp only []
  split <;> rfl

/-! ### The rows of a posted store (R61) -/

/-- FAR_STORE_ARRIVAL with a store in the buffer. -/
theorem exec_farStoreArrival {s : State} {r : Nat} {e : FarStore} {es : List FarStore} (hr : r < 544)
    (h : (reedOf s r).stores = e :: es) :
    exec (.farStoreArrival r) s = .next (retryHeld (storeLeft r (storeArrives r e (popStore r s)))) := by
  show execFarStoreArrival r s = _
  unfold execFarStoreArrival
  rw [if_neg (Nat.not_le.2 hr), h]

/-- FAR_STORE_ARRIVAL where no reed waits for it: the store's effect at its target is all (R61). -/
theorem exec_farStoreArrival_unawaited {s t : State} {r : Nat} {e : FarStore} {es : List FarStore} (hr : r < 544)
    (h : (reedOf s r).stores = e :: es) (hfull : ∀ c, (reedOf s r).wait ≠ some (.storeFull c))
    (hheld : ∀ q, (reedOf s q).wait ≠ some .held) (ht : storeArrives r e (popStore r s) = t)
    (hk : WaitsKept (popStore r s) t) : exec (.farStoreArrival r) s = .next t := by
  have hkept := (waitsKept_popStore r s).trans hk
  rw [exec_farStoreArrival hr h, ht, storeLeft_of_waitsKept hkept hfull, retryHeld_of_waitsKept hkept hheld]

/-- FAR_STORE_TIMEOUT of a store whose timeout has run out, which no bundle waits behind, fails it (R61). -/
theorem exec_farStoreTimeout {s : State} {r : Nat} {e : FarStore} {w : StoreWord} {ws : List StoreWord} {es : List FarStore}
    (hr : r < 544) (h : (reedOf s r).stores = e :: es) (he : e.words = w :: ws)
    (hfull : ∀ c, (reedOf s r).wait ≠ some (.storeFull c)) (ht : timedOut s (reedOf s r) e.tgt e.since = true) :
    exec (.farStoreTimeout r) s = .next (storeFailed r w.addr (popStore r s)) := by
  show execFarStoreTimeout r s = _
  unfold execFarStoreTimeout
  rw [if_neg (Nat.not_le.2 hr), h]
  simp only [he]
  rw [if_pos ht]
  exact congrArg _ (storeLeft_of_waitsKept ((waitsKept_popStore r s).trans (waitsKept_storeFailed _ _ _)) hfull)

/-- FAR_STORE_FAIL of a store that may still stand at the buffer's head (R61). -/
theorem exec_farStoreFail {s : State} {r a : Nat} {e : FarStore} {es : List FarStore} (hr : r < 544) (ha : a < 2 ^ 48)
    (h : (reedOf s r).stores = e :: es) (hfull : ∀ c, (reedOf s r).wait ≠ some (.storeFull c)) :
    exec (.farStoreFail r a) s =
      .next (storeFailed r a (if (e.words.any fun v => v.addr == a) then popStore r s else s)) := by
  show execFarStoreFail r a s = _
  unfold execFarStoreFail
  rw [if_neg (by omega), h]
  simp only []
  split
  · exact congrArg _ (storeLeft_of_waitsKept ((waitsKept_popStore r s).trans (waitsKept_storeFailed _ _ _)) hfull)
  · rfl

/-- FAR_STORE_FAIL of a store that has left the buffer (R61). -/
theorem exec_farStoreFail_empty {s : State} {r a : Nat} (hr : r < 544) (ha : a < 2 ^ 48) (h : (reedOf s r).stores = []) :
    exec (.farStoreFail r a) s = .next (storeFailed r a s) := by
  show execFarStoreFail r a s = _
  unfold execFarStoreFail
  rw [if_neg (by omega), h]

/-- Settles O33: a far read ends as its place says; a posted store leaves the buffer, has its effect at its target, and where no
bundle waits for its place nothing follows. -/
theorem farAccessesEnd : Obligations.FarAccessesEnd := by
  intro s r hr x tmo failed
  refine ⟨fun f since data ok hf hw => ⟨fun h => ?remote, fun h => ?own, fun ht h => ?timeout⟩, fun h => ?late,
    fun e w ws es hs he hfull hheld => ?stores, fun hs a ha => exec_farStoreFail_empty hr ha hs⟩
  case remote => rw [exec_farReadData hr hf, farArrives_remote h]
  case own => rw [exec_farReadData hr hf, farArrives_local h]
  case timeout => exact exec_farReadTimeout hr hf hw (timedOut_of ht h)
  case late => exact ⟨_, exec_farReadLate hr h, reedOf_countLate (reedOf_dropLateRead r s r) h⟩
  case stores =>
    intro popped
    have hpopped : popped = popStore r s := by
      unfold popStore
      simp only [show (reedOf s r).stores = e :: es from hs]
      rfl
    rw [hpopped]
    refine ⟨fun hpool => ?pool, fun hhost hsent => ?host, fun hun => ?unsent,
      fun ht h => exec_farStoreTimeout hr hs he hfull (timedOut_of ht h), fun a ha => exec_farStoreFail hr ha hs hfull⟩
    case pool =>
      have hreeds := deviceWrite_reeds (placed s r e.words) (popStore r s)
      refine ⟨_, exec_farStoreArrival_unawaited hr hs hfull hheld (storeArrives_pool he hpool) (waitsKept_of_reeds hreeds),
        deviceWrite_mem _ _ fun p hp a => ?_, reedOf_of hreeds r, fun q hq => ?_⟩
      · obtain ⟨v, hv, rfl⟩ := List.mem_map.1 hp
        obtain ⟨b, o, hpl, -⟩ := hpool v hv
        rw [placeOf_popStore, hpl]
        exact Place.noConfusion
      · exact (reedOf_of hreeds q).trans (reedOf_setReed_other _ _ _ _ hq)
    case host =>
      obtain ⟨a, hfirst⟩ := hhost w (he ▸ List.mem_cons_self ..)
      exact exec_farStoreArrival_unawaited hr hs hfull hheld (storeArrives_host he hfirst hsent)
        (waitsKept_of_reeds (hostWrite_reeds _ _))
    case unsent =>
      exact exec_farStoreArrival_unawaited hr hs hfull hheld (storeArrives_unsent he hun) (waitsKept_storeFailed _ _ _)

end Sys2Proof.Machine
end

section
/-! SUPPORT. Test procedures, the self-check of the spares and the HBM loop-backs (R48, R380, R382, R383, R385, R421). -/

namespace Sys2Proof.Machine

/-! ### Fields of a register -/

/-- A number whose field is replaced, bit by bit. -/
theorem testBit_putField (v lo n x j : Nat) : (putField v lo n x).testBit j =
    if lo ≤ j ∧ j < lo + n then x.testBit (j - lo) else v.testBit j := by
  have hsplit : putField v lo n x = 2 ^ lo * (2 ^ n * (v >>> (lo + n)) + x % 2 ^ n) + v % 2 ^ lo := by
    unfold putField
    rw [Nat.shiftLeft_eq, Nat.shiftLeft_eq, Nat.pow_add, Nat.mul_add, Nat.mul_comm _ (2 ^ lo * 2 ^ n), Nat.mul_assoc,
      Nat.mul_comm (x % 2 ^ n)]
  rw [hsplit, Nat.testBit_two_pow_mul_add _ (Nat.mod_lt _ (Nat.two_pow_pos lo)),
    Nat.testBit_two_pow_mul_add _ (Nat.mod_lt _ (Nat.two_pow_pos n))]
  by_cases hlo : j < lo
  · rw [if_pos hlo, if_neg (by omega), Nat.testBit_mod_two_pow, decide_eq_true hlo, Bool.true_and]
  · rw [if_neg hlo]
    by_cases hn : j - lo < n
    · rw [if_pos hn, if_pos (by omega), Nat.testBit_mod_two_pow, decide_eq_true hn, Bool.true_and]
    · rw [if_neg hn, if_neg (by omega), Nat.testBit_shiftRight]
      congr 1
      omega

/-- A bit of a register whose field is replaced. -/
theorem bitOf_putFld {w : Nat} (v : BitVec w) (lo n x : Nat) {j : Nat} (hj : j < w) :
    bitOf (putFld v lo n x) j = if lo ≤ j ∧ j < lo + n then x.testBit (j - lo) else bitOf v j := by
  rw [bitOf_eq_getLsbD, bitOf_eq_getLsbD, putFld, BitVec.getLsbD_ofNat, decide_eq_true hj, Bool.true_and, testBit_putField]
  rfl

/-- A field, bit by bit. -/
theorem testBit_fld {w : Nat} (v : BitVec w) (lo n j : Nat) : (fld v lo n).testBit j = (decide (j < n) && bitOf v (lo + j)) := by
  rw [fld, field, Nat.testBit_mod_two_pow, Nat.testBit_shiftRight, bitOf_eq_getLsbD]
  rfl

/-- A field just written reads back. -/
theorem fld_putFld_same {w lo n : Nat} (h : lo + n ≤ w) (v : BitVec w) (x : Nat) : fld (putFld v lo n x) lo n = x % 2 ^ n := by
  refine Nat.eq_of_testBit_eq fun j => ?_
  rw [testBit_fld, Nat.testBit_mod_two_pow]
  by_cases hj : j < n
  · rw [bitOf_putFld _ _ _ _ (by omega), if_pos (by omega), Nat.add_sub_cancel_left]
  · rw [decide_eq_false hj, Bool.false_and, Bool.false_and]

/-- The other fields are read as before. -/
theorem fld_putFld_other {w lo n l m : Nat} (hl : l + m ≤ w) (h : l + m ≤ lo ∨ lo + n ≤ l) (v : BitVec w) (x : Nat) :
    fld (putFld v lo n x) l m = fld v l m := by
  refine Nat.eq_of_testBit_eq fun j => ?_
  rw [testBit_fld, testBit_fld]
  by_cases hj : j < m
  · rw [bitOf_putFld _ _ _ _ (by omega), if_neg (by omega)]
  · rw [decide_eq_false hj, Bool.false_and, Bool.false_and]

/-- A bit of a register of which one bit is replaced. -/
theorem bitOf_putBit {w : Nat} (v : BitVec w) (i : Nat) (b : Bool) {j : Nat} (hj : j < w) :
    bitOf (putBit v i b) j = if j = i then b else bitOf v j := by
  rw [putBit, bitOf_putFld _ _ _ _ hj]
  by_cases hi : j = i
  · rw [if_pos (by omega), if_pos hi, hi, Nat.sub_self]
    cases b <;> rfl
  · rw [if_neg (by omega), if_neg hi]

/-! ### Test procedures (R380, R383, R385) -/

/-- What a procedure leaves in its unit touches neither TST nor SPR. -/
theorem procContents_keeps (proc target : Nat) (s : State) :
    (procContents proc target s).tst = s.tst ∧ (procContents proc target s).spr = s.spr ∧
      (procContents proc target s).binding = s.binding := by
  unfold procContents
  split <;> exact ⟨rfl, rfl, rfl⟩

/-- A retired reed is noted in SPR alone. -/
theorem retirePhysical_keeps (p : Nat) (s : State) : (retirePhysical p s).tst = s.tst ∧ (retirePhysical p s).mem = s.mem := by
  unfold retirePhysical
  split <;> exact ⟨rfl, rfl⟩

/-- A spare that fails its test is noted in SPR alone. -/
theorem procFailed_keeps (proc target : Nat) (s : State) :
    (procFailed proc target s).tst = s.tst ∧ (procFailed proc target s).mem = s.mem := by
  unfold procFailed
  split
  · split
    · exact retirePhysical_keeps ..
    · exact ⟨rfl, rfl⟩
  · exact ⟨rfl, rfl⟩
  · split <;> exact ⟨rfl, rfl⟩
  · exact ⟨rfl, rfl⟩

/-- A procedure at its end, but for the report: its unit's contents, and the spare it retires (R380). -/
def procTested (proc target : Nat) (fail : Bool) (s : State) : State :=
  if fail then procFailed proc target (procContents proc target s) else procContents proc target s

/-- The end of a procedure is its effect and its report (R383, R421). -/
theorem procEnd_eq (proc target : Nat) (fail : Bool) (first : Nat) (s : State) : procEnd proc target fail first s =
    fireSource 6 (fbRaise 0x0E01 (BitVec.ofNat 64 (proc + fail.toNat * 256 + first % 65536 * 65536)) (procTested proc target fail s)) := rfl

/-- The end of a procedure changes nothing more of TST, the memory and SPR than its effect does. -/
theorem procEnd_keeps (proc target : Nat) (fail : Bool) (first : Nat) (s : State) :
    let t := procEnd proc target fail first s
    t.tst = s.tst ∧ t.mem = (procContents proc target s).mem ∧ t.spr = (procTested proc target fail s).spr := by
  obtain ⟨htst, -, -⟩ := procContents_keeps proc target s
  obtain ⟨hftst, hfmem⟩ := procFailed_keeps proc target (procContents proc target s)
  rw [procEnd_eq]
  simp only [fireSource_tst, fireSource_mem, fireSource_spr]
  refine ⟨?_, ?_, rfl⟩
  · cases fail
    · exact htst
    · exact hftst.trans htst
  · cases fail
    · rfl
    · exact hfmem

/-- Bytes taken out of a memory read 0. -/
theorem memGet_filter_not (p : Nat → Bool) (m : List Host.Cell) (a : Nat) :
    memGet (m.filter fun c => !p c.1) a = if p a then 0 else memGet m a := by
  rw [memGet_filter fun b => !p b]
  cases p a <;> rfl

/-- A cleared range of words reads 0, and the rest as before (R48). -/
theorem memGet_clearWords (lo n : Nat) (s : State) (b : Nat) :
    memGet (clearWords lo n s).mem b = if 2 * lo ≤ b ∧ b < 2 * (lo + n) then 0 else memGet s.mem b := by
  refine (memGet_filter_not (fun a => decide (2 * lo ≤ a) && decide (a < 2 * (lo + n))) s.mem b).trans ?_
  simp only [Bool.and_eq_true, decide_eq_true_eq]

/-- A test of a reed or a pool leaves its words at 0, and every other byte as it was (R380). -/
theorem memGet_procContents {proc : Nat} (h : proc = 1 ∨ proc = 2) (target : Nat) (s : State) (b : Nat) :
    let lo := if proc = 1 then reedBase target else poolBase target
    let size := if proc = 1 then 0x40000 else 0x200000
    memGet (procContents proc target s).mem b = if 2 * lo ≤ b ∧ b < 2 * (lo + size) then 0 else memGet s.mem b := by
  rcases h with rfl | rfl <;> exact memGet_clearWords ..

/-- The test of a Surveyor and a pace sweep write no memory (R380). -/
theorem procContents_mem {proc : Nat} (h : proc = 3 ∨ proc = 5) (target : Nat) (s : State) :
    (procContents proc target s).mem = s.mem := by
  rcases h with rfl | rfl <;> rfl

/-- A unit that passes its test stays as the inventory has it (R380). -/
theorem procEnd_pass_spr (proc target first : Nat) (s : State) : (procEnd proc target false first s).spr = s.spr :=
  (procEnd_keeps proc target false first s).2.2.trans (procContents_keeps proc target s).2.1

/-- A reed that is retired joins those out of use (R384). -/
theorem retirePhysical_failed {s : State} {p : Nat} (h : s.spr.failed.contains p = false) :
    (retirePhysical p s).spr.failed = insertNat p s.spr.failed := by
  unfold retirePhysical
  rw [if_neg (by rw [h]; decide)]
  rfl

/-- An idle spare is not out of use. -/
theorem not_failed_of_idleSpare {s : State} {p : Nat} (h : idleSpare s p = true) : s.spr.failed.contains p = false := by
  unfold idleSpare at h
  rw [Bool.and_eq_true, Bool.not_eq_true'] at h
  exact h.1

/-- An idle spare that fails its test is retired (R380). -/
theorem procEnd_fail_failed {s : State} {target : Nat} (h : idleSpare s target = true) (first : Nat) :
    (procEnd 1 target true first s).spr.failed = insertNat target s.spr.failed := by
  have htested : procTested 1 target true s = retirePhysical target (procContents 1 target s) := if_pos h
  rw [(procEnd_keeps 1 target true first s).2.2, htested]
  exact retirePhysical_failed (not_failed_of_idleSpare h)

/-- TEST_PROC_RUN runs a procedure that may run on its target, and refuses any other (R380, R385). -/
theorem writes_testProcRun (ag : Nat) (v : W32) (s : State) :
    let y := { s.tst with proc := fld v 16 8, target := fld v 0 10 }
    Writes (.testProcRun ag v) ag 0x7040 s (if procAllowed s y.proc y.target = true
      then { s with tst := { y with running := some (y.proc, y.target), done := false, fail := false, first := 0 } }
      else glbErr 5 (agentOf ag) (0x7040 / 4) { s with tst := { y with refused := true } }) :=
  writes_of (f := testRun ag v) rfl rfl

/-- TEST_PROC_END ends the procedure that runs, its result recorded (R380, R385). -/
theorem exec_testProcEnd {s : State} {proc target : Nat} (h : s.tst.running = some (proc, target)) (first : Option Nat) :
    exec (.testProcEnd first) s = .next (procEnd proc target first.isSome (first.getD 0)
      { s with tst := { s.tst with running := none, done := true, fail := first.isSome, first := first.getD 0 % 65536 } }) := by
  show execTestProcEnd first s = _
  unfold execTestProcEnd
  rw [h]
  rfl

/-- SPARE_BIST_PERIODIC tests every idle spare, and engine 32 while it is idle (R380). -/
theorem exec_spareBistPeriodic {s : State} (hfw : s.sec.fw = true) (ht : s.glb.target = none)
    (hst : s.glb.state = .service ∨ s.glb.state = .test) (reeds : List Nat) (engineFails : Bool) :
    let idle := (idleSpares s).filter fun r => !((s.spr.phase == .copy || s.spr.phase == .shadow) && s.spr.spare == r)
    let u := idle.foldl (fun t r => procEnd 1 r (reeds.contains r) 0 t) s
    exec (.spareBistPeriodic reeds engineFails) s = .next (if u.spr.engineIdle then procEnd 4 32 engineFails 0 u else u) := by
  show execSpareBistPeriodic reeds engineFails s = _
  unfold execSpareBistPeriodic
  rw [if_neg]
  rcases hst with hst | hst <;> simp [hfw, ht, hst]

/-! ### HBM loop-backs (R382) -/

/-- HBM_LOOPBACK_START starts a loop-back in Test alone, and with DEPTH 0 ends one (R382). -/
theorem writes_hbmLoopbackStart {p : Nat} (hp : p < 64) (ag : Nat) (v : W32) (s : State) :
    let y := hbmPageOf s p
    let off := 0x200028 + 0x1000 * p
    Writes (.hbmLoopbackStart ag p v) ag off s (
      if fld v 0 2 = 0 then setHbmPage p { y with loop := (y.loop &&& 0xC0FF0000#32) ||| (v &&& 0xFF00#32) } s
      else if s.glb.state ≠ .test then glbErr 4 (agentOf ag) (off / 4) s
      else setHbmPage p { y with loop := v &&& 0xFF03#32, loopEnd := now s + max 1 (fld v 8 8) * 2 ^ 20 } s) :=
  writes_of (f := writeHbmLoop ag p v) (if_neg (Nat.not_le.2 hp)) rfl

/-- A loop-back that has ended reads DEPTH 0, DONE, FAIL where an error or a malformed burst was found, and its errors
(R331, R382). -/
theorem loopDone_fields (v : W32) (errs : Nat) (formed : Bool) :
    let l := loopDone v errs formed
    fld l 0 2 = 0 ∧ bitOf l 31 = true ∧ (bitOf l 30 = true ↔ 0 < errs ∨ formed = false) ∧ fld l 16 8 = min errs 255 := by
  unfold loopDone
  extract_lets l
  refine ⟨?depth, ?done, ?fail, ?errs⟩
  case depth =>
    refine Nat.eq_of_testBit_eq fun j => ?_
    rw [testBit_fld]
    by_cases hj : j < 2
    · rw [bitOf_putFld _ _ _ _ (by omega), if_pos (by omega)]
      simp
    · simp [hj]
  case done =>
    simp [l, bitOf_putFld, bitOf_putBit]
  case fail =>
    simp [l, bitOf_putFld, bitOf_putBit, Nat.pos_iff_ne_zero]
  case errs =>
    rw [fld_putFld_other (by decide) (by decide), fld_putFld_same (by decide), Nat.mod_eq_of_lt (by omega)]

/-- The channel cleared after depth 3 reads 0, and the rest as before (R48, R382). -/
theorem memGet_clearChannel (p : Nat) (s : State) (b : Nat) : memGet (clearChannel p s).mem b =
    if 2 * hbmBase ≤ b ∧ hbmPc (b / 2 - hbmBase) = p then 0 else memGet s.mem b := by
  have hhalf : hbmBase ≤ b / 2 ↔ 2 * hbmBase ≤ b := by omega
  refine (memGet_filter_not (fun a => decide (hbmBase ≤ a / 2) && hbmPc (a / 2 - hbmBase) == p) s.mem b).trans ?_
  simp only [Bool.and_eq_true, decide_eq_true_eq, beq_iff_eq, hhalf]

/-- HBM_LOOPBACK_END of a loop-back of depth 3, or of one whose duration has passed (R382). -/
theorem exec_hbmLoopbackEnd {s : State} {p : Nat} (hp : p < 64) (hd : fld (hbmPageOf s p).loop 0 2 ≠ 0)
    (ht : fld (hbmPageOf s p).loop 0 2 = 3 ∨ (hbmPageOf s p).loopEnd ≤ now s) (errs : Nat) (formed : Bool) :
    let y := hbmPageOf s p
    exec (.hbmLoopbackEnd p errs formed) s = .next (setHbmPage p { y with loop := loopDone y.loop errs formed }
      (if fld y.loop 0 2 = 3 then clearChannel p s else s)) := by
  show execHbmLoopbackEnd p errs formed s = _
  unfold execHbmLoopbackEnd
  rw [if_neg (Nat.not_le.2 hp)]
  exact if_neg (by omega)

/-- Settles O54: each row by its lemma; the end of a procedure by what its test leaves, the end of a loop-back by its register
and the channel that depth 3 clears. -/
theorem testsRunAndSparesServe : Obligations.TestsRunAndSparesServe := by
  intro s x record
  refine ⟨fun ag v => writes_testProcRun ag v s, fun proc target first h => ?procEnd,
    fun reeds fails hfw ht hst => exec_spareBistPeriodic hfw ht hst reeds fails,
    fun ag p v hp => writes_hbmLoopbackStart hp ag v s, fun p errs formed hp => ?loopEnd⟩
  case procEnd =>
    intro fail u lo size
    obtain ⟨htst, hmem, -⟩ := procEnd_keeps proc target fail (first.getD 0) u
    refine ⟨_, exec_testProcEnd h first, htst, fun hp b => ?_, fun hp => ?_, fun hp => ?_, fun hp hf => ?_, fun hp hf hi => ?_⟩
    · exact (congrArg (memGet · b) hmem).trans (memGet_procContents hp target u b)
    · exact hmem.trans (procContents_mem hp target u)
    · subst hp
      cases first <;> rfl
    · cases first with
      | none => exact procEnd_pass_spr ..
      | some n => exact nomatch (show true = false from hf)
    · subst hp
      cases first with
      | none => exact nomatch (show false = true from hf)
      | some n => exact procEnd_fail_failed (s := u) hi n
  case loopEnd =>
    intro y d hd ht
    refine ⟨_, exec_hbmLoopbackEnd hp hd ht errs formed, ?_⟩
    simp only [hbmPageOf_setHbmPage]
    obtain ⟨hdepth, hdone, hfail, herrs⟩ := loopDone_fields y.loop errs formed
    refine ⟨hdepth, hdone, hfail, herrs, fun b => ?_, ?_⟩
    · by_cases h3 : d = 3
      · rw [if_pos h3, setHbmPage_mem, memGet_clearChannel]
        simp only [h3, true_and]
      · rw [if_neg h3, if_neg (fun h => h3 h.1), setHbmPage_mem]
    · by_cases h3 : d = 3
      · rw [if_pos h3]
        rfl
      · rw [if_neg h3]
        rfl

end Sys2Proof.Machine
end

section
/-! SUPPORT. Shifts by any count: the accumulator's three shifts as shifts of a bit vector, and the bit that an S-ALU shift
shifts out last (R96, R97, R99, R100). -/

namespace Sys2Proof.Machine

/-! ### Exact shifts, wrapped -/

/-- An exact left shift, wrapped, is the shift of the bits. -/
theorem wrap_toInt_mul_two_pow {w : Nat} (x : BitVec w) (n : Nat) : wrap w (x.toInt * 2 ^ n) = x <<< n := by
  have hpow : BitVec.ofInt w (2 ^ n) = BitVec.twoPow w n :=
    (BitVec.ofInt_natCast w (2 ^ n)).trans (BitVec.eq_of_toNat_eq (BitVec.toNat_twoPow w n).symm)
  rw [wrap, BitVec.ofInt_mul, BitVec.ofInt_toInt, hpow, BitVec.shiftLeft_eq_mul_twoPow]

/-- The floor of a signed value divided by 2^n, wrapped, is the arithmetic right shift of the bits. -/
theorem wrap_toInt_div_two_pow {w : Nat} (x : BitVec w) (n : Nat) : wrap w (x.toInt / 2 ^ n) = x.sshiftRight n := by
  rw [wrap, BitVec.sshiftRight_eq, Int.shiftRight_eq_div_pow]
  rfl

/-- An unsigned value divided by 2^n, wrapped, is the logical right shift of the bits. -/
theorem wrap_toNat_div_two_pow {w : Nat} (x : BitVec w) (n : Nat) : wrap w ((x.toNat / 2 ^ n : Nat) : Int) = x >>> n := by
  rw [wrap, BitVec.ofInt_natCast, ← Nat.shiftRight_eq_div_pow, ← BitVec.toNat_ushiftRight, BitVec.ofNat_toNat,
    BitVec.setWidth_eq]

/-- An arithmetic right shift by the width or more leaves nothing but the sign. -/
theorem sshiftRight_of_width_le {w n : Nat} (x : BitVec w) (h : w ≤ n) :
    x.sshiftRight n = if 0 ≤ x.toInt then 0 else BitVec.allOnes w := by
  split
  next hpos =>
    rw [BitVec.sshiftRight_eq_of_msb_false (by simp [BitVec.msb_eq_toInt, hpos]), BitVec.ushiftRight_eq_zero h]
    rfl
  next hneg =>
    rw [BitVec.sshiftRight_eq_of_msb_true (by simpa [BitVec.msb_eq_toInt] using hneg), BitVec.ushiftRight_eq_zero h,
      BitVec.not_zero]

/-! ### The accumulator's shifts (R96, R97) -/

/-- ASHL shifts the bits left and judges the exact product (R91, R96). -/
theorem accResult_ashl (a : W72) (m : W64) (sa sb : W32) (n : Nat) :
    accResult .ashl a m sa sb n = { value := a <<< n, overflow := guardOver (a.toInt * 2 ^ n) } :=
  congrArg (AccResult.mk · _) (wrap_toInt_mul_two_pow a n)

/-- ASHR shifts the bits right with the sign (R96). -/
theorem accResult_ashr (a : W72) (m : W64) (sa sb : W32) (n : Nat) :
    accResult .ashr a m sa sb n = { value := a.sshiftRight n, overflow := none } :=
  congrArg (AccResult.mk · none) (wrap_toInt_div_two_pow a n)

/-- ALSR shifts the bits right with zeros (R96). -/
theorem accResult_alsr (a : W72) (m : W64) (sa sb : W32) (n : Nat) :
    accResult .alsr a m sa sb n = { value := a >>> n, overflow := none } :=
  congrArg (AccResult.mk · none) (wrap_toNat_div_two_pow a n)

/-- A value that An holds is within the guard range (R91). -/
theorem guardOver_toInt (a : W72) : guardOver a.toInt = none := by
  have hhigh : a.toInt < 2 ^ 71 := BitVec.toInt_lt
  have hlow : -2 ^ 71 ≤ a.toInt := a.le_toInt
  rw [guardOver, if_neg (Int.not_le.2 hhigh), if_neg (Int.not_lt.2 hlow)]

/-- A non-zero value shifted left by 72 or more leaves the guard range on the side of its sign (R97). -/
theorem guardOver_toInt_mul_two_pow (a : W72) {n : Nat} (h : 72 ≤ n) :
    guardOver (a.toInt * 2 ^ n) = if a = 0 then none else some (decide (a.toInt < 0)) := by
  have hpow : (2 : Int) ^ 72 ≤ 2 ^ n := Int.ofNat_le.2 (Nat.pow_le_pow_right (by decide) h)
  split
  next hzero =>
    subst hzero
    simp [guardOver]
  next hne =>
    have hne' : a.toInt ≠ 0 := fun h0 => hne (BitVec.toInt_inj.1 h0)
    have hnonneg : (0 : Int) ≤ 2 ^ n := by omega
    unfold guardOver
    rcases Int.lt_or_gt_of_ne hne' with hneg | hpos
    · have hbelow : a.toInt * 2 ^ n ≤ -2 ^ 72 := by
        have hle := Int.mul_le_mul_of_nonneg_right (show a.toInt ≤ -1 by omega) hnonneg
        omega
      rw [if_neg (by omega), if_pos (by omega), decide_eq_true hneg]
    · have habove : 2 ^ 72 ≤ a.toInt * 2 ^ n := by
        have hle := Int.mul_le_mul_of_nonneg_right (show 1 ≤ a.toInt by omega) hnonneg
        omega
      rw [if_pos (by omega), decide_eq_false (by omega)]

/-! ### The bit last shifted out (R100) -/

/-- LSL shifts the bits left, whatever the count (R99). -/
theorem shl32_eq (a : W32) (c : Nat) : shl32 a c = a <<< c :=
  ite_eq_right_iff.2 fun hc => (BitVec.shiftLeft_eq_zero hc).symm

/-- LSR shifts the bits right with zeros, whatever the count (R99). -/
theorem shr32_eq (a : W32) (c : Nat) : shr32 a c = a >>> c :=
  ite_eq_right_iff.2 fun hc => (BitVec.ushiftRight_eq_zero hc).symm

/-- ASR shifts the bits right with the sign, whatever the count (R99). -/
theorem sar32_eq (a : W32) (c : Nat) : sar32 a c = a.sshiftRight c := wrap_toInt_div_two_pow a c

/-- The bit that an LSL shifts out last (R100). -/
theorem lastShiftedOut_lsl (a : W32) {c : Nat} (hc : 1 ≤ c) :
    lastShiftedOut .lsl a c = if c ≤ 32 then a.getLsbD (32 - c) else false := by
  show bitOf (shl32 a (c - 1)) 31 = _
  rw [bitOf_eq_getLsbD, shl32_eq, BitVec.getLsbD_shiftLeft]
  split
  next hle => simp [show ¬ 31 < c - 1 by omega, show 31 - (c - 1) = 32 - c by omega]
  next hgt => simp [show 31 < c - 1 by omega]

/-- The bit that an LSR shifts out last (R100). -/
theorem lastShiftedOut_lsr (a : W32) (c : Nat) :
    lastShiftedOut .lsr a c = if c ≤ 32 then a.getLsbD (c - 1) else false := by
  show bitOf (shr32 a (c - 1)) 0 = _
  rw [bitOf_eq_getLsbD, shr32_eq, BitVec.getLsbD_ushiftRight, Nat.add_zero]
  split
  next => rfl
  next hgt => exact BitVec.getLsbD_of_ge _ _ (by omega)

/-- The bit that an ASR shifts out last (R100). -/
theorem lastShiftedOut_asr (a : W32) {c : Nat} (hc : 1 ≤ c) :
    lastShiftedOut .asr a c = if c ≤ 32 then a.getLsbD (c - 1) else a.getLsbD 31 := by
  show bitOf (sar32 a (c - 1)) 0 = _
  rw [bitOf_eq_getLsbD, sar32_eq, BitVec.getLsbD_sshiftRight, Nat.add_zero]
  have hlt : c - 1 < 32 ↔ c ≤ 32 := by omega
  simp [hlt, BitVec.msb_eq_getLsbD_last]

/-- Settles O59: each shift as a shift of the bits, which a count of 72 or more empties and a count of 0 leaves; the bit last
shifted out by its table. -/
theorem shiftsFollowTheirCounts : Obligations.ShiftsFollowTheirCounts := by
  refine ⟨fun a m sa sb n _ => ⟨fun h72 => ⟨?ashl, ?alsr, ?ashr⟩, fun hzero o ho => ?countZero⟩,
    fun a c hc => ⟨lastShiftedOut_lsl a hc, lastShiftedOut_lsr a c, lastShiftedOut_asr a hc⟩⟩
  case ashl =>
    rw [accResult_ashl, BitVec.shiftLeft_eq_zero h72, guardOver_toInt_mul_two_pow a h72]
    rfl
  case alsr =>
    rw [accResult_alsr, BitVec.ushiftRight_eq_zero h72]
    rfl
  case ashr => rw [accResult_ashr, sshiftRight_of_width_le a h72]
  case countZero =>
    subst hzero
    rcases ho with rfl | rfl | rfl
    · rw [accResult_ashl, BitVec.shiftLeft_zero, Int.pow_zero, Int.mul_one, guardOver_toInt]
    · rw [accResult_ashr, BitVec.sshiftRight_zero]
    · rw [accResult_alsr, BitVec.ushiftRight_zero]

end Sys2Proof.Machine
end

section
/-! SUPPORT. Long operations as they retire, and exceptions as their handlers are entered: the context, the record and what is
left alone (R105 to R107, R110 to R112, R160 to R162). -/

namespace Sys2Proof.Machine

/-! ### Retirement of one operation (R107, R110 to R112) -/

/-- An operation that retires changes its own context. -/
theorem ctxOf_retireStation_same (u : Nat) (t : Station) (x : Reed) :
    (retireStation u t x).ctxOf t.ctx = retireCtx t (x.ctxOf t.ctx) := ctxOf_setCtx ..

/-- An operation that retires leaves the other contexts alone. -/
theorem ctxOf_retireStation_other (u : Nat) (t : Station) (x : Reed) {d : Nat} (h : d ≠ t.ctx) :
    (retireStation u t x).ctxOf d = x.ctxOf d := ctxOf_setCtx_other _ _ _ _ h

/-- What retirement does to a context, field by field: flags; the Q register, unless a younger operation targets it; a held
trap for a division by zero that traps. -/
theorem retireCtx_eq (t : Station) (k : Ctx) :
    let res := louResult t.op t.pr t.rm t.ftz t.a t.b
    let own := Tab.get 0 k.run.qIssue t.qd = t.seq
    retireCtx t k = { k with
      regs := (k.setFlags { sticky := res.sticky }).regs
      run := { k.run with
        q := if own then Tab.set k.run.q t.qd res.q else k.run.q
        qValid := if own then putBit k.run.qValid t.qd true else k.run.qValid
        held := if res.divZero && t.dze then k.run.held ++ [{ fpc := t.fpc, lop := t.op.code, qd := t.qd }] else k.run.held } } := by
  by_cases hown : Tab.get 0 k.run.qIssue t.qd = t.seq
  · simp only [retireCtx, setFlags_run, hown, if_true]
    split <;> rfl
  · simp only [retireCtx, setFlags_run, hown, if_false]
    split <;> rfl

/-! ### LOU_RETIRE (R106, R107) -/

/-- A reed that waits for the LOU is held at its boundary. -/
theorem wait_of_waitsLou {s : State} {r c : Nat} {x : Reed} (h : waitsLou s r x = some c) : x.wait = some .held := by
  unfold waitsLou at h
  split at h
  next hw => exact hw
  next => cases h

/-- A reed that is not held does not wait for the LOU. -/
theorem waitsLou_of_not_held {s : State} {r : Nat} {x : Reed} (h : x.wait ≠ some .held) : waitsLou s r x = none :=
  Option.eq_none_iff_forall_ne_some.2 fun _ hc => h (wait_of_waitsLou hc)

/-- A reed that waits has reached every beat that it waits for. -/
theorem tooEarly_of_waitsLou {s : State} {r c : Nat} {x : Reed} (h : waitsLou s r x = some c) (beat : Nat) :
    tooEarly x beat = false := by
  simp [tooEarly, wait_of_waitsLou h]

/-- LOU_RETIRE of an operation whose beat has come. -/
theorem exec_louRetire {s : State} {r u : Nat} {t : Station} (hr : r < 544) (hu : u < 5) (ht : unitOp (reedOf s r) u = some t)
    (he : tooEarly (reedOf s r) (retireBeat (reedOf s r) u t) = false)
    (hb : budgetFirst s r (reedOf s r) (retireBeat (reedOf s r) u t) = false) :
    exec (.louRetire r u) s = .next (retire r u t s) := by
  show execLouRetire r u s = _
  unfold execLouRetire
  rw [if_neg (by omega)]
  simp only [ht, he, hb]
  rfl

/-- Where no bundle is held, an operation that retires brings the clock to its beat. -/
theorem retire_of_not_held {s : State} {r : Nat} (u : Nat) (t : Station) (h : (reedOf s r).wait ≠ some .held) :
    retire r u t s = setReed r (retireStation u t
      { reedOf s r with clock := max (reedOf s r).clock (retireBeat (reedOf s r) u t) }) s := by
  unfold retire
  simp only [waitsLou_of_not_held h, if_neg h]

/-- Where a bundle waits for the LOU, it is charged the beats up to the retirement and tried again. -/
theorem retire_of_waitsLou {s : State} {r c : Nat} (u : Nat) (t : Station) (h : waitsLou s r (reedOf s r) = some c) :
    retire r u t s = tryIssue r (setReed r
      { retireStation u t (addBeats c (retireBeat (reedOf s r) u t - (reedOf s r).clock) (reedOf s r)) with wait := none } s) := by
  unfold retire
  simp only [h, if_pos (wait_of_waitsLou h)]

/-! ### The words of an exception record (R161) -/

/-- A word of a write to a reed's bank, with its offset from the canonical word `base`. -/
def bankWord (base : Nat) (p : W16 × Nat) : PlacedWord := (.bank (base + p.2), { addr := 0, value := p.1 })

/-- A word of a bank is written where it lies. -/
theorem putPlaced_bankWord (m : List Host.Cell) (base : Nat) (p : W16 × Nat) :
    putPlaced m (bankWord base p) = memSetWord m (base + p.2) p.1 := rfl

/-- Consecutive words of a bank written, read back word by word. -/
theorem memWord_putBankWords (base w : Nat) (vs : List W16) (n : Nat) {m : List Host.Cell} (hm : Memory.wf m = true) :
    memWord (((vs.zipIdx n).map (bankWord base)).foldl putPlaced m) w =
      if base + n ≤ w ∧ w < base + n + vs.length then vs.getD (w - (base + n)) 0 else memWord m w := by
  induction vs generalizing n m with
  | nil => exact (if_neg fun h => Nat.not_lt.2 h.1 h.2).symm
  | cons v vs ih =>
    rw [List.zipIdx_cons, List.map_cons, List.foldl_cons, putPlaced_bankWord, ih (n + 1) (memSetWord_wf _ _ hm), List.length_cons]
    rcases Nat.lt_trichotomy w (base + n) with hlt | rfl | hgt
    · rw [if_neg (by omega), if_neg (by omega), memWord_memSetWord_other _ _ _ _ (by omega)]
    · rw [if_neg (by omega), if_pos (by omega), memWord_memSetWord_same _ _ hm, Nat.sub_self, List.getD_cons_zero]
    · rw [memWord_memSetWord_other _ _ _ _ (by omega), show w - (base + n) = w - (base + (n + 1)) + 1 by omega,
        List.getD_cons_succ]
      exact ite_congr (propext (by omega)) (fun _ => rfl) (fun _ => rfl)

/-! ### Exception entry (R160) -/

/-- What exception entry stacks of a context whose next bundle is at `epc` (R160). -/
def Ctx.frame (epc : W16) (k : Ctx) : Frame :=
  { pc := epc, fsw := k.regs.fsw, preds := k.regs.preds, loops := k.run.loops, rep := k.run.rep, rsp := k.run.rsp
    depth := k.run.depth }

/-- A context at its handler's first bundle (R160). -/
def Ctx.entered (e : Exc) (epc : W16) (k : Ctx) : Ctx :=
  { k.setFlags e.raised with
    run := { k.run with
      frames := (k.setFlags e.raised).frame epc :: k.run.frames, rep := none
      pc := BitVec.ofNat 16 (fld k.page.xvecLive 0 16 + 128 * k.run.frames.length + 8 * e.cause) }
    sched := { k.sched with beats := k.sched.beats + 4 } }

/-- A context without a frame at the handler of an exception that raises no flag: its registers are as they were. -/
theorem entered_of_no_frame {e : Exc} {k : Ctx} (hf : k.run.frames = []) (hr : e.raised = {}) (epc : W16) :
    k.entered e epc = { k with
      run := { k.run with
        frames := [k.frame epc], rep := none, pc := BitVec.ofNat 16 (fld k.page.xvecLive 0 16 + 8 * e.cause) }
      sched := { k.sched with beats := k.sched.beats + 4 } } := by
  unfold Ctx.entered
  rw [hr, setFlags_none, hf]
  rfl

section
variable (r c : Nat) (e : Exc) (epc fpc npc : W16) (s : State)

/-- The context after exception entry. -/
theorem ctxAt_enterHandler : ctxAt (enterHandler r c e epc fpc npc s) r c = (ctxAt s r c).entered e epc := by
  unfold ctxAt enterHandler
  rw [reedOf_of (writePlaced_reeds ..), reedOf_setReed]
  exact (addBeats_ctx_same ..).trans (by rw [ctxOf_setCtx]; rfl)

/-- Exception entry leaves every other context of the device alone. -/
theorem otherCtxKept_enterHandler : OtherCtxKept r c s (enterHandler r c e epc fpc npc s) := by
  refine ⟨fun q hq => ?_, fun d hd => ?_⟩
  · unfold enterHandler
    rw [reedOf_of (writePlaced_reeds ..)]
    exact Tab.get_set_other _ _ _ _ _ hq
  · unfold ctxAt enterHandler
    rw [reedOf_of (writePlaced_reeds ..), reedOf_setReed]
    exact (addBeats_ctx_other _ _ _ _ hd).trans (ctxOf_setCtx_other _ _ _ _ hd)

/-- Exception entry reaches no block beyond the device's memories. -/
theorem farBlocksKept_enterHandler : FarBlocksKept s (enterHandler r c e epc fpc npc s) :=
  ⟨writePlaced_pending .., writePlaced_fresh .., writePlaced_glb .., writePlaced_pwr .., writePlaced_mer .., writePlaced_binding ..,
    writePlaced_qmg .., writePlaced_evr .., writePlaced_slc .., writePlaced_ssp .., writePlaced_tcu .., writePlaced_sec ..,
    writePlaced_tst ..⟩

/-- Exception entry writes the 16 words of its record, and no other word (R160, R161). -/
theorem memWord_enterHandler (hm : Memory.wf s.mem = true) (w : Nat) :
    let k := ctxAt s r c
    let a := reedBase r + recordAt k.page k.run.frames.length
    memWord (enterHandler r c e epc fpc npc s).mem w = if a ≤ w ∧ w < a + 16 then
      (recordWords e k.run.frames.length epc fpc npc (k.setFlags e.raised).regs.fsw).getD (w - a) 0 else memWord s.mem w := by
  unfold enterHandler
  rw [writePlaced_mem]
  exact memWord_putBankWords _ w (recordWords ..) 0 hm

end

/-- An exception that does not escalate enters its handler (R160, R164). -/
theorem takeExc_of_escReason_zero {s : State} {r c : Nat} {e : Exc} (epc fpc npc : W16)
    (h : escReason (ctxAt s r c) e.cause = 0) : takeExc r c e epc fpc npc s = enterHandler r c e epc fpc npc s :=
  if_neg fun hne => hne h

/-! ### LOU_TRAP_DELIVERY (R112, R160) -/

/-- The context after its oldest held trap is taken from the queue. -/
def Ctx.dropTrap (k : Ctx) : Ctx := { k with run := { k.run with held := k.run.held.tail } }

/-- The state in which a held trap of context `c` enters its handler: its trap is taken, and the bundle fetched is dropped. -/
def trapTaken (r c : Nat) (s : State) : State :=
  setReed r { (reedOf s r).setCtx c (ctxAt s r c).dropTrap with latch := [], wait := none } s

/-- The context whose trap is taken. -/
theorem ctxAt_trapTaken (r c : Nat) (s : State) : ctxAt (trapTaken r c s) r c = (ctxAt s r c).dropTrap := by
  unfold trapTaken
  rw [ctxAt, reedOf_setReed]
  exact ctxOf_setCtx ..

/-- Taking the trap leaves every other context alone. -/
theorem otherCtxKept_trapTaken (r c : Nat) (s : State) : OtherCtxKept r c s (trapTaken r c s) := by
  refine ⟨fun q hq => Tab.get_set_other _ _ _ _ _ hq, fun d hd => ?_⟩
  unfold trapTaken
  rw [ctxAt, reedOf_setReed]
  exact ctxOf_setCtx_other _ _ _ _ hd

/-- Contexts kept by one step and then by another are kept by both. -/
theorem OtherCtxKept.trans {r c : Nat} {s t u : State} (h1 : OtherCtxKept r c s t) (h2 : OtherCtxKept r c t u) :
    OtherCtxKept r c s u :=
  ⟨fun q hq => (h2.1 q hq).trans (h1.1 q hq), fun d hd => (h2.2 d hd).trans (h1.2 d hd)⟩

section
variable {r c : Nat} {s : State} (h : HeldTrap)

section
variable (hesc : escReason (ctxAt s r c) causeLOU = 0)
include hesc

/-- A held trap that does not escalate enters the LOU handler (R112, R160). -/
theorem deliverHeld_eq : deliverHeld r c h s =
    enterHandler r c h.exc (ctxAt s r c).run.pc h.fpc (ctxAt s r c).run.pc (trapTaken r c s) :=
  takeExc_of_escReason_zero (s := trapTaken r c s) (e := h.exc) _ _ _ (by rw [ctxAt_trapTaken]; exact hesc)

/-- The delivery of a held trap leaves every other context of the device alone. -/
theorem otherCtxKept_deliverHeld : OtherCtxKept r c s (deliverHeld r c h s) := by
  rw [deliverHeld_eq h hesc]
  exact (otherCtxKept_trapTaken r c s).trans (otherCtxKept_enterHandler ..)

/-- The delivery of a held trap reaches no block beyond the device's memories. -/
theorem farBlocksKept_deliverHeld : FarBlocksKept s (deliverHeld r c h s) := by
  rw [deliverHeld_eq h hesc]
  have hfar : FarBlocksKept (trapTaken r c s) _ :=
    farBlocksKept_enterHandler r c h.exc (ctxAt s r c).run.pc h.fpc (ctxAt s r c).run.pc (trapTaken r c s)
  exact hfar

/-- The context after the delivery of a held trap, no frame having been in use. -/
theorem ctxAt_deliverHeld (hf : (ctxAt s r c).run.frames = []) :
    let k := ctxAt s r c
    ctxAt (deliverHeld r c h s) r c = { k with
      run := { k.run with
        held := k.run.held.tail, frames := [k.frame k.run.pc], rep := none
        pc := BitVec.ofNat 16 (fld k.page.xvecLive 0 16 + 8 * causeLOU) }
      sched := { k.sched with beats := k.sched.beats + 4 } } := by
  rw [deliverHeld_eq h hesc, ctxAt_enterHandler, ctxAt_trapTaken, entered_of_no_frame (k := (ctxAt s r c).dropTrap) hf rfl]
  rfl

/-- The record of a held trap, no frame having been in use, and no other word is written (R161, R162). -/
theorem memWord_deliverHeld (hf : (ctxAt s r c).run.frames = []) (hm : Memory.wf s.mem = true) (w : Nat) :
    let k := ctxAt s r c
    let a := reedBase r + recordAt k.page 0
    memWord (deliverHeld r c h s).mem w = if a ≤ w ∧ w < a + 16 then
      (recordWords h.exc 0 k.run.pc h.fpc k.run.pc k.regs.fsw).getD (w - a) 0 else memWord s.mem w := by
  have hrec := memWord_enterHandler r c h.exc (ctxAt s r c).run.pc h.fpc (ctxAt s r c).run.pc (trapTaken r c s) hm w
  have hlen : (ctxAt s r c).dropTrap.run.frames.length = 0 := congrArg List.length hf
  have hflags : (ctxAt s r c).dropTrap.setFlags h.exc.raised = (ctxAt s r c).dropTrap := setFlags_none _
  simp only [ctxAt_trapTaken, hlen, hflags] at hrec
  rw [deliverHeld_eq h hesc]
  exact hrec

end

/-- LOU_TRAP_DELIVERY at a bundle boundary of a context with no frame in use and no overrun due. -/
theorem exec_louTrapDelivery {hs : List HeldTrap} (hr : r < 544)
    (hrun : (reedOf s r).running = some c) (hw : (reedOf s r).wait = none ∨ (reedOf s r).wait = some .held)
    (hh : (ctxAt s r c).run.held = h :: hs) (hf : (ctxAt s r c).run.frames = [])
    (hb : holdsOff (ctxAt s r c) = true ∨
      budgetSpent (ctxAt s r c) (bundleAt s r (reedOf s r) (ctxAt s r c).run.pc) = false) :
    exec (.louTrapDelivery r) s = .next (deliverHeld r c h s) := by
  have hready : trapReady (ctxAt s r c) = true := by simp [trapReady, hh, hf]
  have hbound : atBoundary (reedOf s r) = true := by rcases hw with hw | hw <;> simp [atBoundary, hw]
  have hdue : (!holdsOff (ctxAt s r c) && budgetSpent (ctxAt s r c)
      (bundleAt s r (reedOf s r) (ctxAt s r c).run.pc)) = false := by rcases hb with hb | hb <;> simp [hb]
  unfold ctxAt at hh hready hdue
  show execLouTrapDelivery r s = _
  unfold execLouTrapDelivery
  rw [if_neg (Nat.not_le.2 hr)]
  simp only [hrun, hh, hready, hbound, hdue]
  rfl

end

/-- Settles O34: a retirement at its beat or in a wait for the LOU, and the delivery of a held trap as exception entry. -/
theorem longOperationsRetire : Obligations.LongOperationsRetire := by
  intro s r hr
  refine ⟨fun u t hu ht => ⟨fun hw he => ?atBeat, fun c hc hb => ?waiting⟩, fun c h hs hrun hw hh hf hb hesc hm => ?trap⟩
  case atBeat =>
    have hb : budgetFirst s r (reedOf s r) (retireBeat (reedOf s r) u t) = false := by
      simp only [budgetFirst, waitsLou_of_not_held hw]
    refine ⟨_, exec_louRetire hr hu ht he hb, ?_⟩
    rw [retire_of_not_held u t hw]
    unfold OnlyCtx OnlyReed ctxAt
    rw [reedOf_setReed]
    exact ⟨⟨rfl, fun d hd => ctxOf_retireStation_other _ _ _ hd⟩, rfl, rfl, Tab.get_set_same ..,
      (ctxOf_retireStation_same ..).trans (retireCtx_eq ..)⟩
  case waiting =>
    rw [exec_louRetire hr hu ht (tooEarly_of_waitsLou hc _) hb, retire_of_waitsLou u t hc]
  case trap =>
    refine ⟨_, exec_louTrapDelivery h hr hrun hw hh hf hb, otherCtxKept_deliverHeld h hesc, farBlocksKept_deliverHeld h hesc, ?_⟩
    rw [ctxAt_deliverHeld h hesc hf]
    exact ⟨rfl, congrArg List.tail hh, rfl, rfl, memWord_deliverHeld h hesc hf hm⟩

end Sys2Proof.Machine
end

section
/-! SUPPORT. Long vectors over the reed's own banks (R142, R143): what LVCPY and LVADDF store, and a bundle of one syllable whose
stores stay in the reed's own memories. -/

namespace Sys2Proof.Machine

/-! ### A store to the reed's own memories -/

/-- The reed's own memories hold no token gate. -/
theorem gateEmpty_own (s : State) (r a : Nat) (h : a < 0x40000) : gateEmpty s (placeOf s r a) = false := by
  unfold gateEmpty
  split
  next hp _ =>
    simp only [placeOf, h, if_true, reedPlace] at hp
    split at hp <;> cases hp
  next => rfl

/-- No word of a store to the reed's own memories is placed in HBM. -/
theorem placed_own_not_hbm {s : State} {r byte len val : Nat} (hl : 0 < len) (hb : byte + len ≤ 0x80000) :
    ∀ p ∈ placed s r (storeWords byte len val), ∀ a, p.1 ≠ .hbm a := by
  intro p hp
  simp only [placed, storeWords, List.map_map, List.mem_map, Function.comp_apply] at hp
  obtain ⟨a, ha, rfl⟩ := hp
  have := (mem_touched hl).1 ha
  exact (placeOf_own s r a (by omega)).2

/-- What a local store sets off reaches none of the blocks far from the reed. -/
theorem farBlocksKept_store (r : Nat) (X : Reed) (ps : List PlacedWord) (ws : List StoreWord) (s : State) :
    FarBlocksKept s (afterLocalStore r ws (deviceWrite ps (setReed r X s))) := by
  simp [FarBlocksKept]

/-- A quiet lone bundle that stores in its reed's own memories: its bytes are written, no other byte,
no other context and no block far from it changes, and its own context is as after any quiet bundle (R44, R49). -/
theorem exec_storeOwn {i : Instr} {o : SylOp} {r c byte len val : Nat} {w : W32} {s : State} (hi : Spells i o r w)
    (h : Lone r c w s) (q : Quiet r c w s) (hm : Memory.wf s.mem = true) (hs : (loneEff r c w s).store = storeWords byte len val)
    (hl : 0 < len) (hb : byte + len ≤ 0x80000) :
    ∃ t, exec i s = .next t ∧ StoredOwn r byte len val s t ∧ OtherCtxKept r c s t ∧ FarBlocksKept s t ∧
      LoneCtx r c w s (ctxAt t r c) := by
  obtain ⟨X, hexec, hother, hctx, -⟩ := exec_quiet hi.1 hi.2 h q
  have hreed : ∀ p, reedOf (afterLocalStore r (loneEff r c w s).store
      (deviceWrite (placed (fetched r w s) r (loneEff r c w s).store) (setReed r X s))) p = reedOf (setReed r X s) p :=
    reedOf_of (by rw [afterLocalStore_reeds, deviceWrite_reeds])
  refine ⟨_, hexec, fun b => ?_, ⟨fun p hp => ?_, fun d hd => ?_⟩, farBlocksKept_store .., ?_⟩
  · rw [afterLocalStore_mem, hs, deviceWrite_mem _ _ (placed_own_not_hbm hl hb)]
    exact stored_own _ r byte len val hl hb hm b
  · rw [hreed, reedOf_setReed_other _ _ _ _ hp]
  · rw [ctxAt, hreed, reedOf_setReed]
    exact hother d hd
  · rw [ctxAt, hreed, reedOf_setReed]
    exact hctx

/-! ### What a long vector does over the own banks -/

/-- What a long vector works on: its parcels, its offsets in them and its number of elements (R142). -/
structure LongArgs where
  /-- the source parcel -/
  ps : Nat
  /-- the target parcel -/
  pt : Nat
  /-- the offset in the source -/
  so : Nat
  /-- the offset in the target -/
  to' : Nat
  /-- the number of elements -/
  n : Nat

/-- The arguments that the word of a long vector names (R142). -/
def longArgs (g : Regs) (w : W32) : LongArgs where
  ps := fld w 16 4
  pt := fld w 12 4
  so := (g.sOf (fld w 9 3)).toNat
  to' := (g.sOf (fld w 6 3)).toNat
  n := (g.sOf (fld w 3 3)).toNat

/-- The elements that a long vector writes, with the flags of each: copies of the source, or sums with the target (R142,
R143). -/
def longSums (o : VmemOp) (g : Regs) (s : State) (r n sa ta : Nat) : List FRes :=
  (List.range n).map fun i =>
    if o = .lvaddf then
      fAdd f32 (roundOf g.fsw) (ftzOf g.fsw) (elemAt s r (ta + 2 * i)) (elemAt s r (sa + 2 * i))
    else { bits := elemAt s r (sa + 2 * i) }

/-- The word addresses of `n` elements from `a`. -/
def elemWords (a n : Nat) : List Nat := (List.range (2 * n)).map (a + ·)

/-- A copy, or where `o` is LVADDF an addition, over 1 to 256 elements of BANK parcels in the reed's own memories, which passes its checks and reads no
uncorrectable error: the source stands at `sa`, the target at `ta`. -/
structure LongLocal (o : VmemOp) (x : LongArgs) (g : Regs) (s : State) (r sa ta : Nat) : Prop where
  /-- it has an element -/
  pos : 1 ≤ x.n
  /-- it has no more than 256 -/
  max : x.n ≤ 256
  /-- the source parcel is a BANK parcel -/
  srcBank : pdTgt (g.pdOf x.ps) = 0
  /-- the target parcel is a BANK parcel -/
  tgtBank : pdTgt (g.pdOf x.pt) = 0
  /-- the source can be read -/
  src : parcelCheck s r g x.ps (g.pdOf x.ps) x.so (2 * x.n) .read = .ok sa
  /-- the target can be written -/
  tgt : parcelCheck s r g x.pt (g.pdOf x.pt) x.to' (2 * x.n) .write = .ok ta
  /-- an addition can read its target -/
  addend : o = .lvaddf → parcelCheck s r g x.pt (g.pdOf x.pt) x.to' (2 * x.n) .read = .ok ta
  /-- the source lies in the own memories -/
  srcOwn : sa + 2 * x.n ≤ 0x40000
  /-- the target lies in the own memories -/
  tgtOwn : ta + 2 * x.n ≤ 0x40000
  /-- no word of the source holds an uncorrectable error -/
  srcGood : ∀ j, j < 2 * x.n → placeBad s (placeOf s r (sa + j)) = false
  /-- and none of an addition's target -/
  tgtGood : o = .lvaddf → ∀ j, j < 2 * x.n → placeBad s (placeOf s r (ta + j)) = false

/-- A word of a range of elements in the own memories is an own address. -/
theorem elemWords_own {a n x : Nat} (h : a + 2 * n ≤ 0x40000) (hx : x ∈ elemWords a n) : x < 0x40000 := by
  obtain ⟨j, hj, rfl⟩ := List.mem_map.1 hx
  have := List.mem_range.1 hj
  omega

/-- Elements of the own memories without an uncorrectable error can be read (R143, R190). -/
theorem longBad_own {v : View} {tgt pn a n : Nat} (ha : a + 2 * n ≤ 0x40000)
    (hg : ∀ j, j < 2 * n → placeBad v.s (placeOf v.s v.r (a + j)) = false) : longBad v tgt pn a n = none := by
  have hnone : (elemWords a n).find? (fun x => placeBad v.s (placeOf v.s v.r x) || reBacked v.s v.r x) = none := by
    rw [List.find?_eq_none]
    intro x hx
    have hback : reBacked v.s v.r x = false := by
      have hown := (placeOf_own v.s v.r x (elemWords_own ha hx)).2
      unfold reBacked
      split
      · exact absurd ‹_› (hown _)
      · rfl
    obtain ⟨j, hj, rfl⟩ := List.mem_map.1 hx
    simp [hback, hg j (List.mem_range.1 hj)]
  simp only [elemWords] at hnone
  simp only [longBad, hnone]

/-- Pairing the values of a range with their indices is one map over the range, as LVADDF's sums use it. -/
theorem map_zipIdx_range {α β : Type} (f : Nat → α) (g : α × Nat → β) (n : Nat) :
    (((List.range n).map f).zipIdx).map g = (List.range n).map fun i => g (f i, i) := by
  apply List.ext_getElem <;> simp

/-- The elements that the model lists, a sum paired with its index, are the elements of `longSums`. -/
theorem longSums_eq (o : VmemOp) (g : Regs) (s : State) (r n sa ta : Nat) :
    (if o = .lvaddf then
      (((List.range n).map fun i => elemAt s r (sa + 2 * i)).zipIdx).map fun p =>
        fAdd f32 (roundOf g.fsw) (ftzOf g.fsw) (elemAt s r (ta + 2 * p.2)) p.1
    else ((List.range n).map fun i => elemAt s r (sa + 2 * i)).map fun x => ({ bits := x } : FRes)) =
      longSums o g s r n sa ta := by
  unfold longSums
  by_cases ho : o = .lvaddf
  · simp only [ho, if_true, map_zipIdx_range]
  · simp only [ho, if_false, List.map_map]
    rfl

/-- What a long vector over the own banks does that takes `beats` beats beyond its first and writes the elements `sums`. -/
def longEff (o : VmemOp) (g : Regs) (n sa ta beats : Nat) (sums : List FRes) : Eff where
  longBeats := beats
  gateReads := elemWords sa n ++ (if o = .lvaddf then elemWords ta n else [])
  store := storeWords (2 * ta) (4 * n) (fromLanes 32 (sums.map (·.bits)))
  raised := fpRaised (longFlags g (sums.map (·.fl))).1

/-- A long vector over the own banks stores its elements and raises the flags of all, unless a flag traps (R142, R143). -/
theorem evalLong_local {v : View} {o : VmemOp} {w : W32} {sa ta : Nat} (h : LongLocal o (longArgs v.g w) v.g v.s v.r sa ta)
    (ht : fpTraps v.g (longFlags v.g ((longSums o v.g v.s v.r (longArgs v.g w).n sa ta).map (·.fl))).1 = false) :
    ∃ beats, evalLong v o w =
      longEff o v.g (longArgs v.g w).n sa ta beats (longSums o v.g v.s v.r (longArgs v.g w).n sa ta) := by
  obtain ⟨hpos, hmax, hsb, htb, hsrc, htgt, hadd, hso, hto, hsg, htg⟩ := h
  have hlen : ¬ ((longArgs v.g w).n = 0 ∨ (longArgs v.g w).n > 256) := by omega
  have hadd' : ∃ a, (if o = .lvaddf then parcelCheck v.s v.r v.g (longArgs v.g w).pt
      (v.g.pdOf (longArgs v.g w).pt) (longArgs v.g w).to' (2 * (longArgs v.g w).n) .read else .ok 0) = .ok a := by
    split
    next ho => exact ⟨ta, hadd ho⟩
    next => exact ⟨0, rfl⟩
  have hbadS : longBad v 0 (longArgs v.g w).ps sa (longArgs v.g w).n = none := longBad_own hso hsg
  have hbadT : (if o = .lvaddf then longBad v 0 (longArgs v.g w).pt ta (longArgs v.g w).n else none) = none := by
    split
    next ho => exact longBad_own hto (htg ho)
    next => rfl
  obtain ⟨a, hadd'⟩ := hadd'
  simp only [longArgs] at *
  unfold evalLong
  simp only [hlen, hsrc, hadd', htgt, hsb, htb, hbadS, hbadT, longSums_eq, ht, Nat.reduceBEq, bne_self_eq_false, Bool.or_false,
    Bool.and_false, Bool.false_eq_true, if_false, if_true, decide_eq_true_eq]
  exact ⟨_, rfl⟩

/-- A fetch leaves the elements in memory alone. -/
@[simp] theorem longSums_fetched (o : VmemOp) (g : Regs) (q : Nat) (w : W32) (s : State) (r n sa ta : Nat) :
    longSums o g (fetched q w s) r n sa ta = longSums o g s r n sa ta := by
  simp only [longSums, elemAt, bytesAt_fetched]

/-! ### The bundle of a long vector -/

section

variable {o : VmemOp} {r c : Nat} {w : W32} {s : State} {sa ta : Nat}

/-- What the bundle of a long vector over the own banks does. -/
theorem loneEff_long (ho : o = .lvcpy ∨ o = .lvaddf) (hd : decodeOp w = some (.vmem o)) (h : Lone r c w s)
    (hx : LongLocal o (longArgs (ctxAt s r c).regs w) (ctxAt s r c).regs s r sa ta)
    (ht : fpTraps (ctxAt s r c).regs (longFlags (ctxAt s r c).regs ((longSums o (ctxAt s r c).regs s r
      (longArgs (ctxAt s r c).regs w).n sa ta).map (·.fl))).1 = false) :
    ∃ beats, loneEff r c w s = longEff o (ctxAt s r c).regs (longArgs (ctxAt s r c).regs w).n sa ta beats
      (longSums o (ctxAt s r c).regs s r (longArgs (ctxAt s r c).regs w).n sa ta) := by
  have heval : loneEff r c w s = evalLong (loneView r c w s) o w := by
    rw [loneEff_op h hd]
    rcases ho with rfl | rfl <;> rfl
  have hlocal := evalLong_local (v := loneView r c w s) (o := o) (w := w) (sa := sa) (ta := ta)
  simp only [loneView_g, loneView_s, loneView_r, longSums_fetched] at hlocal
  rw [heval]
  exact hlocal ⟨hx.pos, hx.max, hx.srcBank, hx.tgtBank, hx.src, hx.tgt, hx.addend, hx.srcOwn, hx.tgtOwn, hx.srcGood,
    hx.tgtGood⟩ ht

/-- A long vector over the own banks waits for nothing, raises no exception and transfers no control. -/
theorem quiet_of_longEff {n beats : Nat} {g : Regs} {sums : List FRes} (he : loneEff r c w s = longEff o g n sa ta beats sums)
    (hs : sa + 2 * n ≤ 0x40000) (ht : ta + 2 * n ≤ 0x40000) : Quiet r c w s := by
  have hgate : ∀ a ∈ (loneEff r c w s).gateReads, a < 0x40000 := by
    intro a ha
    rw [he] at ha
    rcases List.mem_append.1 ha with ha | ha
    · exact elemWords_own hs ha
    · split at ha
      · exact elemWords_own ht ha
      · simp at ha
  constructor
  case gate => exact fun a ha => gateEmpty_own _ _ _ (hgate a ha)
  all_goals simp [he, longEff]

end

/-- Settles O9: a long vector's bundle is a quiet one that stores in the reed's own memories. -/
theorem longVectorWritesItsElements : Obligations.LongVectorWritesItsElements := by
  intro i o r c w s sa ta hi h hm k g ps pt so to' n sums fl ho hpos hmax hsb htb hsrc htgt hadd hso hto hgood ht
  have hx : LongLocal o (longArgs g w) g s r sa ta :=
    ⟨hpos, hmax, hsb, htb, hsrc, htgt, hadd, hso, hto, fun j hj => (hgood j hj).1, fun e j hj => (hgood j hj).2 e⟩
  obtain ⟨beats, he⟩ : ∃ beats, loneEff r c w s = longEff o g n sa ta beats sums :=
    loneEff_long ho (decodeOp_of_wellFormed hi.1 hi.2).1 h hx ht
  obtain ⟨t, hexec, hstored, hother, hfar, hctx⟩ := exec_storeOwn (byte := 2 * ta) (len := 4 * n) hi h
    (quiet_of_longEff he hso hto) hm (congrArg Eff.store he) (by omega) (by omega)
  refine ⟨t, hexec, hstored, hother, hfar, hctx.keeps ?_, ?_⟩
  · simp [he, longEff]
  · rw [hctx.regs, he]
    rfl

end Sys2Proof.Machine
end

section
/-! SUPPORT. RFE: the context that its bundle leaves, the items of its frame restored (R163). -/

namespace Sys2Proof.Machine

/-! ### The handler's level as RFE leaves it (R57, R163) -/

/-- Nothing is written where no result awaits its beat. -/
theorem settle_of_no_result (lv : Nat) (upto : Option Nat) {k : Ctx} (h : k.run.shadow = []) : settle lv upto k = k := by
  have hk : { k with run := { k.run with shadow := [] } } = k := by rw [← h]
  simpa [settle, h, sortPending, writeEntries] using hk

/-- A taken RFE outside a REP closes no loop and goes on at its EPC (R149, R163). -/
theorem choose_rfe (v : View) (x : Reed) (epc : W16) (fsw : W32) (h : v.q.rep = none) :
    choose v x (.rfe epc fsw) =
      { loops := v.q.loops, cont := none, exits := [], next := epc, rep := none, again := false } := by
  unfold choose
  rw [h]
  rfl

/-- What an RFE does that reads `epc` and `fsw` in its record. -/
def rfeEff (epc : W16) (fsw : W32) : Eff := { ctl := .rfe epc fsw }

/-- The context's side of a completed RFE: its frame restored, at its next bundle, with the handler's bundle counted. -/
theorem finishCtx_rfe (v : View) (x : Reed) (w : W32) (epc : W16) (fsw : W32) (ch : Choice) (k : Ctx) (hx : x.latch = [w])
    (hk : k.run.shadow = []) {f : Frame} {fs : List Frame} (hf : k.run.frames = f :: fs) :
    finishCtx v x [rfeEff epc fsw] (.rfe epc fsw) ch k =
      { k with
        regs := { k.regs with fsw := fsw &&& 0x03FFFFFF#32, p := f.preds }
        run := { k.run with
          counts := Tab.set k.run.counts v.q.level (v.q.countAt v.q.level + 1), persCheck := false, frames := fs
          loops := f.loops, rep := f.rep, rsp := f.rsp, depth := f.depth, topValid := false, pc := ch.next } } := by
  have hshadow : entriesOf v.q.level (v.q.countAt v.q.level) [w] [rfeEff epc fsw] = [] := entriesOf_lone ..
  unfold finishCtx
  simp only [hx, hk, hshadow, List.append_nil, staging_lone, settle_of_no_result, restoreFrame, hf]
  rfl

/-! ### The bundle of a lone RFE -/

section

variable {r c : Nat} {w : W32} {s : State} {f : Frame} {fs : List Frame}

/-- An RFE in a handler whose record can be read continues at the record's EPC with its FSW (R163). -/
theorem loneEff_rfe (h : Lone r c w s) (hd : decodeOp w = some (.br .rfe)) (hf : (ctxAt s r c).run.frames = f :: fs)
    (hg : firstBad s r [recordAt (ctxAt s r c).page fs.length + 3, recordAt (ctxAt s r c).page fs.length + 6,
      recordAt (ctxAt s r c).page fs.length + 7] = none) :
    loneEff r c w s = rfeEff (xWord s r (recordAt (ctxAt s r c).page fs.length + 3))
      (xWord s r (recordAt (ctxAt s r c).page fs.length + 7) ++ xWord s r (recordAt (ctxAt s r c).page fs.length + 6)) := by
  have hlevel : (ctxAt s r c).run.level = fs.length + 1 := by rw [Run.level, hf, List.length_cons]
  rw [loneEff_op h hd]
  simp only [evalOp, evalBr, loneView_q, loneView_page, loneView_s, loneView_r, firstBad_fetched, hlevel,
    Nat.add_sub_cancel, hg]
  rfl

variable {epc : W16} {fsw : W32}

/-- The context after the bundle of a lone RFE, but for its beats. -/
theorem loneDone_rfe (h : Ready r c s) (he : loneEff r c w s = rfeEff epc fsw) (hf : (ctxAt s r c).run.frames = f :: fs) :
    loneDone r c w s =
      { ctxAt s r c with
        regs := { (ctxAt s r c).regs with fsw := fsw &&& 0x03FFFFFF#32, p := f.preds }
        run := { (ctxAt s r c).run with
          counts := Tab.set (ctxAt s r c).run.counts (ctxAt s r c).run.level
            ((ctxAt s r c).run.countAt (ctxAt s r c).run.level + 1)
          persCheck := false, frames := fs, loops := f.loops, rep := f.rep, rsp := f.rsp, depth := f.depth
          topValid := false, pc := epc } } := by
  have hl : (reedOf (fetched r w s) r).latch = [w] := by simp [reedOf_fetched]
  have hnext := choose_rfe (loneView r c w s) (reedOf (fetched r w s) r) epc fsw (by rw [loneView_q]; exact h.noRep)
  have hfin := finishCtx_rfe (loneView r c w s) (reedOf (fetched r w s) r) w epc fsw
    (choose (loneView r c w s) (reedOf (fetched r w s) r) (.rfe epc fsw)) (ctxAt s r c) hl h.noResult hf
  unfold loneDone
  rw [he]
  refine hfin.trans ?_
  rw [hnext, loneView_q]

/-- No trap follows an RFE of a context that is not single-stepped (R166). -/
theorem trapAfter_rfe (h : Ready r c s) : trapAfter (loneView r c w s) (reedOf (fetched r w s) r) (.rfe epc fsw) = none := by
  simp [trapAfter, h.noStep]

/-- The bundle of a lone RFE completes: of the reed's contexts only its own changes, and nothing beside the reed. -/
theorem exec_rfe (hi : Spells (.rfe r w) (.br .rfe) r w) (h : Lone r c w s) (he : loneEff r c w s = rfeEff epc fsw)
    (hf : (ctxAt s r c).run.frames = f :: fs) :
    ∃ X : Reed, exec (.rfe r w) s = .next (setReed r X s) ∧ (∀ d, d ≠ c → X.ctxOf d = ctxAt s r d) ∧
      ∃ hh, X.ctxOf c = { loneDone r c w s with sched := hh } := by
  have hq : ∀ n, (loneEff r c w s).readsQ = some n → bitOf (ctxAt s r c).run.qValid n = true := by simp [he, rfeEff]
  obtain ⟨m, pf, -, hdone⟩ := completeBundle_any h hq
  have hctx := loneReed_ctx (r := r) (c := c) (w := w) (s := s) m pf (by rw [he]; rfl)
  have hstate : loneState r c w s (loneReed r c w s m pf) = setReed r (loneReed r c w s m pf) s := by
    simp [loneState, he, rfeEff, placed]
  have hquiet : boundary r c (setReed r (loneReed r c w s m pf) s) = setReed r (loneReed r c w s m pf) s := by
    apply boundary_quiet <;> rw [reedOf_setReed, hctx, loneDone_rfe h.ready he hf]
    · exact h.ready.noStop
    · exact h.ready.noDue
  refine ⟨loneReed r c w s m pf, ?_, fun d hd => loneReed_other m pf hd, _, hctx⟩
  rw [exec_any hi.1 hi.2 h hq (by rw [he]; rfl) (by rw [he]; rfl) (by simp [he, rfeEff]), hdone, hstate,
    show (loneEff r c w s).ctl = .rfe epc fsw by rw [he]; rfl, trapAfter_rfe h.ready]
  exact congrArg _ hquiet

end

/-- Settles O15: the record gives the bundle its PC and FSW, the frame the rest, and a ready context's boundary adds nothing. -/
theorem rfeRestoresTheFrame : Obligations.RfeRestoresTheFrame := by
  intro r c w s f fs hi h k a hf hgood
  have he := loneEff_rfe h (decodeOp_of_wellFormed hi.1 hi.2).1 hf hgood
  obtain ⟨X, hexec, hother, hh, hctx⟩ := exec_rfe hi h he hf
  rw [loneDone_rfe h.ready he hf] at hctx
  have hat : ctxAt (setReed r X s) r c = X.ctxOf c := by rw [ctxAt, reedOf_setReed]
  refine ⟨setReed r X s, hexec, ⟨?only, ?others⟩, ?_⟩
  case only => rw [OnlyReed, reedOf_setReed]
  case others =>
    intro d hd
    rw [ctxAt, reedOf_setReed]
    exact hother d hd
  rw [hat, hctx]
  exact ⟨rfl, rfl, rfl, rfl, rfl, rfl, rfl, rfl, rfl⟩

end Sys2Proof.Machine
end

section
/-! SUPPORT. Uncorrectable errors as a scrub, a merging write or a read of HBM finds them: the codes that they leave, and what of
the HBM side they reach (R171, R183, R187, R189). -/

namespace Sys2Proof.Machine

/-! ### The HBM side but for its error counts -/

/-- Two states agree on the HBM side in all that an uncorrectable error leaves alone: the snoop filter, the writes that wait, the
last access, and every pseudo-channel's page but for ECC_UE. -/
structure OnlyUeCounted (s t : State) : Prop where
  /-- the lines that the host may hold -/
  filter : t.hbm.filter = s.hbm.filter
  /-- the writes that wait for an answer -/
  snoops : t.hbm.snoops = s.hbm.snoops
  /-- the last access by CXL.mem -/
  lastUse : t.hbm.lastUse = s.hbm.lastUse
  /-- every page but for ECC_UE -/
  pages : ∀ p, ∃ n, hbmPageOf t p = { hbmPageOf s p with ue := n }

/-- A state whose HBM side is the same differs in no more than error counts. -/
theorem OnlyUeCounted.of_hbm {s t : State} (h : t.hbm = s.hbm) : OnlyUeCounted s t :=
  ⟨by rw [h], by rw [h], by rw [h], fun p => ⟨(hbmPageOf s p).ue, by rw [hbmPageOf, h]; rfl⟩⟩

/-- What counts errors twice counts errors. -/
theorem OnlyUeCounted.trans {s t u : State} (h : OnlyUeCounted s t) (k : OnlyUeCounted t u) : OnlyUeCounted s u := by
  refine ⟨k.filter.trans h.filter, k.snoops.trans h.snoops, k.lastUse.trans h.lastUse, fun p => ?_⟩
  obtain ⟨n, hn⟩ := h.pages p
  obtain ⟨m, hm⟩ := k.pages p
  exact ⟨m, by rw [hm, hn]⟩

/-- A fold counts errors where each of its steps does. -/
theorem OnlyUeCounted.foldl {β : Type} {g : State → β → State} (h : ∀ t b, OnlyUeCounted t (g t b)) (l : List β) (s : State) :
    OnlyUeCounted s (l.foldl g s) :=
  foldl_preserves (OnlyUeCounted s) g (fun t b ht => ht.trans (h t b)) l s (.of_hbm rfl)

/-- Self-refresh is not an error count. -/
theorem OnlyUeCounted.selfRef {s t : State} (h : OnlyUeCounted s t) (p : Nat) :
    (hbmPageOf t p).selfRef = (hbmPageOf s p).selfRef := by
  obtain ⟨n, hn⟩ := h.pages p
  rw [hn]

/-- A page that is retired changes neither the filter nor a pseudo-channel (R189). -/
theorem onlyUeCounted_retirePage (n : Nat) (s : State) : OnlyUeCounted s (retirePage n s) := by
  unfold retirePage
  split
  · split <;> exact ⟨rfl, rfl, rfl, fun p => ⟨_, rfl⟩⟩
  · exact .of_hbm rfl

/-- An uncorrectable error that is counted in a pseudo-channel's page (R194). -/
theorem onlyUeCounted_setHbmPage (p n : Nat) (s : State) : OnlyUeCounted s (setHbmPage p { hbmPageOf s p with ue := n } s) := by
  refine ⟨rfl, rfl, rfl, fun q => ?_⟩
  by_cases hq : q = p
  · rw [hq, hbmPageOf_setHbmPage]
    exact ⟨n, rfl⟩
  · rw [hbmPageOf_setHbmPage_other _ _ _ _ hq]
    exact ⟨_, rfl⟩

/-! ### One error (R171, R183) -/

/-- The state in which an error of HBM is marked, counted in its pseudo-channel's page and recorded (R183, R421). -/
def hbmErrorCounted (a : Nat) (s : State) : State :=
  let x := hbmPageOf s (hbmPc a)
  fbRaise 0x0620 (payload (hbmPc a) a) (pageError (0x200 + hbmPc a) 0x0620 (hbmBase + a)
    (setHbmPage (hbmPc a) { x with ue := satInc 0xFFFFFFFF x.ue } { s with bad := Tab.set s.bad (hbmBase + (a - a % 16)) 2 }))

/-- An error of HBM that is counted raises the pseudo-channel's event where the page is lost already, else retires the page
(R189, R191). -/
theorem noteUe_hbm_cases (a : Nat) (s : State) :
    noteUe (.hbm a) s = fireSource (0x500 + hbmPc a) (hbmErrorCounted a s) ∨
      noteUe (.hbm a) s = retirePage (a / 2 ^ 20) (hbmErrorCounted a s) := by
  simp only [noteUe, Place.unit]
  split
  · exact .inl rfl
  · exact .inr rfl

/-- An error met at a place of a unit marks that unit as found. -/
theorem noteUe_bad {pl : Place} {u n : Nat} (h : pl.unit = some (u, n)) (s : State) : (noteUe pl s).bad = Tab.set s.bad u 2 := by
  cases pl with
  | hbm a =>
    cases h
    rcases noteUe_hbm_cases a s with hnote | hnote <;> rw [hnote]
    · exact fireSource_bad ..
    · exact retirePage_bad ..
  | bank w | im w =>
    cases h
    simp only [noteUe, Place.unit]
    split
    · exact retireReed_bad ..
    · rfl
  | pool b o | surveyor w =>
    cases h
    rfl
  | page _ | host _ | atlas _ _ | reserved => cases h

/-- An error met at a place of no unit marks none. -/
theorem noteUe_bad_no_unit {pl : Place} (h : pl.unit = none) (s : State) : (noteUe pl s).bad = s.bad := by
  cases pl with
  | page _ | host _ | atlas _ _ | reserved => rfl
  | bank _ | im _ | pool _ _ | surveyor _ | hbm _ => cases h

/-- An error of HBM that is counted changes an error count of the HBM side alone. -/
theorem onlyUeCounted_hbmErrorCounted (a : Nat) (s : State) : OnlyUeCounted s (hbmErrorCounted a s) :=
  (onlyUeCounted_setHbmPage ..).trans (.of_hbm rfl)

/-- An error met changes nothing else on the HBM side than error counts and the retirement of its page. -/
theorem onlyUeCounted_noteUe (pl : Place) (s : State) : OnlyUeCounted s (noteUe pl s) := by
  cases pl with
  | hbm a =>
    have counted := onlyUeCounted_hbmErrorCounted a s
    rcases noteUe_hbm_cases a s with h | h <;> rw [h]
    · exact counted.trans (.of_hbm (fireSource_hbm ..))
    · exact counted.trans (onlyUeCounted_retirePage ..)
  | bank w | im w =>
    simp only [noteUe, Place.unit]
    split
    · exact .of_hbm (retireReed_hbm ..)
    · exact .of_hbm rfl
  | _ => exact .of_hbm rfl

/-- An error of HBM leaves the beds alone. -/
theorem noteUe_hbm_beds (a : Nat) (s : State) : (noteUe (.hbm a) s).beds = s.beds := by
  rcases noteUe_hbm_cases a s with h | h <;> rw [h] <;> simp [hbmErrorCounted]

/-- An error met in a pool is counted in its bed's page (R171, R193). -/
theorem bedOf_noteUe_pool (b o : Nat) (s : State) :
    bedOf (noteUe (.pool b o) s) b = { bedOf s b with ue := satInc 0xFFFF (bedOf s b).ue } :=
  bedOf_setBed ..

/-! ### Errors met one after the other -/

/-- A unit already found stays so. -/
theorem found_noteUe {u : Nat} (pl : Place) {s : State} (h : Tab.get 0 s.bad u = 2) : Tab.get 0 (noteUe pl s).bad u = 2 := by
  rcases hu : pl.unit with _ | ⟨v, n⟩
  · rw [noteUe_bad_no_unit hu, h]
  · rw [noteUe_bad hu, Tab.get_set]
    split
    · rfl
    · exact h

/-- What one element of a fold brings about in any state, and every element preserves, holds after the fold. -/
theorem foldl_reaches {β σ : Type} (P : σ → Prop) (g : σ → β → σ) (hkeep : ∀ t b, P t → P (g t b)) {l : List β} {b : β}
    (hb : b ∈ l) (hnew : ∀ t, P (g t b)) (s : σ) : P (l.foldl g s) := by
  obtain ⟨before, after, rfl⟩ := List.append_of_mem hb
  rw [List.foldl_append, List.foldl_cons]
  exact foldl_preserves P g hkeep after _ (hnew _)

/-- The unit of a place among those at which errors are met is found. -/
theorem found_foldl_noteUe {pls : List Place} {pl : Place} {u n : Nat} (hmem : pl ∈ pls) (hu : pl.unit = some (u, n)) (s : State) :
    Tab.get 0 (pls.foldl (fun t x => noteUe x t) s).bad u = 2 :=
  foldl_reaches (fun t : State => Tab.get 0 t.bad u = 2) _ (fun _ x => found_noteUe x) hmem
    (fun t => by rw [noteUe_bad hu, Tab.get_set_same]) s

/-- Errors met in a bed's pool are counted there, to the counter's top, and reach nothing of HBM (R171, R193). -/
theorem bedOf_foldl_noteUe {b : Nat} {pls : List Place} (h : ∀ pl ∈ pls, ∃ o, pl = .pool b o) (s : State)
    (hue : (bedOf s b).ue ≤ 0xFFFF) :
    bedOf (pls.foldl (fun t x => noteUe x t) s) b = { bedOf s b with ue := min 0xFFFF ((bedOf s b).ue + pls.length) } ∧
      (pls.foldl (fun t x => noteUe x t) s).hbm = s.hbm := by
  induction pls generalizing s with
  | nil => exact ⟨by rw [List.length_nil, Nat.add_zero, Nat.min_eq_right hue]; rfl, rfl⟩
  | cons pl pls ih =>
    obtain ⟨o, rfl⟩ := h pl List.mem_cons_self
    have hone := bedOf_noteUe_pool b o s
    have hsat : satInc 0xFFFF (bedOf s b).ue = min 0xFFFF ((bedOf s b).ue + 1) := by unfold satInc; split <;> omega
    obtain ⟨hbed, hhbm⟩ := ih (fun x hx => h x (List.mem_cons_of_mem _ hx)) (noteUe (.pool b o) s)
      (by rw [hone, hsat]; exact Nat.min_le_left ..)
    refine ⟨?_, hhbm⟩
    rw [List.foldl_cons, hbed, hone, hsat, List.length_cons]
    have hmin : min 0xFFFF (min 0xFFFF ((bedOf s b).ue + 1) + pls.length) = min 0xFFFF ((bedOf s b).ue + (pls.length + 1)) := by
      omega
    rw [← hmin]

/-! ### Words written to the device's memories -/

/-- A word's code after a write changes the HBM side in no more than error counts. -/
theorem onlyUeCounted_unitAfter (ws : List PlacedWord) (p : PlacedWord) (s : State) : OnlyUeCounted s (unitAfter ws p s) := by
  unfold unitAfter
  split
  · simp only []
    split
    · exact .of_hbm rfl
    · split
      · exact .of_hbm rfl
      · split
        · exact onlyUeCounted_noteUe ..
        · exact .of_hbm rfl
  · exact .of_hbm rfl

/-- A write to the device's memories changes the HBM side in no more than error counts. -/
theorem onlyUeCounted_writePlaced (ws : List PlacedWord) (s : State) : OnlyUeCounted s (writePlaced ws s) := by
  have written : OnlyUeCounted s { s with mem := ws.foldl putPlaced s.mem } := .of_hbm rfl
  exact written.trans (.foldl (fun t p => onlyUeCounted_unitAfter ws p t) ws _)

end Sys2Proof.Machine
end

section
/-! SUPPORT. Events of the beds and of HBM: token slots, patrol scrubs, refresh, snoop answers and page retirement (R171, R174,
R183, R184, R187, R189, R193, R194, R368). -/

namespace Sys2Proof.Machine

/-! ### Patrol scrubs (R193) -/

/-- An entry that does not read as the default is listed. -/
theorem mem_of_get_ne {α : Type} {d : α} {t : Tab α} {k : Nat} (h : Tab.get d t k ≠ d) : (k, Tab.get d t k) ∈ t := by
  induction t with
  | nil => exact absurd rfl h
  | cons e t ih =>
    obtain ⟨j, v⟩ := e
    unfold Tab.get at h ⊢
    by_cases hj : j = k
    · rw [if_pos hj, hj]
      exact List.mem_cons_self
    · rw [if_neg hj] at h ⊢
      exact List.mem_cons_of_mem _ (ih h)

/-- A unit that holds an error is among the bad places of its range. -/
theorem mem_badPlaces {s : State} {p : Nat → Option Place} {u : Nat} {pl : Place} (h : Tab.get 0 s.bad u ≠ 0)
    (hp : p u = some pl) : pl ∈ badPlaces s p :=
  List.mem_filterMap.2 ⟨_, List.mem_filter.2 ⟨mem_of_get_ne h, bne_iff_ne.2 h⟩, hp⟩

/-- The bad places of a range are as many as the marked words that the range names. -/
theorem length_badPlaces (s : State) (p : Nat → Option Place) :
    (badPlaces s p).length = (s.bad.filter fun e => e.2 != 0 && (p e.1).isSome).length := by
  unfold badPlaces
  rw [List.length_filterMap_eq_countP, List.countP_filter, List.countP_eq_length_filter]
  congr 1
  exact List.filter_congr fun e _ => Bool.and_comm ..

/-- The pool place of a canonical word of bed b's pool (R171). -/
def poolPlace (b w : Nat) : Option Place :=
  if poolBase b ≤ w ∧ w < poolBase b + 0x200000 then some (.pool b (w - poolBase b)) else none

/-- The words of a pool are those that have a place in it. -/
theorem isSome_poolPlace (b w : Nat) :
    (poolPlace b w).isSome = (decide (poolBase b ≤ w) && decide (w < poolBase b + 0x200000)) := by
  rw [Bool.eq_iff_iff, poolPlace]
  simp

/-- The first word of a unit of a pool is the word that names the unit (R171). -/
theorem poolPlace_unit {b w : Nat} (h : (poolPlace b w).isSome = true) (hw : (w - poolBase b) % 4 = 0) :
    poolPlace b w = some (.pool b (w - poolBase b)) ∧ (Place.pool b (w - poolBase b)).unit = some (w, 4) := by
  rw [isSome_poolPlace, Bool.and_eq_true, decide_eq_true_eq, decide_eq_true_eq] at h
  refine ⟨if_pos h, ?_⟩
  rw [Place.unit, hw, Nat.sub_zero, Nat.add_sub_cancel' h.1]

/-- The HBM place of a canonical word of a pseudo-channel (R182). -/
def channelPlace (p w : Nat) : Option Place :=
  if hbmBase ≤ w ∧ hbmPc (w - hbmBase) = p then some (.hbm (w - hbmBase)) else none

/-- A pool's scrub that is due (R193). -/
theorem exec_poolScrub {s : State} {b : Nat} (hb : b < 32) (h : scrubDue s (bedOf s b).scrub (bedOf s b).scrubbed (2 ^ 20) = true)
    (ce : Nat) : exec (.poolScrub b ce) s = .next ((badPlaces s (poolPlace b)).foldl (fun t pl => noteUe pl t)
      (setBed b { bedOf s b with ce := min 0xFFFF ((bedOf s b).ce + ce), scrubbed := now s } s)) := by
  show execPoolScrub b ce s = _
  unfold execPoolScrub
  rw [if_neg (Nat.not_le.2 hb)]
  simp only [h]
  rfl

/-- A pseudo-channel's scrub that is due (R183, R194). -/
theorem exec_hbmScrub {s : State} {p : Nat} (hp : p < 64)
    (h : scrubDue s (hbmPageOf s p).scrub (hbmPageOf s p).scrubbed (2 ^ 30) = true) (ce : Nat) :
    exec (.hbmScrub p ce) s = .next ((badPlaces s (channelPlace p)).foldl (fun t pl => noteUe pl t)
      (setHbmPage p { hbmPageOf s p with ce := min 0xFFFFFFFF ((hbmPageOf s p).ce + ce), scrubbed := now s } s)) := by
  show execHbmScrub p ce s = _
  unfold execHbmScrub
  rw [if_neg (Nat.not_le.2 hp)]
  simp only [h]
  rfl

/-- Errors met change no byte of memory. -/
theorem foldl_noteUe_mem (pls : List Place) (s : State) : (pls.foldl (fun t pl => noteUe pl t) s).mem = s.mem :=
  foldl_keeps (fun t => t.mem) _ (fun t pl => noteUe_mem pl t) pls s

/-- Errors met in HBM leave the beds alone. -/
theorem foldl_noteUe_beds {pls : List Place} (h : ∀ pl ∈ pls, ∃ a, pl = .hbm a) (s : State) :
    (pls.foldl (fun t pl => noteUe pl t) s).beds = s.beds := by
  induction pls generalizing s with
  | nil => rfl
  | cons pl pls ih =>
    obtain ⟨a, rfl⟩ := h pl List.mem_cons_self
    rw [List.foldl_cons, ih fun x hx => h x (List.mem_cons_of_mem _ hx), noteUe_hbm_beds]

/-- A pool's scrub that is due counts the errors corrected and every error it finds, and marks each found (R171, R193). -/
theorem poolScrub_finds {s : State} {b : Nat} (hb : b < 32) (hue : (bedOf s b).ue ≤ 0xFFFF)
    (h : scrubDue s (bedOf s b).scrub (bedOf s b).scrubbed (2 ^ 20) = true) (ce : Nat) :
    Answers (exec (.poolScrub b ce) s) fun t => t.mem = s.mem ∧ t.hbm = s.hbm ∧
      bedOf t b = { bedOf s b with
        ce := min 0xFFFF ((bedOf s b).ce + ce), scrubbed := now s
        ue := min 0xFFFF ((bedOf s b).ue + (s.bad.filter fun e => e.2 != 0 && (poolPlace b e.1).isSome).length) } ∧
      ∀ u pl n, poolPlace b u = some pl → pl.unit = some (u, n) → Tab.get 0 s.bad u ≠ 0 → Tab.get 0 t.bad u = 2 := by
  have inPool : ∀ pl ∈ badPlaces s (poolPlace b), ∃ o, pl = .pool b o := by
    intro pl hpl
    obtain ⟨e, -, he⟩ := List.mem_filterMap.1 hpl
    obtain ⟨-, ho⟩ := (Option.ite_some_none_eq_some ..).1 he
    exact ⟨_, ho.symm⟩
  refine ⟨_, exec_poolScrub hb h ce, ?_, ?_, ?_, ?_⟩
  · rw [foldl_noteUe_mem, setBed_mem]
  · rw [(bedOf_foldl_noteUe inPool _ (by rw [bedOf_setBed]; exact hue)).2, setBed_hbm]
  · rw [(bedOf_foldl_noteUe inPool _ (by rw [bedOf_setBed]; exact hue)).1, bedOf_setBed, length_badPlaces]
  · intro u pl n hpl hunit hbad
    exact found_foldl_noteUe (mem_badPlaces hbad hpl) hunit _

/-- A pseudo-channel's scrub that is due counts the errors corrected and marks every error found (R183, R194). -/
theorem hbmScrub_finds {s : State} {p : Nat} (hp : p < 64)
    (h : scrubDue s (hbmPageOf s p).scrub (hbmPageOf s p).scrubbed (2 ^ 30) = true) (ce : Nat) :
    Answers (exec (.hbmScrub p ce) s) fun t => t.mem = s.mem ∧ t.beds = s.beds ∧
      (hbmPageOf t p).ce = min 0xFFFFFFFF ((hbmPageOf s p).ce + ce) ∧ (hbmPageOf t p).scrubbed = now s ∧
      ∀ u pl n, channelPlace p u = some pl → pl.unit = some (u, n) → Tab.get 0 s.bad u ≠ 0 → Tab.get 0 t.bad u = 2 := by
  have inHbm : ∀ pl ∈ badPlaces s (channelPlace p), ∃ a, pl = .hbm a := by
    intro pl hpl
    obtain ⟨e, -, he⟩ := List.mem_filterMap.1 hpl
    obtain ⟨-, ha⟩ := (Option.ite_some_none_eq_some ..).1 he
    exact ⟨_, ha.symm⟩
  have counted := OnlyUeCounted.foldl (fun t pl => onlyUeCounted_noteUe pl t) (badPlaces s (channelPlace p))
    (setHbmPage p { hbmPageOf s p with ce := min 0xFFFFFFFF ((hbmPageOf s p).ce + ce), scrubbed := now s } s)
  obtain ⟨n, hpage⟩ := counted.pages p
  rw [hbmPageOf_setHbmPage] at hpage
  refine ⟨_, exec_hbmScrub hp h ce, ?_, ?_, by rw [hpage], by rw [hpage], ?_⟩
  · rw [foldl_noteUe_mem, setHbmPage_mem]
  · rw [foldl_noteUe_beds inHbm, setHbmPage_beds]
  · intro u pl n hpl hunit hbad
    exact found_foldl_noteUe (mem_badPlaces hbad hpl) hunit _

/-! ### Refresh (R184) -/

/-- The first `n` pseudo-channels from `base` on changed one after the other: each page of the range is changed once. -/
theorem hbmPageOf_mapRange (base n : Nat) (f : HbmPage → HbmPage) (s : State) (p : Nat) :
    hbmPageOf ((List.range n).foldl (fun t i => setHbmPage (base + i) (f (hbmPageOf t (base + i))) t) s) p =
      if base ≤ p ∧ p < base + n then f (hbmPageOf s p) else hbmPageOf s p := by
  induction n with
  | zero => rw [if_neg (by omega)]; rfl
  | succ n ih =>
    rw [List.range_succ, List.foldl_append, List.foldl_cons, List.foldl_nil]
    by_cases hp : p = base + n
    · subst hp
      rw [hbmPageOf_setHbmPage, ih, if_neg (by omega), if_pos (by omega)]
    · rw [hbmPageOf_setHbmPage_other _ _ _ _ hp, ih]
      exact ite_congr (propext (by omega)) (fun _ => rfl) (fun _ => rfl)

/-- A stack's pages are changed, and no others. -/
theorem hbmPageOf_mapStack (k : Nat) (f : HbmPage → HbmPage) (s : State) (p : Nat) :
    hbmPageOf (mapStack k f s) p = if 32 * k ≤ p ∧ p < 32 * k + 32 then f (hbmPageOf s p) else hbmPageOf s p :=
  hbmPageOf_mapRange ..

/-- A stack's pages changed are all that changes. -/
theorem mapStack_eq (k : Nat) (f : HbmPage → HbmPage) (s : State) :
    mapStack k f s = { s with hbm := { s.hbm with pages := (mapStack k f s).hbm.pages } } :=
  foldl_preserves (fun t : State => t = { s with hbm := { s.hbm with pages := t.hbm.pages } }) _
    (fun t i ht => by rw [ht]; rfl) _ s rfl

/-- A stack's temperature sets its pages' rate and temperature; a higher rate is recorded, 4× with the stack's event (R184). -/
theorem refresh_eq (k temp : Nat) (s : State) :
    let rate := if temp ≤ 85 then 0 else if temp ≤ 95 then 1 else 2
    ∃ ps, (∀ p, Tab.get {} ps p = if 32 * k ≤ p ∧ p < 32 * k + 32 then { hbmPageOf s p with temp := min temp 255, refRate := rate }
        else hbmPageOf s p) ∧
      let t := { s with hbm := { s.hbm with pages := ps } }
      let u := fbRaise 0x0310 (payload (32 * k) rate) t
      refresh k temp s = if (hbmPageOf s (32 * k)).refRate < rate then
        (if rate = 2 then fireSource (0x500 + 32 * k) u else u) else t := by
  let f : HbmPage → HbmPage := fun x => { x with temp := min temp 255, refRate := refreshRate temp }
  refine ⟨(mapStack k f s).hbm.pages, hbmPageOf_mapStack k f s, ?_⟩
  simp only [← mapStack_eq k f s]
  rfl

/-- In Dormant after 1 ms without a request every pseudo-channel enters self-refresh (R184). -/
theorem exec_selfRefreshEntry {s : State} (hd : s.glb.state = .dormant) (hi : s.hbm.lastUse + tickHz s / 1000 ≤ now s) :
    ∃ ps, (∀ p, Tab.get {} ps p = if p < 64 then { hbmPageOf s p with selfRef := true } else hbmPageOf s p) ∧
      exec .selfRefreshEntry s = .next { s with hbm := { s.hbm with pages := ps } } := by
  let f : HbmPage → HbmPage := fun x => { x with selfRef := true }
  refine ⟨(mapStack 1 f (mapStack 0 f s)).hbm.pages, fun p => ?_, ?_⟩
  · have hpage : hbmPageOf (mapStack 1 f (mapStack 0 f s)) p = if p < 64 then f (hbmPageOf s p) else hbmPageOf s p := by
      rw [hbmPageOf_mapStack, hbmPageOf_mapStack]
      by_cases hlow : p < 32
      · rw [if_neg (by omega), if_pos (by omega), if_pos (by omega)]
      · rw [if_neg (by omega : ¬(32 * 0 ≤ p ∧ p < 32 * 0 + 32))]
        exact ite_congr (propext (by omega)) (fun _ => rfl) (fun _ => rfl)
    exact hpage
  · show execSelfRefreshEntry s = _
    unfold execSelfRefreshEntry
    rw [if_pos ⟨hd, hi⟩, mapStack_eq 1, mapStack_eq 0]

/-! ### Back-invalidate snoops (R187) -/

/-- No read for another sheet is served where none waits for the line. -/
theorem serveWaiting_none {line : Nat} {s : State} (h : ∀ w ∈ s.atl.serve, lineOf w.addr ≠ line) : serveWaiting line s = s := by
  have hdue : s.atl.serve.filter (fun w => lineOf w.addr == line) = [] :=
    List.filter_eq_nil_iff.2 fun w hw => by simpa using h w hw
  have hrest : s.atl.serve.filter (fun w => lineOf w.addr != line) = s.atl.serve :=
    List.filter_eq_self.2 fun w hw => by simpa using h w hw
  unfold serveWaiting
  rw [hdue, hrest]
  rfl

/-- The bytes of a line that the host held dirty, by canonical byte address. -/
def dirtyBytes (line : Nat) (bs : List Byte) : List (Nat × Byte) :=
  (bs.take 64).zipIdx.map fun p => (2 * (hbmBase + 32 * line) + p.2, p.1)

/-- The writes to a line that a snoop's answer lets proceed: the host's dirty data, then what waited, oldest first (R187). -/
def answeredWrites (line : Nat) (dirty : Option (List Byte)) (s : State) : List (List PlacedWord) :=
  (match dirty with
    | some bs => [lineStore line (dirtyBytes line bs)]
    | none => []) ++ (s.hbm.snoops.filter fun n => n.line == line).map fun n => lineStore line n.bytes

/-- The writes that a snoop's answer lets proceed are made in order once the line's snoops have left the list. -/
theorem snoopAnswer_eq {line : Nat} {s : State} (h : ∀ w ∈ s.atl.serve, lineOf w.addr ≠ line) (dirty : Option (List Byte)) :
    snoopAnswer line dirty s = (answeredWrites line dirty s).foldl (fun t ws => writePlaced ws t)
      { s with hbm := { s.hbm with snoops := s.hbm.snoops.filter fun n => n.line != line } } := by
  have writes_atl : ∀ (l : List (List PlacedWord)) (t : State), (l.foldl (fun t ws => writePlaced ws t) t).atl = t.atl :=
    foldl_keeps (fun t => t.atl) _ fun t ws => writePlaced_atl ws t
  have hmade : snoopAnswer line dirty s = serveWaiting line ((answeredWrites line dirty s).foldl (fun t ws => writePlaced ws t)
      { s with hbm := { s.hbm with snoops := s.hbm.snoops.filter fun n => n.line != line } }) := by
    unfold snoopAnswer answeredWrites
    rw [List.foldl_append, List.foldl_map]
    cases dirty <;> rfl
  rw [hmade]
  exact serveWaiting_none (by rw [writes_atl]; exact h)

/-- Writes made one after the other, as the memory takes them. -/
theorem foldl_writePlaced_mem (l : List (List PlacedWord)) (s : State) :
    (l.foldl (fun t ws => writePlaced ws t) s).mem = l.foldl (fun m ws => ws.foldl putPlaced m) s.mem :=
  (List.foldl_hom (fun t : State => t.mem) fun t ws => (writePlaced_mem ws t).symm).symm

/-- A snoop's answer where no other sheet's read waits for the line: the line's snoops are gone, the filter stands, and the
memory takes the host's dirty data and then the writes that waited (R187). -/
theorem bisnpResponse_writes {line : Nat} {s : State} (hs : s.hbm.snoops.any (fun n => n.line == line) = true)
    (h : ∀ w ∈ s.atl.serve, lineOf w.addr ≠ line) (dirty : Option (List Byte)) :
    Answers (exec (.bisnpResponse line dirty) s) fun t =>
      t.hbm.snoops = s.hbm.snoops.filter (fun n => n.line != line) ∧ t.hbm.filter = s.hbm.filter ∧
      t.mem = (answeredWrites line dirty s).foldl (fun m ws => ws.foldl putPlaced m) s.mem := by
  have hexec : exec (.bisnpResponse line dirty) s = .next (snoopAnswer line dirty s) := by
    show execBisnpResponse line dirty s = _
    exact if_pos hs
  have counted := OnlyUeCounted.foldl (fun t ws => onlyUeCounted_writePlaced ws t) (answeredWrites line dirty s)
    { s with hbm := { s.hbm with snoops := s.hbm.snoops.filter fun n => n.line != line } }
  rw [← snoopAnswer_eq h dirty] at counted
  refine ⟨_, hexec, counted.snoops, counted.filter, ?_⟩
  rw [snoopAnswer_eq h dirty, foldl_writePlaced_mem]

/-! ### Page retirement (R189, R368) -/

/-- A window with too many corrected errors retires its page (R368). -/
theorem exec_hbmEccWindow {s : State} {page ce : Nat} (hp : page < 65536) (hoff : s.glb.state ≠ .off)
    (hdormant : s.glb.state ≠ .dormant) (hce : 4 * s.spr.hbmCe ≤ ce) :
    exec (.hbmEccWindow page ce) s = .next (retirePage page s) := by
  show execHbmEccWindow page ce s = _
  unfold execHbmEccWindow
  rw [if_neg (Nat.not_le.2 hp), if_pos (by simp [scrubState, hoff, hdormant, hce])]

/-- A page that is not in HBM alone is not retired again (R189). -/
theorem retirePage_of_not_inHbm {s : State} {n : Nat} (h : Tab.get .inHbm s.hbm.back n ≠ .inHbm) : retirePage n s = s := by
  unfold retirePage
  split
  · next hin => exact absurd hin h
  · rfl

/-- A page that is retired is copied to the lowest free reserve page (R189). -/
theorem retirePage_of_free {s : State} {n i : Nat} (h : Tab.get .inHbm s.hbm.back n = .inHbm) (hi : freeReserve s.hbm = some i) :
    retirePage n s =
      { s with hbm := { s.hbm with back := Tab.set s.hbm.back n (.copying i), reserve := insertNat i s.hbm.reserve } } := by
  simp only [retirePage, backOf, h, hi]

/-- A page that is retired with no reserve page free is lost (R191). -/
theorem retirePage_of_full {s : State} {n : Nat} (h : Tab.get .inHbm s.hbm.back n = .inHbm) (hi : freeReserve s.hbm = none) :
    retirePage n s =
      fbRaise 0x0622 (payload n 0) { s with hbm := { s.hbm with back := Tab.set s.hbm.back n .lost, exhausted := true } } := by
  simp only [retirePage, backOf, h, hi]

/-- A copy that ends backs its page, and is recorded (R189). -/
theorem exec_pageReback {s : State} {page i : Nat} (hp : page < 65536) (h : Tab.get .inHbm s.hbm.back page = .copying i) :
    exec (.pageReback page) s = .next (fbRaise 0x0621 (payload page i)
      { s with hbm := { s.hbm with back := Tab.set s.hbm.back page (.backed i) } }) := by
  show execPageReback page s = _
  unfold execPageReback
  rw [if_neg (Nat.not_le.2 hp), backOf, h]

/-- Settles O35: each event by the lemma of its row, what a scrub finds by the place of the unit that it finds. -/
theorem bedsAndHbmTakeTheirEvents : Obligations.BedsAndHbmTakeTheirEvents := by
  intro s
  refine ⟨?slot, ?pool, ?hbm, ?rate, ?selfRefresh, ?snoop, ?window, fun page i hp h => exec_pageReback hp h⟩
  case slot =>
    intro ag b v hb
    refine writes_of (f := writeTsCfg b v) ?_ rfl
    have hoff : bedOff b 0x48 = 0x400048 + 0x1000 * b := by unfold bedOff; omega
    show execTsCfgWrite ag b v s = _
    rw [← hoff]
    exact if_neg (Nat.not_le.2 hb)
  case pool =>
    intro b ce hb hue hdue own
    obtain ⟨t, hexec, hmem, hhbm, hbed, hfound⟩ := poolScrub_finds hb hue hdue ce
    have hown : ∀ w, (poolPlace b w).isSome = own w := isSome_poolPlace b
    simp only [hown] at hbed
    refine ⟨t, hexec, hmem, hhbm, hbed, fun u hu hunit hbad => ?_⟩
    obtain ⟨hplace, hfirst⟩ := poolPlace_unit ((hown u).trans hu) hunit
    exact hfound _ _ _ hplace hfirst hbad
  case hbm =>
    intro p ce hp hdue
    obtain ⟨t, hexec, hmem, hbeds, hce, hscrubbed, hfound⟩ := hbmScrub_finds hp hdue ce
    refine ⟨t, hexec, hmem, hbeds, hce, hscrubbed, fun a ha hunit hbad => ?_⟩
    have hplace : channelPlace p (hbmBase + a) = some (.hbm a) := by
      unfold channelPlace
      rw [Nat.add_sub_cancel_left, if_pos ⟨Nat.le_add_right .., ha⟩]
    exact hfound _ _ 16 hplace (by rw [Place.unit, hunit]; rfl) hbad
  case rate =>
    intro k temp hk hoff
    obtain ⟨ps, hps, heq⟩ := refresh_eq k temp s
    refine ⟨ps, hps, ?_⟩
    show execRefreshRateRaised k temp s = _
    unfold execRefreshRateRaised
    rw [if_neg (Nat.not_le.2 hk), if_neg hoff, heq]
  case selfRefresh => exact exec_selfRefreshEntry
  case snoop =>
    intro line dirty hs hserve put
    obtain ⟨t, hexec, hsnoops, hfilter, hmem⟩ := bisnpResponse_writes hs hserve dirty
    refine ⟨t, hexec, hsnoops, hfilter, hmem.trans ?_⟩
    unfold answeredWrites
    rw [List.foldl_append, List.foldl_map]
    cases dirty <;> rfl
  case window =>
    intro page ce hp hoff hdormant hce back
    rw [exec_hbmEccWindow hp hoff hdormant hce]
    by_cases hin : Tab.get .inHbm s.hbm.back page = .inHbm
    · rw [if_neg (Classical.not_not.2 hin)]
      cases hfree : freeReserve s.hbm with
      | some i => rw [retirePage_of_free hin hfree]
      | none => rw [retirePage_of_full hin hfree]
    · rw [if_pos hin, retirePage_of_not_inHbm hin]

end Sys2Proof.Machine
end

section
/-! SUPPORT. HBM as the host reads and writes it, and requests to the host as they end (R184, R186, R187, R290 to R294). -/

namespace Sys2Proof.Machine

/-! ### What opens HBM to the host (R290) -/

/-- Mem_Active, by the host interface and the device's state (R290). -/
theorem memActive_iff (s : State) : memActive s = true ↔ s.cxl.memReady = true ∧ s.cxl.ioOnly = false ∧
    (s.glb.state = .startup ∨ s.glb.state = .test ∨ s.glb.state = .service ∨ s.glb.state = .recovery ∨
      s.glb.state = .dormant) := by
  simp [memActive, and_assoc, or_assoc]

/-- The link is up in L0, L0p and L1 (R299). -/
theorem linkUp_iff (c : Cxl) : c.linkUp = true ↔ c.link = .l0 ∨ c.link = .l0p ∨ c.link = .l1 := by
  simp [Cxl.linkUp, or_assoc]

/-- A decoder commits, or is in error (R290). -/
theorem exec_hdmCommit {s : State} {k : Nat} (hk : k < 2) (base : W64) (size skip ways : Nat) :
    exec (.hdmCommit k base size skip ways) s = .next { s with cxl := { s.cxl with
      dec := Tab.set s.cxl.dec k (if memActive s = true ∧ size = 2 ^ 36 ∧ skip = 0 ∧ ways = 1
        then { committed := true, base := base.toNat } else { committed := false, error := true }) } } := by
  show execHdmCommit k base size skip ways s = _
  unfold execHdmCommit
  rw [if_neg (Nat.not_le.2 hk)]
  simp only [Bool.and_eq_true, decide_eq_true_eq]

/-! ### The stacks woken (R184) -/

/-- An access at `s` has left its time in `t`, and in Dormant has brought every pseudo-channel out of self-refresh. -/
def StacksWoken (s t : State) : Prop :=
  t.hbm.lastUse = now s ∧
    ∀ p, (hbmPageOf t p).selfRef = (if s.glb.state = .dormant then false else (hbmPageOf s p).selfRef)

/-- Every entry of a table changed, and its default left as it is. -/
theorem Tab.get_map {α : Type} {d : α} {f : α → α} (hd : f d = d) (t : Tab α) (k : Nat) :
    Tab.get d (t.map fun e => (e.1, f e.2)) k = f (Tab.get d t k) := by
  induction t with
  | nil => exact hd.symm
  | cons e t ih =>
    rw [List.map_cons, Tab.get, Tab.get, ih, apply_ite f]

/-- An access of HBM reaches nothing but its time and self-refresh. -/
theorem wakeStacks_eq (s : State) :
    wakeStacks s = { s with hbm := { s.hbm with lastUse := now s, pages := (wakeStacks s).hbm.pages } } := by
  unfold wakeStacks
  split <;> rfl

/-- Waking the stacks leaves the memory alone. -/
@[simp] theorem wakeStacks_mem (s : State) : (wakeStacks s).mem = s.mem := by rw [wakeStacks_eq]
/-- Waking the stacks leaves the error codes alone. -/
@[simp] theorem wakeStacks_bad (s : State) : (wakeStacks s).bad = s.bad := by rw [wakeStacks_eq]
/-- Waking the stacks leaves what was sent alone. -/
@[simp] theorem wakeStacks_out (s : State) : (wakeStacks s).out = s.out := by rw [wakeStacks_eq]
/-- Waking the stacks leaves the snoop filter alone. -/
@[simp] theorem wakeStacks_filter (s : State) : (wakeStacks s).hbm.filter = s.hbm.filter := by rw [wakeStacks_eq]

/-- An access wakes the stacks. -/
theorem stacksWoken_wakeStacks (s : State) : StacksWoken s (wakeStacks s) := by
  refine ⟨by rw [wakeStacks_eq], fun p => ?_⟩
  unfold wakeStacks
  by_cases hd : s.glb.state = .dormant
  · rw [if_pos hd, if_pos hd]
    exact congrArg HbmPage.selfRef (Tab.get_map (f := fun x : HbmPage => { x with selfRef := false }) rfl s.hbm.pages p)
  · rw [if_neg hd, if_neg hd]
    rfl

/-- Errors counted after an access leave the stacks awake. -/
theorem StacksWoken.counted {s t u : State} (h : StacksWoken s t) (k : OnlyUeCounted t u) : StacksWoken s u :=
  ⟨k.lastUse.trans h.1, fun p => (k.selfRef p).trans (h.2 p)⟩

/-- The snoop filter replaced, and nothing else. -/
def withFilter (f : List Nat) (s : State) : State := { s with hbm := { s.hbm with filter := f } }

/-- The filter is not what an access wakes. -/
theorem StacksWoken.withFilter {s t : State} (h : StacksWoken s t) (f : List Nat) : StacksWoken s (withFilter f t) := h

/-! ### The host reads a line (R183, R187, R291) -/

/-- A line that the host keeps joins the filter, which has room for it, unless it is there already. -/
theorem recordLine_of_room {s : State} {line : Nat}
    (h : (s.hbm.filter.filter fun l => lineStack l == lineStack line).length < 1048576) (keep : Bool) :
    (if keep then recordLine line s else s) =
      withFilter (if keep = true ∧ s.hbm.filter.contains line = false then s.hbm.filter ++ [line] else s.hbm.filter) s := by
  cases keep with
  | false => rfl
  | true =>
    unfold recordLine
    simp only [if_neg (Nat.not_le.2 h)]
    cases s.hbm.filter.contains line <;> rfl

/-- A line of the device's own memory is read: no byte changes, and an error met is counted. -/
theorem deviceLine_state (line : Nat) (s : State) :
    (deviceLine line s).2.mem = s.mem ∧ OnlyUeCounted s (deviceLine line s).2 := by
  unfold deviceLine
  simp only []
  split
  · exact ⟨noteUe_mem .., onlyUeCounted_noteUe ..⟩
  · exact ⟨rfl, .of_hbm rfl⟩

/-- What the host is answered for a line: its bytes, and whether a word of it holds an error (R183, R291). -/
def lineAnswer (line : Nat) (s : State) : Out :=
  .memData ((List.range 64).map fun i => memGet s.mem (2 * (hbmBase + 32 * line) + i))
    ((List.range 32).any fun i => placeBad s (.hbm (32 * line + i)))

/-- The host reads a line: it is answered last, no byte changes, and errors met are counted. -/
theorem hostLine_reads (line : Nat) (s : State) :
    (hostLine line s).mem = s.mem ∧ (hostLine line s).out.getLast? = some (lineAnswer line s) ∧
      OnlyUeCounted s (hostLine line s) := by
  obtain ⟨hmem, hcounted⟩ := deviceLine_state ((hbmBase + 32 * line) / 32) s
  exact ⟨hmem, List.getLast?_concat, hcounted.trans (.of_hbm rfl)⟩

/-- A line is read once the stacks are awake, with the memory and its error codes as they stood: the host is answered with what
stood there, and the stacks and the filter stay as they are. -/
theorem hostLine_answers {s u : State} (hmem : u.mem = s.mem) (hbad : u.bad = s.bad) (hw : StacksWoken s u) (line : Nat) :
    (hostLine line u).mem = s.mem ∧ (hostLine line u).out.getLast? = some (lineAnswer line s) ∧
      StacksWoken s (hostLine line u) ∧ (hostLine line u).hbm.filter = u.hbm.filter := by
  obtain ⟨hkept, hout, hcounted⟩ := hostLine_reads line u
  have hplace : placeBad u = placeBad s := by
    funext pl
    unfold placeBad
    rw [hbad]
  have hsame : lineAnswer line u = lineAnswer line s := by
    unfold lineAnswer
    rw [hmem, hplace]
  exact ⟨hkept.trans hmem, hout.trans (congrArg some hsame), hw.counted hcounted, hcounted.filter⟩

/-! ### The host writes a line (R187, R291) -/

/-- Poison reaches the error codes alone. -/
theorem poisonWords_keeps (ws : List PlacedWord) (s : State) :
    (poisonWords ws s).mem = s.mem ∧ (poisonWords ws s).hbm = s.hbm := by
  unfold poisonWords
  constructor
  · exact foldl_keeps (fun t => t.mem) _ (fun t p => by split <;> rfl) ws s
  · exact foldl_keeps (fun t => t.hbm) _ (fun t p => by split <;> rfl) ws s

/-- A poisoned word's unit holds an error. -/
theorem poisonWords_bad {ws : List PlacedWord} {p : PlacedWord} {u n : Nat} (hp : p ∈ ws) (hu : p.1.unit = some (u, n))
    (s : State) : 1 ≤ Tab.get 0 (poisonWords ws s).bad u := by
  refine foldl_reaches (fun t : State => 1 ≤ Tab.get 0 t.bad u) _ (fun t q ht => ?_) hp (fun t => ?_) s
  · split
    · rw [Tab.get_set]
      split
      · exact Nat.le_max_left ..
      · exact ht
    · exact ht
  · simp only [hu, Tab.get_set_same]
    exact Nat.le_max_left ..

/-- Words that the host writes, perhaps with poison. -/
def hostStored (ws : List PlacedWord) (poison : Bool) (s : State) : State :=
  if poison then poisonWords ws (writePlaced ws s) else writePlaced ws s

/-- What the host writes is in memory, poisoned or not. -/
theorem hostStored_mem (ws : List PlacedWord) (poison : Bool) (s : State) :
    (hostStored ws poison s).mem = ws.foldl putPlaced s.mem := by
  cases poison with
  | false => exact writePlaced_mem ..
  | true => exact (poisonWords_keeps ..).1.trans (writePlaced_mem ..)

/-- What the host writes changes the HBM side in no more than error counts. -/
theorem onlyUeCounted_hostStored (ws : List PlacedWord) (poison : Bool) (s : State) :
    OnlyUeCounted s (hostStored ws poison s) := by
  have hcounted := onlyUeCounted_writePlaced ws s
  cases poison with
  | false => exact hcounted
  | true => exact hcounted.trans (.of_hbm (poisonWords_keeps ..).2)

/-! ### The rows of a host access (R290, R291) -/

/-- Beyond the end of HBM no access has a meaning. -/
theorem exec_beyondHbm {dpa : Nat} (h : 2 ^ 37 ≤ dpa) (s : State) :
    (∀ keep, exec (.cxlMemRead dpa keep) s = .fault .noSuchAddress) ∧
      (∀ data mask poison keep, exec (.cxlMemWrite dpa data mask poison keep) s = .fault .noSuchAddress) ∧
      ∀ write data mask, exec (.uioAccess write dpa data mask) s = .fault .noSuchAddress :=
  ⟨fun _ => if_pos h, fun _ _ _ _ => if_pos h, fun _ _ _ => if_pos h⟩

section

variable {s : State} {dpa : Nat} (hd : dpa < 2 ^ 37) (ho : hdmOpen s dpa = true)
include hd ho

/-- A read by CXL.mem of an open line. -/
theorem exec_cxlMemRead (hen : s.cxl.memEn = true) (keep : Bool) : exec (.cxlMemRead dpa keep) s =
    .next (hostLine (dpa / 64) (if keep then recordLine (dpa / 64) (wakeStacks s) else wakeStacks s)) := by
  show execCxlMemRead dpa keep s = _
  unfold execCxlMemRead
  rw [if_neg (Nat.not_le.2 hd), ho, hen]
  rfl

/-- A write by CXL.mem of an open line. -/
theorem exec_cxlMemWrite (hen : s.cxl.memEn = true) (data : List Byte) (mask : W64) (poison keep : Bool) :
    let t := hostStored (hostWords (dpa / 64) mask.toNat data) poison (wakeStacks s)
    exec (.cxlMemWrite dpa data mask poison keep) s = .next (if keep then t else forgetLine (dpa / 64) t) := by
  show execCxlMemWrite dpa data mask poison keep s = _
  unfold execCxlMemWrite
  rw [if_neg (Nat.not_le.2 hd), ho, hen]
  rfl

/-- Unordered I/O of an open line. -/
theorem exec_uioAccess (write : Bool) (data : List Byte) (mask : W64) : exec (.uioAccess write dpa data mask) s =
    .next (if write then deviceWrite (hostWords (dpa / 64) mask.toNat data) (wakeStacks s)
      else hostLine (dpa / 64) (wakeStacks s)) := by
  show execUioAccess write dpa data mask s = _
  unfold execUioAccess
  rw [if_neg (Nat.not_le.2 hd), ho]
  rfl

/-- A read by CXL.mem answers the line's bytes, wakes the stacks and, where the host keeps the line, enters it in the filter. -/
theorem cxlMemRead_answers (hen : s.cxl.memEn = true) (keep : Bool)
    (hroom : (s.hbm.filter.filter fun l => lineStack l == lineStack (dpa / 64)).length < 1048576) :
    Answers (exec (.cxlMemRead dpa keep) s) fun t => t.mem = s.mem ∧ t.out.getLast? = some (lineAnswer (dpa / 64) s) ∧
      StacksWoken s t ∧ t.hbm.filter =
        (if keep = true ∧ s.hbm.filter.contains (dpa / 64) = false then s.hbm.filter ++ [dpa / 64] else s.hbm.filter) := by
  have hexec := exec_cxlMemRead hd ho hen keep
  rw [← wakeStacks_filter s] at hroom
  rw [recordLine_of_room hroom keep, wakeStacks_filter] at hexec
  have hread := fun f : List Nat => hostLine_answers (u := withFilter f (wakeStacks s)) (wakeStacks_mem s) (wakeStacks_bad s)
    ((stacksWoken_wakeStacks s).withFilter f) (dpa / 64)
  exact ⟨_, hexec, hread _⟩

/-- A write by CXL.mem stores the words, wakes the stacks, drops the line from the filter unless the host keeps it, and leaves
an error in every unit that it poisons. -/
theorem cxlMemWrite_stores (hen : s.cxl.memEn = true) (data : List Byte) (mask : W64) (poison keep : Bool) :
    let ws := hostWords (dpa / 64) mask.toNat data
    Answers (exec (.cxlMemWrite dpa data mask poison keep) s) fun t => t.mem = ws.foldl putPlaced s.mem ∧
      t.hbm.filter = (if keep then s.hbm.filter else s.hbm.filter.filter (· != dpa / 64)) ∧ StacksWoken s t ∧
      (poison = true → ∀ p ∈ ws, ∀ u n, p.1.unit = some (u, n) → 1 ≤ Tab.get 0 t.bad u) := by
  intro ws
  have hexec := exec_cxlMemWrite hd ho hen data mask poison keep
  have hmem : (hostStored ws poison (wakeStacks s)).mem = ws.foldl putPlaced s.mem := by rw [hostStored_mem, wakeStacks_mem]
  have hcounted := onlyUeCounted_hostStored ws poison (wakeStacks s)
  have hwoken := (stacksWoken_wakeStacks s).counted hcounted
  have hfilter := hcounted.filter.trans (wakeStacks_filter s)
  have hbad : poison = true → ∀ p ∈ ws, ∀ u n, p.1.unit = some (u, n) →
      1 ≤ Tab.get 0 (hostStored ws poison (wakeStacks s)).bad u := by
    rintro rfl p hp u n hu
    exact poisonWords_bad hp hu _
  cases keep with
  | true => exact ⟨_, hexec, hmem, hfilter, hwoken, hbad⟩
  | false => exact ⟨_, hexec, hmem, congrArg (List.filter (· != dpa / 64)) hfilter, hwoken.withFilter _, hbad⟩

/-- A read by unordered I/O answers the line's bytes and wakes the stacks; the filter stands. -/
theorem uioRead_answers (data : List Byte) (mask : W64) :
    Answers (exec (.uioAccess false dpa data mask) s) fun t => t.mem = s.mem ∧
      t.out.getLast? = some (lineAnswer (dpa / 64) s) ∧ StacksWoken s t ∧ t.hbm.filter = s.hbm.filter := by
  obtain ⟨hmem, hout, hwoken, hfilter⟩ :=
    hostLine_answers (wakeStacks_mem s) (wakeStacks_bad s) (stacksWoken_wakeStacks s) (dpa / 64)
  exact ⟨_, exec_uioAccess hd ho false data mask, hmem, hout, hwoken, hfilter.trans (wakeStacks_filter s)⟩

end

/-! ### Requests end (R60, R212, R294) -/

/-- The completion of a read that a reed has given up is counted. -/
theorem completeRequest_late {q : HostRequest} {r : Nat} (hq : q.from' = .reed r) (hl : q.late = true) (data : List Byte)
    (ok : Bool) (s : State) : completeRequest q data ok s = countLate r (dropReq q s) := by
  simp [completeRequest, hq, hl]

/-- The completion of a read that a reed waits on. -/
theorem completeRequest_reed {q : HostRequest} {r : Nat} {f : Far} {s : State} (hq : q.from' = .reed r) (hl : q.late = false)
    (hf : waitingRead (dropReq q s) r = some f) (data : List Byte) (ok : Bool) :
    completeRequest q data ok s =
      if ok then resumeBundle r (some (leValue (data.take f.len))) (farCharge (dropReq q s) r f.tgt (f.byte / 2)) (dropReq q s)
      else failFarRead r 4 (f.byte / 2) (dropReq q s) := by
  simp [completeRequest, hq, hl, hf]

/-- The completion of an engine's request. -/
theorem completeRequest_engine {q : HostRequest} {b rq : Nat} (hq : q.from' = .engine b rq) (hl : q.late = false)
    (data : List Byte) (ok : Bool) (s : State) :
    completeRequest q data ok s = requestData b rq data ok (dropReq q s) := by
  simp [completeRequest, hq, hl]

/-- The host interface ends a reed's read. -/
theorem endRequest_reed {q : HostRequest} {r : Nat} (hq : q.from' = .reed r) (s : State) :
    let u := fbRaise 0x0704 (BitVec.ofNat 64 r) (dropReq q s)
    endRequest q s = if q.late then countLate r u else failFarRead r 4 (readAddr u r) (endFarRead r u) := by
  simp only [endRequest, hq, Originator.code]

/-- The host interface ends an engine's request. -/
theorem endRequest_engine {q : HostRequest} {b rq : Nat} (hq : q.from' = .engine b rq) (s : State) :
    endRequest q s = endEngineRequest b rq q.late (fbRaise 0x0704 (BitVec.ofNat 64 (0x8000 + b)) (dropReq q s)) := by
  simp only [endRequest, hq, Originator.code]

/-- The completion of a request in flight. -/
theorem exec_hostReadCompletion {s : State} {k : Nat} {q : HostRequest} (hq : s.cxl.reqs[k]? = some q) (data : List Byte)
    (ok : Bool) : exec (.hostReadCompletion k data ok) s = .next (completeRequest q data ok s) := by
  show execHostReadCompletion k data ok s = _
  simp only [execHostReadCompletion, hq]

/-- The timeout of a request in flight. -/
theorem exec_hostRequestTimeout {s : State} {k : Nat} {q : HostRequest} (hq : s.cxl.reqs[k]? = some q)
    (hdue : q.since + 2 ^ 26 ≤ now s) : exec (.hostRequestTimeout k) s = .next (endRequest q s) := by
  show execHostRequestTimeout k s = _
  simp only [execHostRequestTimeout, hq, if_pos hdue]

/-- Settles O44: the decoder and the accesses by the lemmas of their rows, each end of a request by its originator. -/
theorem hostReadsMemoryAndRequestsEnd : Obligations.HostReadsMemoryAndRequestsEnd := by
  intro s c st active up wakes
  refine ⟨?commit, fun dpa h => exec_beyondHbm h s, ?access, fun hpa => rfl, ?requests⟩
  case commit =>
    intro k base size skip ways hk ok
    rw [exec_hdmCommit hk]
    simp only [memActive_iff]
    rfl
  case access =>
    intro dpa hd hactive hup hdec line byte ws bad answer
    have ho : hdmOpen s dpa = true := by
      unfold hdmOpen
      rw [(memActive_iff s).2 hactive, (linkUp_iff c).2 hup, hdec]
      rfl
    refine ⟨fun hen => ⟨fun keep hroom => cxlMemRead_answers hd ho hen keep hroom, fun data mask poison keep =>
      cxlMemWrite_stores hd ho hen data mask poison keep⟩, fun data mask => uioRead_answers hd ho data mask, ?_⟩
    intro data mask
    exact ⟨_, exec_uioAccess hd ho true data mask, wakeStacks s, stacksWoken_wakeStacks s, wakeStacks_mem s,
      wakeStacks_out s, rfl⟩
  case requests =>
    intro k q hq t late
    refine ⟨fun data ok => ?_, fun hdue => ?_⟩
    · rw [exec_hostReadCompletion hq]
      refine ⟨fun r hr hl => ?_, fun r f hr hl hf => ?_, fun b rq hb hl => ?_⟩
      · rw [completeRequest_late hr hl]
        rfl
      · rw [completeRequest_reed hr hl hf]
      · rw [completeRequest_engine hb hl]
    · rw [exec_hostRequestTimeout hq hdue]
      constructor
      · intro r hr u
        rw [endRequest_reed hr]
        rfl
      · intro b rq hb hl
        rw [endRequest_engine hb, hl]

end Sys2Proof.Machine
end

section
/-! SUPPORT. The Sluice engines take the commands of their queues (R198 to R202, R206, R207, R213, R267 to R270). -/

namespace Sys2Proof.Machine

/-! ### What a queue's shadow leaves alone (R268, R293) -/

section

variable {α : Type} {f : State → α} (hhost : ∀ c o t, f { t with cxl := c, out := o } = f t)
include hhost

/-- A write of host memory reaches only the host interface and what is sent. -/
theorem hostWrite_keeps (ws : List (Nat × StoreWord)) (s : State) : f (hostWrite ws s) = f s := by
  unfold hostWrite
  extract_lets bytes uio
  split
  · exact hhost _ s.out s
  · exact hhost _ _ s

variable (hdevice : ∀ ws t, f (deviceWrite ws t) = f t)
include hdevice

/-- A write of the Queue Manager is one of host memory or one of the device's own. -/
theorem qmWrite_keeps (a : Nat) (ws : List W16) (s : State) : f (qmWrite a ws s) = f s := by
  unfold qmWrite
  split
  · exact hostWrite_keeps hhost ..
  · exact hdevice ..

/-- A shadow that follows reaches only its queue beside what the Queue Manager writes. -/
theorem writeShadow_keeps (hqueue : ∀ q x t, f (setQueue q x t) = f t) (q : Nat) (s : State) : f (writeShadow q s) = f s := by
  unfold writeShadow
  extract_lets x v
  split
  · rfl
  split
  · exact hqueue ..
  split
  · rfl
  · exact (qmWrite_keeps hhost hdevice ..).trans (hqueue ..)

end

/-- `writeShadow` leaves the Sluice engines alone. -/
@[simp] theorem writeShadow_slc (q : Nat) (s : State) : (writeShadow q s).slc = s.slc :=
  writeShadow_keeps (fun _ _ _ => rfl) deviceWrite_slc (fun _ _ _ => rfl) q s

/-- `writeShadow` leaves the security block alone. -/
@[simp] theorem writeShadow_sec (q : Nat) (s : State) : (writeShadow q s).sec = s.sec :=
  writeShadow_keeps (fun _ _ _ => rfl) deviceWrite_sec (fun _ _ _ => rfl) q s

/-- The engines are what the Sluice block holds. -/
theorem engineOf_of_slc {s t : State} (h : s.slc = t.slc) (b : Nat) : engineOf s b = engineOf t b := by
  unfold engineOf
  rw [h]

/-! ### A command is taken (R201, R267 to R270) -/

/-- Engine `b` takes the entry at the head of its queue: it serves in a working state with no completion held, and its queues
are as R267 has them. -/
structure TakesCommand (s : State) (b : Nat) (entry : List W32) : Prop where
  serving : (engineOf s b).serving = true
  working : engineState s.glb.state = true
  published : cmdPublished (queueOf s (engineOf s b).cmdq) = true
  length : entry.length = 16
  fit : queuesUnfit s (engineOf s b) = false
  noneHeld : (queueOf s (engineOf s b).cplq).held = []
  there : entryThere s (queueOf s (engineOf s b).cmdq) entry = true

/-- The state in which a command takes effect: its entry has left the queue, the shadow has followed, and it is counted. -/
def commandTaken (b : Nat) (s : State) : State :=
  let e := engineOf s b
  let q := queueOf s e.cmdq
  setEngine b { e with seq := e.seq + 1 } (writeShadow e.cmdq (setQueue e.cmdq { q with ci := q.ci + 1 } s))

/-- The engine has counted the command. -/
@[simp] theorem engineOf_commandTaken (b : Nat) (s : State) :
    engineOf (commandTaken b s) b = { engineOf s b with seq := (engineOf s b).seq + 1 } := by
  unfold commandTaken
  rw [engineOf_setEngine]

/-- The streams are as they were. -/
@[simp] theorem streamOf_commandTaken (b i : Nat) (s : State) : streamOf (commandTaken b s) b i = streamOf s b i := by
  unfold streamOf
  rw [engineOf_commandTaken]

/-- A stream's tide is the Meridian's. -/
theorem streamTide_of_mer {s t : State} (h : s.mer = t.mer) (x : Stream) : streamTide s x = streamTide t x := by
  unfold streamTide domOf
  rw [h]

/-- The Meridian is as it was. -/
@[simp] theorem commandTaken_mer (b : Nat) (s : State) : (commandTaken b s).mer = s.mer := by
  unfold commandTaken
  rw [setEngine_mer, writeShadow_mer, setQueue_mer]

/-- A stream's domain is in the same tide. -/
@[simp] theorem streamTide_commandTaken (b : Nat) (x : Stream) (s : State) :
    streamTide (commandTaken b s) x = streamTide s x := streamTide_of_mer (commandTaken_mer b s) x

/-- The key that unwraps others is as it was. -/
@[simp] theorem commandTaken_sec (b : Nat) (s : State) : (commandTaken b s).sec = s.sec := by
  unfold commandTaken
  rw [setEngine_sec, writeShadow_sec, setQueue_sec]

section

variable {s : State} {b : Nat} {entry : List W32} (h : TakesCommand s b entry)
include h

/-- A command that is taken has its effect once its entry has left the queue. -/
theorem takeCommand_eq (f : Nat → State → State) :
    takeCommand b entry f s = f ((engineOf s b).seq + 1) (commandTaken b s) := by
  have heng : ∀ q x, engineOf (writeShadow q (setQueue q x s)) b = engineOf s b := fun q x =>
    engineOf_of_slc (writeShadow_slc ..) b
  unfold takeCommand commandTaken
  simp [h.serving, h.working, h.published, h.length, h.fit, h.noneHeld, h.there, heng]

/-- A command of its row's opcode is taken. -/
theorem takeAs_eq {op : Nat} (hb : b < 32) (hop : isCmd op entry = true) (f : Nat → State → State) :
    takeAs op b entry f s = .next (f ((engineOf s b).seq + 1) (commandTaken b s)) := by
  unfold takeAs
  rw [if_neg (Nat.not_le.2 hb), hop, takeCommand_eq h]
  rfl

end

/-! ### The commands' effects (R198 to R202, R206, R207, R213) -/

/-- A stream in no state for START. -/
theorem startRefused_iff (x : Stream) : (!x.v || x.st != .idle || x.stop.isSome || x.kind == 1) = true ↔
    x.v = false ∨ x.st ≠ .idle ∨ x.stop.isSome ∨ x.kind = 1 := by
  simp [or_assoc]

/-- A stream in no state for GATHER. -/
theorem gatherRefused_iff (x : Stream) : (!x.v || x.kind != 1) = true ↔ x.v = false ∨ x.kind ≠ 1 := by
  simp

/-- A stream whose rate SETRATE changes: a RING that keeps its own count and is not IDLE. -/
theorem rateTaken_iff (x : Stream) : (x.kind = 0 ∧ (!x.cur) = true ∧ x.st ≠ .idle) ↔
    x.kind = 0 ∧ x.cur = false ∧ x.st ≠ .idle := by
  rw [Bool.not_eq_true']

/-- FENCE_COMPLETE of the oldest FENCE, once nothing before it is left (R201). -/
theorem completeFence_eq {s : State} {b tag n : Nat} {rest : List (Nat × Nat)} (hf : (engineOf s b).fences = (tag, n) :: rest)
    (hj : ∀ j ∈ (engineOf s b).jobs, n ≤ j) :
    completeFence b s = post b 0 { status := 0, op := 7, tag := tag }
      (setEngine b { engineOf s b with fences := rest, jobs := (engineOf s b).jobs.filter fun j => j != n } s) := by
  have hall : ((engineOf s b).jobs.all fun j => decide (n ≤ j)) = true :=
    List.all_eq_true.2 fun j hm => decide_eq_true (hj j hm)
  unfold completeFence
  simp only [hf, hall, if_true, endJob, engineOf_setEngine, setEngine_setEngine]

/-- Where SD_DATA15 of an engine's page lies (R392). -/
theorem slcOff_sdCommit (b : Nat) : slcOff b 0xBC = 0x3000BC + 0x1000 * b := by
  unfold slcOff
  omega

/-- A commit is made, or its refusal noted (R200). -/
theorem exec_sdCommit {b : Nat} (hb : b < 32) (ag : Nat) (v : W32) (s : State) :
    exec (.sdCommit ag b v) s = .next (atPage ag (0x3000BC + 0x1000 * b) (sdCommit ag b v) s) := by
  show execSdCommit ag b v s = _
  unfold execSdCommit
  rw [if_neg (Nat.not_le.2 hb), slcOff_sdCommit]

/-- Settles O36: every command is taken in the same way, and then has the effect of its row. -/
theorem sluiceCommandsTakeEffect : Obligations.SluiceCommandsTakeEffect := by
  intro s b hb e
  refine ⟨fun ag v => ?commit, fun entry => ?commands, fun tag n rest hf hj => ?complete⟩
  case commit =>
    intro old x err
    refine writes_of (exec_sdCommit hb ag v s) ?_
    unfold sdCommit refuseReg
    rw [slcOff_sdCommit]
  case commands =>
    intro q u word tag i n x done bare job put fresh rate hserving hworking hpublished hlength hfit hheld hthere
    have h : TakesCommand s b entry := ⟨hserving, hworking, hpublished, hlength, hfit, hheld, hthere⟩
    refine ⟨fun hop => (takeAs_eq h hb hop _).trans ?start, fun hop => (takeAs_eq h hb hop _).trans ?stop,
      fun hop => (takeAs_eq h hb hop _).trans ?resume, fun hop => ?setrate, fun hop => ?keyload,
      fun hop => (takeAs_eq h hb hop _).trans ?gather, fun hop => (takeAs_eq h hb hop _).trans ?fence, fun hfits => ?badcmd⟩
    case start =>
      unfold startStream
      simp only [streamOf_commandTaken, startRefused_iff, ite_not]
      rfl
    case stop =>
      unfold stopCommand
      simp only [streamOf_commandTaken]
      rfl
    case resume =>
      unfold resumeCommand
      simp only [streamOf_commandTaken]
      rfl
    case setrate =>
      intro m t y
      refine (takeAs_eq h hb hop _).trans ?_
      unfold setRate
      simp only [streamOf_commandTaken, streamTide_commandTaken, rateTaken_iff]
      rfl
    case keyload =>
      intro k
      refine (takeAs_eq h hb hop _).trans ?_
      unfold keyLoad
      rw [engineOf_commandTaken, commandTaken_sec]
      rfl
    case gather =>
      unfold gatherCommand
      simp only [streamOf_commandTaken, gatherRefused_iff]
      rfl
    case fence =>
      unfold fenceCommand
      rw [engineOf_commandTaken]
      rfl
    case badcmd =>
      show execBadcmd b entry s = _
      unfold execBadcmd
      rw [if_neg (Nat.not_le.2 hb), hfits, takeCommand_eq h]
      rfl
  case complete =>
    show execFenceComplete b s = _
    unfold execFenceComplete
    rw [if_neg (Nat.not_le.2 hb), completeFence_eq hf hj]

end Sys2Proof.Machine
end

section
/-! SUPPORT. The Sluice engines issue and settle their requests, and are replaced (R204, R210 to R212, R223, R368, R377). -/

namespace Sys2Proof.Machine

/-! ### Requests are issued and answered (R210, R211) -/

/-- A serving engine in a working state may ask for a line for stream `i` in slot `rq`: the stream works and has neither the
line nor a request for it, and the slot is free. -/
structure RequestOpen (s : State) (b i rq line : Nat) : Prop where
  serving : (engineOf s b).serving = true
  working : engineState s.glb.state = true
  runs : (streamOf s b i).st = .running ∨ (streamOf s b i).st = .armed
  free : Tab.get none (engineOf s b).slots rq = none
  missing : (streamOf s b i).lines.lookup line = none
  notAsked : ((engineOf s b).held.any fun q => q.2.stream == i && q.2.line == line && !q.2.dead) = false
  room : cplFull s b = false

section

variable {s : State} {b i rq line : Nat} (h : RequestOpen s b i rq line)
include h

/-- A line that nobody answers faults at once. -/
theorem issueRequest_of_error {c : Nat} (hc : lineSource s line = .error c) :
    issueRequest b i rq line s = deliverLine b i line (.failed c) s := by
  have hruns : ((streamOf s b i).st == .running || (streamOf s b i).st == .armed) = true := by simpa using h.runs
  unfold issueRequest
  simp [h.serving, h.working, hruns, h.free, h.missing, h.notAsked, h.room, hc]

/-- A line that is answered is asked for in the slot. -/
theorem issueRequest_of_ok {k : SourceKind} (hk : lineSource s line = .ok k) (hmay : mayIssue (engineOf s b) i = true) :
    issueRequest b i rq line s = sendRequest b rq line k (setEngine b { engineOf s b with
      slots := Tab.set (engineOf s b).slots rq (some { stream := i, line := line, kind := k, since := now s }) } s) := by
  have hruns : ((streamOf s b i).st == .running || (streamOf s b i).st == .armed) = true := by simpa using h.runs
  unfold issueRequest
  simp [h.serving, h.working, hruns, h.free, h.missing, h.notAsked, h.room, hk, hmay]

end

/-- Data that wait for no snoop free their slot and reach a stream that was not stopped meanwhile. -/
theorem requestData_eq {s : State} {b rq : Nat} {q : SluiceReq} (hq : Tab.get none (engineOf s b).slots rq = some q)
    (hsnoop : q.kind = .device → lineSnooped s q.line = false) (data : List Byte) (ok : Bool) :
    requestData b rq data ok s = if q.dead then freeSlot b rq s
      else if q.kind = .device then
        deliverLine b q.stream q.line (deviceLine q.line (freeSlot b rq s)).1 (deviceLine q.line (freeSlot b rq s)).2
      else deliverLine b q.stream q.line (if ok then .words (lineWords data) else .failed causeUE) (freeSlot b rq s) := by
  unfold requestData
  cases hkind : q.kind with
  | device => simp [hq, hkind, hsnoop hkind]
  | host => simp [hq, hkind]
  | atlas => simp [hq, hkind]

/-! ### Requests time out and are settled (R212) -/

/-- The timeout of a request has freed its slot: what comes later is awaited as late. -/
def slotTimedOut (b rq : Nat) (q : SluiceReq) (s : State) : State :=
  let e := engineOf s b
  { setEngine b { e with
      slots := Tab.set e.slots rq none
      late := e.late ++ [{ rq := rq, stream := q.stream, tag := (streamOf s b q.stream).tag, kind := q.kind }] } s with
    cxl := { s.cxl with reqs := s.cxl.reqs.map fun h => if h.from' = .engine b rq then { h with late := true } else h }
    atl := { s.atl with reads := s.atl.reads.map fun h =>
      if h.agent = 0x8000 + b ∧ h.slot = rq then { h with late := true } else h } }

/-- The engine after a timeout. -/
theorem engineOf_slotTimedOut (b rq : Nat) (q : SluiceReq) (s : State) :
    engineOf (slotTimedOut b rq q s) b = { engineOf s b with
      slots := Tab.set (engineOf s b).slots rq none
      late := (engineOf s b).late ++
        [{ rq := rq, stream := q.stream, tag := (streamOf s b q.stream).tag, kind := q.kind }] } :=
  (engineOf_of_slc rfl b).trans (engineOf_setEngine b _ s)

/-- A timeout that has run out is posted with cause TIMEOUT, and its stream takes the fault. -/
theorem requestTimeout_eq {s : State} {b rq : Nat} {q : SluiceReq} (hq : Tab.get none (engineOf s b).slots rq = some q)
    (hkind : q.kind ≠ .device) (hlive : q.dead = false) (hdue : q.since + (engineOf s b).timeout q.kind ≤ now s) :
    requestTimeout b rq s = deliverLine b q.stream q.line (.failed causeTIMEOUT) (postStream b q.stream
      { status := 5, tag := (streamOf s b q.stream).tag, rq := rq, cause := causeTIMEOUT, addr := q.line * 32 }
      (slotTimedOut b rq q s)) := by
  unfold requestTimeout slotTimedOut
  simp [hq, hkind, hlive, Nat.not_lt.2 hdue]

/-- Late data are no longer awaited, and are counted. -/
def lateSettled (b k : Nat) (q : SluiceLate) (s : State) : State :=
  let e := engineOf s b
  { setEngine b { e with late := eraseAt k e.late, lateCnt := satInc 0xFFFF e.lateCnt } s with
    cxl := { s.cxl with reqs := s.cxl.reqs.filter fun h => !(h.late && h.from' == .engine b q.rq) }
    atl := { s.atl with reads := s.atl.reads.filter fun h => !(h.late && h.agent == 0x8000 + b && h.slot == q.rq) } }

/-- The engine after late data. -/
theorem engineOf_lateSettled (b k : Nat) (q : SluiceLate) (s : State) :
    engineOf (lateSettled b k q s) b = { engineOf s b with
      late := eraseAt k (engineOf s b).late, lateCnt := satInc 0xFFFF (engineOf s b).lateCnt } :=
  (engineOf_of_slc rfl b).trans (engineOf_setEngine b _ s)

/-- Late data are posted as LATE and recorded. -/
theorem lateArrival_eq {s : State} {b k : Nat} {q : SluiceLate} (hq : (engineOf s b).late[k]? = some q) (cause : Nat) :
    lateArrival b k cause s = fbRaise 0x0631 (slcPayload b q.stream q.rq)
      (postStream b q.stream { status := 6, tag := q.tag, rq := q.rq, cause := cause } (lateSettled b k q s)) := by
  unfold lateArrival lateSettled
  simp only [hq]

/-! ### The rows of the requests (R204, R210 to R212, R223, R368, R377) -/

section

variable {b : Nat} (hb : b < 32) (s : State)
include hb

/-- RING_WINDOW_RESIDENT of a ring that runs and awaits a window that is resident (R204). -/
theorem exec_ringWindowResident {i : Nat} (hi : i < 2048) (ha : (streamOf s b i).awaiting = true)
    (hst : (streamOf s b i).st = .running) (hres : (streamOf s b i).resident = true) :
    exec (.ringWindowResident b i) s = .next
      (streamToken b (streamOf s b i) (setStream b i { streamOf s b i with awaiting := false } s)) := by
  show execRingWindowResident b i s = _
  unfold execRingWindowResident
  simp [Nat.not_le.2 hb, Nat.not_le.2 hi, ha, hst, hres]

/-- SLUICE_REQUEST_ISSUE (R210). -/
theorem exec_sluiceRequestIssue {i rq : Nat} (hi : i < 2048) (hrq : rq < 1024) (line : Nat) :
    exec (.sluiceRequestIssue b i rq line) s = .next (issueRequest b i rq line s) := by
  show execSluiceRequestIssue b i rq line s = _
  unfold execSluiceRequestIssue
  rw [if_neg (by omega)]

/-- SLUICE_REQUEST_DATA (R211). -/
theorem exec_sluiceRequestData {rq : Nat} (hrq : rq < 1024) (data : List Byte) (ok : Bool) :
    exec (.sluiceRequestData b rq data ok) s = .next (requestData b rq data ok s) := by
  show execSluiceRequestData b rq data ok s = _
  unfold execSluiceRequestData
  rw [if_neg (by omega)]

/-- SLUICE_REQUEST_TIMEOUT (R212). -/
theorem exec_sluiceRequestTimeout {rq : Nat} (hrq : rq < 1024) :
    exec (.sluiceRequestTimeout b rq) s = .next (requestTimeout b rq s) := by
  show execSluiceRequestTimeout b rq s = _
  unfold execSluiceRequestTimeout
  rw [if_neg (by omega)]

/-- SLUICE_LATE_ARRIVAL (R212). -/
theorem exec_sluiceLateArrival (k : Nat) : exec (.sluiceLateArrival b k) s = .next (lateArrival b k 0 s) :=
  if_neg (Nat.not_le.2 hb)

/-- SLC_LOAD_WINDOW of a load that NOW holds (R223). -/
theorem exec_slcLoadWindow {n : Nat} (hn : n ≤ 0xFFFF) : exec (.slcLoadWindow b n) s =
    .next (setEngine b { engineOf s b with now := n, peak := max (engineOf s b).peak n } s) := by
  show execSlcLoadWindow b n s = _
  unfold execSlcLoadWindow
  rw [if_neg (by omega), Nat.min_eq_left hn]

/-- ENGINE_SELFCHECK_FAIL of an engine that serves a bed of its own (R368, R377). -/
theorem exec_engineSelfcheckFail : exec (.engineSelfcheckFail b) s = .next (if s.spr.engineIdle then substituteEngine b s
    else trigger (.fault 5) (setEngine b { engineOf s b with serving := false } s)) := by
  show execEngineSelfcheckFail b s = _
  unfold execEngineSelfcheckFail
  rw [if_neg (by omega), if_neg (by omega), apply_ite Host.Outcome.next]

end

/-- Settles O37: each row by its lemma, and for a request what its issue, its data, its timeout and its late data leave. -/
theorem sluiceRequestsRun : Obligations.SluiceRequestsRun := by
  intro s b hb e held slot
  refine ⟨fun i hi ha hst hres => exec_ringWindowResident hb s hi ha hst hres, ?issue, ?data, ?timeout, ?late,
    fun n hn => exec_slcLoadWindow hb s hn, exec_engineSelfcheckFail hb s⟩
  case issue =>
    intro i rq line hi hrq hserving hworking hruns hfree hmissing hasked hroom
    have h : RequestOpen s b i rq line := ⟨hserving, hworking, hruns, hfree, hmissing, hasked, hroom⟩
    rw [exec_sluiceRequestIssue hb s hi hrq]
    exact ⟨fun c hc => congrArg _ (issueRequest_of_error h hc), fun k hk hmay => congrArg _ (issueRequest_of_ok h hk hmay)⟩
  case data =>
    intro rq q data ok hrq hq hsnoop
    rw [exec_sluiceRequestData hb s hrq, requestData_eq hq hsnoop]
  case timeout =>
    intro rq q hrq hq hkind hlive hdue
    refine ⟨slotTimedOut b rq q s, rfl, engineOf_slotTimedOut b rq q s, ?_⟩
    rw [exec_sluiceRequestTimeout hb s hrq, requestTimeout_eq hq hkind hlive hdue]
  case late =>
    intro k q hq
    refine ⟨lateSettled b k q s, rfl, engineOf_lateSettled b k q s, ?_⟩
    rw [exec_sluiceLateArrival hb s, lateArrival_eq hq]

end Sys2Proof.Machine
end

section
/-! SUPPORT. The audio serial ports: what an enable, a frame start, a slot, a staging load and a clock loss leave of their port
(R225 to R240, R420). -/

namespace Sys2Proof.Machine

/-! ### A port is read past interrupts and records -/

/-- Interrupts leave the ports alone. -/
@[simp] theorem aspOf_irqSet (pg : Nat) (m : W32) (s : State) (n : Nat) : aspOf (irqSet pg m s) n = aspOf s n := by
  rw [aspOf, irqSet_asp, aspOf]

/-- Records leave the ports alone. -/
@[simp] theorem aspOf_fbRaise (code : Nat) (p : W64) (s : State) (n : Nat) : aspOf (fbRaise code p s) n = aspOf s n := rfl

/-- Captures of a page's error leave the ports alone. -/
@[simp] theorem aspOf_pageError (pg code addr : Nat) (s : State) (n : Nat) : aspOf (pageError pg code addr s) n = aspOf s n := rfl

/-! ### Enable and disable (R226, R236) -/

/-- The port with RXEN and TXEN as a write of CTRL gives them. -/
def Asp.withCtrl (v : W32) (a : Asp) : Asp := { a with rxen := bitOf v 1, txen := bitOf v 2 }

/-- EN is no part of the port's RXEN and TXEN. -/
theorem withCtrl_putBit (a : Asp) (v : W32) (b : Bool) : a.withCtrl (putBit v 0 b) = a.withCtrl v := by
  rw [Asp.withCtrl, bitOf_putBit v 0 b (by decide), bitOf_putBit v 0 b (by decide), Asp.withCtrl]
  rfl

/-- CTRL written with EN = 1: an enabled port goes on, another starts or is refused. -/
theorem aspCtrl_enable (ag n : Nat) (v : W32) (s : State) :
    let x := (aspOf s n).withCtrl v
    aspCtrl ag n (putBit v 0 true) s = if (aspOf s n).en then setAsp n x s
      else if aspCheck s x ≠ 0 then refuseReg 5 ag (aspOff n 8) (setAsp n { x with enerr := aspCheck s x } s)
      else setAsp n { x.quiet with en := true, enerr := 0, loadAll := true, since := now s } s := by
  rw [← withCtrl_putBit (aspOf s n) v true]
  exact if_pos (bitOf_putBit v 0 true (by decide))

/-- CTRL written with EN = 0: the port stops at once. -/
theorem aspCtrl_disable (ag n : Nat) (v : W32) (s : State) :
    aspCtrl ag n (putBit v 0 false) s = setAsp n { ((aspOf s n).withCtrl v).quiet with en := false } s := by
  rw [← withCtrl_putBit (aspOf s n) v false]
  exact if_neg (by simp [bitOf_putBit v 0 false (by decide : 0 < 32)])

/-! ### Staging loads (R231, R232, R367) -/

/-- The staging entry of slot `k` is loaded with a word. -/
def stageWord (n k : Nat) (v : W32) (s : State) : State :=
  let a := aspOf s n
  setAsp n { a with staging := Tab.set a.staging k v, fresh := putBit a.fresh k true, loadDue := putBit a.loadDue k false } s

section

variable (n k : Nat) (s : State)

/-- A VACANT source loads 0 (R367). -/
theorem loadStaging_vacant (h : physOf s (outReed (Tab.get 0 (aspOf s n).outsNow k)) = none) :
    loadStaging n k s = stageWord n k 0 s := by
  simp only [loadStaging, h, stageWord]

variable {p : Nat} (hp : physOf s (outReed (Tab.get 0 (aspOf s n).outsNow k)) = some p)
include hp

/-- A source with an uncorrectable error loads 0 and is reported (R232). -/
theorem loadStaging_bad {w : Nat}
    (hw : (outWords (Tab.get 0 (aspOf s n).outsNow k)).find? (fun w => placeBad s (.bank (reedBase p + w))) = some w) :
    loadStaging n k s = fbRaise 0x0B04 (aspPayload n k (aspOf s n).dom (domOf s (aspOf s n).dom).tide)
      (irqSet (aspPage n) 0x10 (pageError (aspPage n) 0x0B04 (reedBase (outReed (Tab.get 0 (aspOf s n).outsNow k)) + w)
        (stageWord n k 0 s))) := by
  simp only [loadStaging, hp, hw, stageWord]

/-- A sound source loads its words, a single one left-aligned (R231, R233). -/
theorem loadStaging_sound
    (hw : ∀ w ∈ outWords (Tab.get 0 (aspOf s n).outsNow k), placeBad s (.bank (reedBase p + w)) = false) :
    loadStaging n k s = stageWord n k (BitVec.ofNat 32
      (wordsValue ((outWords (Tab.get 0 (aspOf s n).outsNow k)).map fun w => memWord s.mem (reedBase p + w)) *
        (if bitOf (Tab.get 0 (aspOf s n).outsNow k) 26 then 2 ^ 16 else 1))) s := by
  have hnone : (outWords (Tab.get 0 (aspOf s n).outsNow k)).find? (fun w => placeBad s (.bank (reedBase p + w))) = none :=
    List.find?_eq_none.2 fun w hmem => by simp [hw w hmem]
  simp only [loadStaging, hp, hnone, stageWord, List.map_map, Function.comp_def]
  split <;> simp only [Nat.mul_one]

end

/-! ### What staging loads leave of a port -/

/-- Two ports differ at most in their staging entries. -/
def Asp.Restaged (x y : Asp) : Prop := ∃ st fr due, y = { x with staging := st, fresh := fr, loadDue := due }

/-- No load leaves the port as it is. -/
theorem Asp.Restaged.refl (x : Asp) : x.Restaged x := ⟨_, _, _, rfl⟩

/-- Loads after loads are loads. -/
theorem Asp.Restaged.trans {x y z : Asp} (hxy : x.Restaged y) (hyz : y.Restaged z) : x.Restaged z := by
  obtain ⟨_, _, _, rfl⟩ := hxy
  obtain ⟨st, fr, due, rfl⟩ := hyz
  exact ⟨st, fr, due, rfl⟩

/-- A word loaded changes the staging entries alone. -/
theorem stageWord_restaged (n k : Nat) (v : W32) (s : State) : (aspOf s n).Restaged (aspOf (stageWord n k v s) n) :=
  ⟨_, _, _, aspOf_setAsp ..⟩

/-- A staging load changes the staging entries alone, whatever its source is. -/
theorem loadStaging_restaged (n k : Nat) (s : State) : (aspOf s n).Restaged (aspOf (loadStaging n k s) n) := by
  cases hp : physOf s (outReed (Tab.get 0 (aspOf s n).outsNow k)) with
  | none => simpa only [loadStaging_vacant n k s hp] using stageWord_restaged n k 0 s
  | some p =>
    cases hw : (outWords (Tab.get 0 (aspOf s n).outsNow k)).find? (fun w => placeBad s (.bank (reedBase p + w))) with
    | none =>
      rw [loadStaging_sound n k s hp fun w hmem => by simpa using List.find?_eq_none.1 hw w hmem]
      exact stageWord_restaged ..
    | some w =>
      rw [loadStaging_bad n k s hp hw, aspOf_fbRaise, aspOf_irqSet, aspOf_pageError]
      exact stageWord_restaged ..

/-! ### Frames (R227, R228, R234, R238) -/

/-- A port at a frame start: its maps and its depth are in force as written, and the frame is open or, where the port waits
for FS, none is. -/
def Asp.startFrame (live : Bool) (tf t : Nat) (opens : Bool) (a : Asp) : Asp :=
  { a with loopNow := a.loop, slotsNow := a.slots, outsNow := a.outs, loadAll := false
           frame := if opens then some { start := tf, tide := t, live := live, loop := a.loop, slots := a.slots } else none
           prev := if opens then a.frame else none }

/-- The maps and the depth take effect as written. -/
theorem aspApplyMaps_restaged (n : Nat) (s : State) :
    ({ aspOf s n with loopNow := (aspOf s n).loop, slotsNow := (aspOf s n).slots, outsNow := (aspOf s n).outs
                      loadAll := false } : Asp).Restaged (aspOf (aspApplyMaps n s) n) := by
  unfold aspApplyMaps
  refine foldl_preserves (fun t => Asp.Restaged _ (aspOf t n)) (fun t k => loadStaging n k t)
    (fun t k h => h.trans (loadStaging_restaged n k t)) _ _ ?_
  rw [aspOf_setAsp]
  exact .refl _

/-- A port `x` opens a frame with its maps and its depth as written. -/
theorem aspFrame_restaged (n tf t : Nat) (x : Asp) (s : State) :
    (x.startFrame (s.glb.state == .service) tf t true).Restaged (aspOf (aspFrame n tf t (setAsp n x s)) n) := by
  obtain ⟨st, fr, due, h⟩ := aspApplyMaps_restaged n (setAsp n x s)
  refine ⟨st, fr, due, ?_⟩
  simp only [aspFrame, aspOf_setAsp, h]
  rfl

section

variable {live : Bool} {tf t n : Nat} {a : Asp} {u : State}

/-- A port that does not run the frame just started holds none. -/
theorem restaged_of_dropped (h : (a.startFrame live tf t true).Restaged (aspOf u n)) :
    (a.startFrame live tf t false).Restaged (aspOf (setAsp n { aspOf u n with frame := none, prev := none } u) n) := by
  obtain ⟨st, fr, due, h⟩ := h
  refine ⟨st, fr, due, ?_⟩
  rw [aspOf_setAsp, h]
  rfl

/-- The depth in force is the one written. -/
theorem loopNow_of_restaged (h : (a.startFrame live tf t true).Restaged (aspOf u n)) : (aspOf u n).loopNow = a.loop := by
  obtain ⟨st, fr, due, h⟩ := h
  rw [h]
  rfl

/-- The port at whose frame start a frame opened is timed as a master's where it is one or loops back its slots. -/
theorem masterTimed_of_restaged (h : (a.startFrame live tf t true).Restaged (aspOf u n)) :
    (aspOf u n).masterTimed = (a.master || a.loop == 3) := by
  obtain ⟨st, fr, due, h⟩ := h
  simp [h, Asp.masterTimed, Asp.startFrame, Asp.master]

end

/-- A frame start timed as a master's (R227, R238). -/
theorem masterFrame_restaged (n t : Nat) (s : State) :
    let a := aspOf s n
    (({ a with phase := a.foff, lock := a.lock || a.master } : Asp).startFrame (s.glb.state == .service)
      ((domOf s a.dom).tideTick t + a.foff) t (a.master || a.loop == 3)).Restaged (aspOf (masterFrame n t s) n) := by
  intro a
  have h := aspFrame_restaged n ((domOf s a.dom).tideTick t + a.foff) t
    { a with phase := a.foff, lock := a.lock || a.master } s
  have htimed := masterTimed_of_restaged h
  unfold masterFrame
  cases hopens : a.master || a.loop == 3 with
  | true =>
    rw [if_pos (htimed.trans hopens)]
    exact h
  | false =>
    rw [if_neg (Bool.eq_false_iff.1 (htimed.trans hopens))]
    exact restaged_of_dropped h

/-- A frame start of a slave in lock, in a tide of its domain (R228). -/
theorem aspSlaveFrame_restaged {n : Nat} {s : State} {a : Asp} {d : Domain} (ha : aspOf s n = a) (hd : domOf s a.dom = d)
    (hlock : a.lock = true) (hbegun : d.begun = true) :
    (({ a with phase := now s - d.tideTick d.tide, inTide := a.inTide + a.lock.toNat } : Asp).startFrame
      (s.glb.state == .service) (now s) d.tide (a.loop != 3)).Restaged (aspOf (aspSlaveFrame n s) n) := by
  subst ha hd
  have h := aspFrame_restaged n (now s) (domOf s (aspOf s n).dom).tide
    { aspOf s n with phase := now s - (domOf s (aspOf s n).dom).tideTick (domOf s (aspOf s n).dom).tide
                     inTide := (aspOf s n).inTide + (aspOf s n).lock.toNat } s
  have hloop := loopNow_of_restaged h
  unfold aspSlaveFrame
  rw [if_pos hbegun, if_pos hlock]
  by_cases hslots : (aspOf s n).loop = 3
  · rw [if_pos (hloop.trans hslots), bne_eq_false_iff_eq.2 hslots]
    exact restaged_of_dropped h
  · rw [if_neg fun hnow => hslots (hloop.symm.trans hnow), bne_iff_ne.2 hslots]
    exact h

/-! ### What a slave does with a frame start (R228, R235) -/

/-- The state in which a slave takes its frame start: in lock it realigns where the spacing is wrong; out of lock it locks
where the spacing is right. -/
def slaveSeen (n periods : Nat) (s : State) : State :=
  let a := aspOf s n
  let t := setAsp n { a with seen := true } s
  if a.lock then (if a.seen ∧ periods = a.ns * a.sw then t else aspRealign n t)
  else if a.seen ∧ periods = a.ns * a.sw then aspLock n t
  else t

/-- A realign counts and ends the frames in progress. -/
theorem aspOf_aspRealign (n : Nat) (s : State) : aspOf (aspRealign n s) n =
    { aspOf s n with realign := satInc 0xFFFF (aspOf s n).realign, frame := none, prev := none } := by
  simp only [aspRealign, aspOf_fbRaise, aspOf_irqSet, aspOf_setAsp]

/-- A lock ends a clock loss and begins to count the port's tides. -/
theorem aspOf_aspLock (n : Nat) (s : State) : ∃ slip, aspOf (aspLock n s) n =
    { aspOf s n with lock := true, clkLoss := false, loadAll := true, inTide := 0, slipFrom := slip } := by
  unfold aspLock
  extract_lets a d t
  refine ⟨if d.begun then d.tide else 0, ?_⟩
  split
  · rw [aspOf_fbRaise, aspOf_irqSet, aspOf_setAsp]
  · rw [aspOf_setAsp]

/-- A realign reaches neither the clock nor the device state. -/
theorem aspRealign_keeps (n : Nat) (s : State) : (aspRealign n s).mer = s.mer ∧ (aspRealign n s).glb = s.glb := by
  simp [aspRealign]

/-- A lock reaches neither the clock nor the device state. -/
theorem aspLock_keeps (n : Nat) (s : State) : (aspLock n s).mer = s.mer ∧ (aspLock n s).glb = s.glb := by
  unfold aspLock
  extract_lets a d t
  split <;> simp [t]

/-- What a slave does with a frame start reaches neither the clock nor the device state. -/
theorem slaveSeen_keeps (n periods : Nat) (s : State) :
    (slaveSeen n periods s).mer = s.mer ∧ (slaveSeen n periods s).glb = s.glb := by
  unfold slaveSeen
  extract_lets a t
  split
  · split
    · exact ⟨rfl, rfl⟩
    · exact aspRealign_keeps n t
  · split
    · exact aspLock_keeps n t
    · exact ⟨rfl, rfl⟩

/-- A slave that was in lock, or sees the right spacing, is in lock: a wrong spacing counts as a realign, and a new lock ends a
clock loss. -/
theorem aspOf_slaveSeen {n periods : Nat} {s : State}
    (h : (aspOf s n).lock = true ∨ (aspOf s n).seen = true ∧ periods = (aspOf s n).ns * (aspOf s n).sw) :
    let a := aspOf s n
    ∃ all fr pr inTide slip, aspOf (slaveSeen n periods s) n =
      { a with seen := true, lock := true
               realign := if a.lock = true ∧ ¬(a.seen = true ∧ periods = a.ns * a.sw) then satInc 0xFFFF a.realign else a.realign
               clkLoss := if a.lock then a.clkLoss else false
               loadAll := all, frame := fr, prev := pr, inTide := inTide, slipFrom := slip } := by
  intro a
  unfold slaveSeen
  by_cases hlock : a.lock = true
  · by_cases hspaced : a.seen = true ∧ periods = a.ns * a.sw
    · rw [if_pos hlock, if_pos hspaced, aspOf_setAsp]
      exact ⟨a.loadAll, a.frame, a.prev, a.inTide, a.slipFrom, by simp [a, hlock, hspaced]⟩
    · rw [if_pos hlock, if_neg hspaced, aspOf_aspRealign, aspOf_setAsp]
      exact ⟨a.loadAll, none, none, a.inTide, a.slipFrom, by simp [a, hlock, hspaced]⟩
  · have hspaced := h.resolve_left hlock
    obtain ⟨slip, hport⟩ := aspOf_aspLock n (setAsp n { a with seen := true } s)
    rw [if_neg hlock, if_pos hspaced, hport, aspOf_setAsp]
    exact ⟨true, a.frame, a.prev, 0, slip, by simp [a, hlock]⟩

/-! ### Output slots (R232, R233) -/

/-- What output slot `k` sends: zero where its source is VACANT, TXEN = 0 or V = 0 (R232, R367). -/
theorem emitted_eq (a : Asp) (k : Nat) (source : Option Nat) :
    (if source == none then 0 else a.outValue k) =
      if source = none ∨ a.txen = false ∨ bitOf (Tab.get 0 a.outsNow k) 31 = false then 0
      else (Tab.get 0 a.staging k).toNat / 2 ^ (32 - a.sw) := by
  unfold Asp.outValue
  cases source with
  | none => rfl
  | some r => cases a.txen <;> cases bitOf (Tab.get 0 a.outsNow k) 31 <;> rfl

/-! ### Writes of the maps (R229, R231, R234) -/

/-- An unfit entry is stored with V = 0, another as it is. -/
theorem mapEntry_eq (fmtBit : Nat) (v : W32) :
    mapEntry fmtBit v = if bitOf v 31 = true ∧ bitOf v fmtBit = false ∧ fld v 0 16 = 0xFFFF then (putBit v 31 false, false)
      else (v, true) := by
  simp [mapEntry, and_assoc]

/-- SLOTMAPk is written, an unfit entry with a report. -/
theorem writeSlotmap_eq (ag n k : Nat) (v : W32) (s : State) :
    let a := aspOf s n
    writeSlotmap ag n k v s = if bitOf v 31 = true ∧ bitOf v 25 = false ∧ fld v 0 16 = 0xFFFF then
        refuseReg 5 ag (aspOff n (0x40 + 4 * k)) (setAsp n { a with slots := Tab.set a.slots k (putBit v 31 false) } s)
      else setAsp n { a with slots := Tab.set a.slots k v } s := by
  unfold writeSlotmap
  rw [mapEntry_eq]
  split <;> rfl

/-- OSLOTMAPk is written without its reserved bits, an unfit entry with a report. -/
theorem writeOslotmap_eq (ag n k : Nat) (v : W32) (s : State) :
    let a := aspOf s n
    let w := v &&& 0xC5FFFFFF#32
    writeOslotmap ag n k v s = if bitOf w 31 = true ∧ bitOf w 26 = false ∧ fld w 0 16 = 0xFFFF then
        refuseReg 5 ag (aspOff n (0xC0 + 4 * k)) (setAsp n { a with outs := Tab.set a.outs k (putBit w 31 false) } s)
      else setAsp n { a with outs := Tab.set a.outs k w } s := by
  intro a w
  unfold writeOslotmap
  rw [mapEntry_eq]
  by_cases hunfit : bitOf w 31 = true ∧ bitOf w 26 = false ∧ fld w 0 16 = 0xFFFF
  · rw [if_pos hunfit, if_pos hunfit]
    rfl
  · rw [if_neg hunfit, if_neg hunfit]
    rfl

/-! ### Clock loss (R235) -/

/-- Input slot `k` of port `n` is due its zero of tide `t`: the port has lost its clock under LOSSPOL ZERO, the slot's last bit
would have come in that tide, and no zero has been written for it. -/
structure LossZeroDue (s : State) (n k t : Nat) : Prop where
  /-- the frame has the slot -/
  slot : k < (aspOf s n).ns
  /-- the instant of step 3 has come in tide `t` -/
  come : latestFrame s (domOf s (aspOf s n).dom) ((aspOf s n).lastBit (aspOf s n).phase k) = some t
  /-- the port is enabled -/
  en : (aspOf s n).en = true
  /-- the port takes input -/
  rxen : (aspOf s n).rxen = true
  /-- the port is a slave -/
  slave : (aspOf s n).master = false
  /-- its clock is lost -/
  lost : (aspOf s n).clkLoss = true
  /-- LOSSPOL is ZERO -/
  zero : (aspOf s n).lossZero = true
  /-- the slot is mapped -/
  mapped : bitOf (Tab.get 0 (aspOf s n).slotsNow k) 31 = true
  /-- the domain is active -/
  active : (domOf s (aspOf s n).dom).active = true
  /-- the device state lets ports have frames -/
  state : aspState s.glb.state = true
  /-- the clock was lost before the instant -/
  since : (aspOf s n).lostAt ≤ (domOf s (aspOf s n).dom).tideTick t + (aspOf s n).lastBit (aspOf s n).phase k
  /-- the slot has not been written as zero in this tide -/
  once : Tab.get 0 (aspOf s n).zeroed k ≤ t

/-! ### The rows -/

section

variable {n : Nat} (hn : n < 96) (s : State)
include hn

/-- ASP_FRAME_START at a frame start that has come (R227). -/
theorem exec_aspFrameStart {t : Nat} (ht : latestFrame s (domOf s (aspOf s n).dom) (aspOf s n).foff = some t)
    (hen : (aspOf s n).en = true) (hmaster : (aspOf s n).masterTimed = true) (hactive : (domOf s (aspOf s n).dom).active = true)
    (hstate : aspState s.glb.state = true)
    (hlater : ∀ f, (aspOf s n).frame = some f → f.start < (domOf s (aspOf s n).dom).tideTick t + (aspOf s n).foff)
    (hsince : (aspOf s n).since + 64 ≤ (domOf s (aspOf s n).dom).tideTick t + (aspOf s n).foff) :
    exec (.aspFrameStart n) s = .next (masterFrame n t s) := by
  show execAspFrameStart n s = _
  unfold execAspFrameStart
  rw [if_neg (Nat.not_le.2 hn)]
  cases hf : (aspOf s n).frame with
  | none => simp [ht, hf, hen, hmaster, hactive, hstate, hsince]
  | some f => simp [ht, hf, hen, hmaster, hactive, hstate, hsince, hlater f hf]

/-- ASP_SLAVE_FRAME_START where frames may be and the port's clock is its own (R228). -/
theorem exec_aspSlaveFrameStart (periods : Nat) (hen : (aspOf s n).en = true) (hslave : (aspOf s n).master = false)
    (hloop : (aspOf s n).loopNow ≠ 3) (hactive : (domOf s (aspOf s n).dom).active = true)
    (hstate : aspState s.glb.state = true) :
    exec (.aspSlaveFrameStart n periods) s = .next (aspSlaveFrame n (slaveSeen n periods s)) := by
  show execAspSlaveFrameStart n periods s = _
  unfold execAspSlaveFrameStart
  rw [if_neg (Nat.not_le.2 hn)]
  simp only [slaveSeen, Bool.and_eq_true, beq_iff_eq]
  exact if_pos (by simp [hen, hslave, hloop, hactive, hstate])

/-- ASP_SLOT_INGRESS of the slot that a frame has next (R229). -/
theorem exec_aspSlotIngress {k : Nat} (v : Nat) {old : Bool} {f : AspFrame} (hk : k < 32) (hns : k < (aspOf s n).ns)
    (hframe : ingressFrame s (aspOf s n) k = some (old, f)) :
    let a := aspOf s n
    let g := { f with got := k + 1 }
    let t := setAsp n (if old then { a with prev := some g } else { a with frame := some g }) s
    let e := Tab.get 0 f.slots k
    exec (.aspSlotIngress n k v) s = .next (if bitOf e 31 = true ∧ aspIngressOpen s a f = true then
      ingressWrite e a.sw (inputValue a f k v) t else t) := by
  intro a g t e
  show execAspSlotIngress n k v s = _
  unfold execAspSlotIngress
  rw [if_neg (by omega), if_neg (Nat.not_le.2 hns), hframe]
  simp only [Bool.and_eq_true, apply_ite Host.Outcome.next]
  rfl

/-- ASP_SLOT_EMIT of the slot that the frame has next, its first bit having come (R232). -/
theorem exec_aspSlotEmit {k : Nat} {f : AspFrame} (hk : k < 32) (hns : k < (aspOf s n).ns) (hframe : (aspOf s n).frame = some f)
    (hnext : f.sent = k) (hdue : (aspOf s n).masterTimed = true → (aspOf s n).firstBit f.start k ≤ now s) :
    let a := aspOf s n
    let e := Tab.get 0 a.outsNow k
    let vacant := physOf s (outReed e) = none
    let v := if vacant ∨ a.txen = false ∨ bitOf e 31 = false then 0 else (Tab.get 0 a.staging k).toNat / 2 ^ (32 - a.sw)
    let pin := if f.live = true ∧ f.loop < 2 then v else 0
    exec (.aspSlotEmit n k) s = .next (send (.slotOut n k pin) (setAsp n { a with
      frame := some { f with sent := k + 1, vals := Tab.set f.vals k v, pins := Tab.set f.pins k pin }
      fresh := putBit a.fresh k false
      stale := if bitOf e 31 = true ∧ bitOf a.fresh k = false ∧ ¬vacant then satInc 0xFFFF a.stale else a.stale } s)) := by
  intro a e vacant v pin
  show execAspSlotEmit n k s = _
  unfold execAspSlotEmit
  rw [if_neg (by omega)]
  simp only [hframe]
  rw [if_pos ⟨hns, hnext, by cases h : (aspOf s n).masterTimed <;> simp [hdue, h]⟩, emitted_eq]
  simp only [Bool.and_eq_true, Bool.not_eq_true', decide_eq_true_eq, beq_eq_false_iff_ne, and_assoc]
  rfl

/-- ASP_STAGING_LOAD of a slot whose load is due (R231). -/
theorem exec_aspStagingLoad {k : Nat} (hk : k < 32) (hdue : bitOf (aspOf s n).loadDue k = true) :
    exec (.aspStagingLoad n k) s = .next (loadStaging n k s) := by
  show execAspStagingLoad n k s = _
  unfold execAspStagingLoad
  rw [if_neg (by omega), if_pos hdue]

/-- ASP_CLOCK_LOSS of a slave that had its clock (R235). -/
theorem exec_aspClockLoss (hen : (aspOf s n).en = true) (hslave : (aspOf s n).master = false)
    (hclock : (aspOf s n).clkLoss = false) :
    let a := aspOf s n
    let slot := match a.frame with
      | some f => min f.got (a.ns - 1)
      | none => 0
    exec (.aspClockLoss n) s = .next (fbRaise 0x0B01 (aspPayload n slot a.dom (domOf s a.dom).tide) (irqSet (aspPage n) 1
      (setAsp n { a.quiet with clkLoss := true, losses := satInc 0xFFFF a.losses, lostAt := now s } s))) := by
  show execAspClockLoss n s = _
  unfold execAspClockLoss
  rw [if_neg (Nat.not_le.2 hn)]
  exact if_pos (by simp [hen, hslave, hclock])

/-- ASP_LOSS_ZERO_WRITE of a slot whose zero is due (R235). -/
theorem exec_aspLossZeroWrite {k t : Nat} (hk : k < 32) (h : LossZeroDue s n k t) :
    let a := aspOf s n
    exec (.aspLossZeroWrite n k) s = .next
      (ingressWrite (Tab.get 0 a.slotsNow k) a.sw 0 (setAsp n { a with zeroed := Tab.set a.zeroed k (t + 1) } s)) := by
  obtain ⟨hns, ht, hen, hrx, hslave, hlost, hzero, hmapped, hactive, hstate, hsince, honce⟩ := h
  show execAspLossZeroWrite n k s = _
  unfold execAspLossZeroWrite
  rw [if_neg (by omega)]
  simp only [ht]
  exact if_pos (by simpa [hen, hrx, hslave, hlost, hzero, hns, hactive, hstate, hsince, honce] using hmapped)

/-- ASP_ENABLE is a write of CTRL with EN = 1 (R226). -/
theorem exec_aspEnable (ag : Nat) (v : W32) :
    exec (.aspEnable ag n v) s = .next (atPage ag (aspOff n 8) (aspCtrl ag n (putBit v 0 true)) s) :=
  if_neg (Nat.not_le.2 hn)

/-- ASP_DISABLE is a write of CTRL with EN = 0 (R236). -/
theorem exec_aspDisable (ag : Nat) (v : W32) :
    exec (.aspDisable ag n v) s = .next (atPage ag (aspOff n 8) (aspCtrl ag n (putBit v 0 false)) s) :=
  if_neg (Nat.not_le.2 hn)

/-- SLOTMAP_WRITE of an entry that exists (R234). -/
theorem exec_slotmapWrite (ag : Nat) {k : Nat} (hk : k < 32) (v : W32) :
    exec (.slotmapWrite ag n k v) s = .next (atPage ag (aspOff n (0x40 + 4 * k)) (writeSlotmap ag n k v) s) :=
  if_neg (by omega)

/-- OSLOTMAP_WRITE of an entry that exists (R231). -/
theorem exec_oslotmapWrite (ag : Nat) {k : Nat} (hk : k < 32) (v : W32) :
    exec (.oslotmapWrite ag n k v) s = .next (atPage ag (aspOff n (0xC0 + 4 * k)) (writeOslotmap ag n k v) s) :=
  if_neg (by omega)

/-- ASP_LOOP_CTRL_WRITE (R238). -/
theorem exec_aspLoopCtrlWrite (ag depth : Nat) : exec (.aspLoopCtrlWrite ag n depth) s =
    .next (atPage ag (aspOff n 0x28) (fun t => setAsp n { aspOf t n with loop := depth % 4 } t) s) :=
  if_neg (Nat.not_le.2 hn)

end

/-- Settles O38: each row by its lemma, a frame start by the port it leaves, whose maps are in force as written. -/
theorem audioPortsRunTheirFrames : Obligations.AudioPortsRunTheirFrames := by
  intro s n hn a d put off slotNow opened inForce
  refine ⟨fun ag v => ⟨writes_of (exec_aspEnable hn s ag v) (aspCtrl_enable ag n v s),
      writes_of (exec_aspDisable hn s ag v) (aspCtrl_disable ag n v s)⟩, ?master, ?slave,
    fun k v old f hk hns hframe => exec_aspSlotIngress hn s v hk hns hframe,
    fun k f hk hns hframe hnext hdue => exec_aspSlotEmit hn s hk hns hframe hnext hdue, ?load,
    fun hen hslave hclock => exec_aspClockLoss hn s hen hslave hclock,
    fun k t hk hns ht hen hrx hslave hlost hzero hmapped hactive hstate hsince honce =>
      exec_aspLossZeroWrite hn s hk ⟨hns, ht, hen, hrx, hslave, hlost, hzero, hmapped, hactive, hstate, hsince, honce⟩,
    ?maps, ?loop⟩
  case master =>
    intro t ht hen hmaster hactive hstate tf hlater hsince
    refine ⟨_, exec_aspFrameStart hn s ht hen hmaster hactive hstate hlater hsince, ?_⟩
    obtain ⟨st, fr, due, h⟩ := masterFrame_restaged n t s
    simp only [h, ← Bool.or_eq_true, ← beq_iff_eq (b := 3)]
    exact ⟨⟨rfl, rfl, rfl, rfl, rfl⟩, rfl, rfl, rfl⟩
  case slave =>
    intro periods hen hslave hloop hactive hbegun hstate ok hlocks
    refine ⟨_, exec_aspSlaveFrameStart hn s periods hen hslave hloop hactive hstate, ?_⟩
    obtain ⟨all, frame, prev, inTide, slip, hseen⟩ := aspOf_slaveSeen hlocks
    obtain ⟨hmer, hglb⟩ := slaveSeen_keeps n periods s
    have hdom : domOf (slaveSeen n periods s) a.dom = d := by rw [domOf, hmer]; rfl
    obtain ⟨st, fr, due, h⟩ := aspSlaveFrame_restaged hseen hdom rfl hbegun
    rw [now, hmer, hglb] at h
    simp only [h]
    refine ⟨⟨rfl, rfl, rfl, rfl, rfl⟩, rfl, rfl, rfl, ?_, rfl, rfl⟩
    simp only [Asp.startFrame, bne_iff_ne, ne_eq, ite_not]
    rfl
  case load =>
    intro k hk hdue e load
    rw [exec_aspStagingLoad hn s hk hdue]
    exact ⟨fun h => congrArg _ (loadStaging_vacant n k s h), fun p hp =>
      ⟨fun w hw => congrArg _ (loadStaging_bad n k s hp hw), fun hw => congrArg _ (loadStaging_sound n k s hp hw)⟩⟩
  case maps =>
    intro ag k v hk unfit w
    have hoff : ∀ o, off + o + 4 * k = aspOff n (o + 4 * k) := fun o => Nat.add_assoc ..
    rw [hoff, hoff]
    exact ⟨writes_of (exec_slotmapWrite hn s ag hk v) (writeSlotmap_eq ag n k v s),
      writes_of (exec_oslotmapWrite hn s ag hk v) (writeOslotmap_eq ag n k v s)⟩
  case loop =>
    intro ag depth hdepth
    refine writes_of (exec_aspLoopCtrlWrite hn s ag depth) ?_
    rw [Nat.mod_eq_of_lt hdepth]

end Sys2Proof.Machine
end

section
/-! SUPPORT. What every command leaves as it is: the queue of the commands that wait, and the canonical form of the memory (log
entry 4). The relation `Kept` between a state and a later one, and how records, folds and writes of memory stand to it. An
operation that touches neither queue nor memory has an equivalence as its rule, one that writes memory an implication. -/

namespace Sys2Proof.Machine

/-! ### The relation -/

/-- From `s` to `t` no command joined or left the queue, and a memory in canonical form stayed so (log entry 4). -/
structure Kept (s t : State) : Prop where
  /-- the queue is the same -/
  queue : t.pending = s.pending
  /-- the memory's form is kept -/
  wf : Memory.wf s.mem = true → Memory.wf t.mem = true

/-- The queue that a new state is given is that of `s`. -/
def QueueKept (s : State) (q : List Instr) : Prop := q = s.pending

/-- The memory that a new state is given is canonical where that of `s` is. -/
def MemKept (s : State) (m : List Host.Cell) : Prop := Memory.wf s.mem = true → Memory.wf m = true

/-- Where a step of work is possible, it keeps queue and form. -/
def KeptOpt (s : State) (o : Option State) : Prop := ∀ t, o = some t → Kept s t

/-- Where a command is answered with a next state, it keeps queue and form. -/
def KeptOut (s : State) (o : Out3) : Prop := ∀ t, o = .next t → Kept s t

section
variable {s t u : State}

@[simp] theorem Kept.refl (s : State) : Kept s s := ⟨rfl, id⟩

theorem Kept.trans (h : Kept s t) (k : Kept t u) : Kept s u := ⟨k.queue.trans h.queue, k.wf ∘ h.wf⟩

/-- What leaves queue and memory alone keeps exactly what was kept. -/
theorem kept_iff (hq : u.pending = t.pending) (hm : u.mem = t.mem) : Kept s u ↔ Kept s t :=
  ⟨fun h => ⟨hq.symm.trans h.queue, fun hw => hm ▸ h.wf hw⟩, fun h => ⟨hq.trans h.queue, fun hw => hm ▸ h.wf hw⟩⟩

@[simp] theorem Kept.queueKept (h : Kept s t) : QueueKept s t.pending := h.queue

@[simp] theorem Kept.memKept (h : Kept s t) : MemKept s t.mem := h.wf

/-- A record update is judged by the queue and the memory it gives. -/
@[simp] theorem kept_mk {q o f m b h g p e k r n d v c u w x l a y z i j t1 t2 t3} :
    Kept s ⟨q, o, f, m, b, h, g, p, e, k, r, n, d, v, c, u, w, x, l, a, y, z, i, j, t1, t2, t3⟩ ↔
      QueueKept s q ∧ MemKept s m := ⟨fun k => ⟨k.queue, k.wf⟩, fun k => ⟨k.1, k.2⟩⟩

@[simp] theorem kept_parts : QueueKept s t.pending ∧ MemKept s t.mem ↔ Kept s t :=
  ⟨fun k => ⟨k.1, k.2⟩, fun k => ⟨k.queue, k.wf⟩⟩

@[simp] theorem kept_ite {p : Prop} [Decidable p] :
    Kept s (if p then t else u) ↔ if p then Kept s t else Kept s u := by
  split <;> rfl

/-- A fold of work that keeps exactly what was kept. -/
@[simp] theorem kept_foldl {β : Type} {g : State → β → State} (hg : ∀ u b, Kept s (g u b) ↔ Kept s u) (l : List β) :
    Kept s (l.foldl g t) ↔ Kept s t := by
  induction l generalizing t with
  | nil => rfl
  | cons b l ih => exact (ih (t := g t b)).trans (hg t b)

/-- A fold of work whose every step keeps. -/
@[simp] theorem Kept.foldl {β : Type} {g : State → β → State} (h : Kept s t)
    (hg : ∀ u b, Kept s u → Kept s (g u b)) (l : List β) : Kept s (l.foldl g t) :=
  foldl_preserves (Kept s) g hg l t h

/-! ### Steps of work and outcomes -/

@[simp] theorem keptOpt_none (s : State) : KeptOpt s none := by simp [KeptOpt]

@[simp] theorem keptOpt_some (s t : State) : KeptOpt s (some t) ↔ Kept s t := by simp [KeptOpt]

@[simp] theorem keptOpt_ite {o q : Option State} {p : Prop} [Decidable p] :
    KeptOpt s (if p then o else q) ↔ if p then KeptOpt s o else KeptOpt s q := by
  split <;> rfl

@[simp] theorem KeptOpt.getD {o : Option State} (ho : KeptOpt s o) (h : Kept s t) : Kept s (o.getD t) := by
  cases o with
  | none => exact h
  | some u => exact ho u rfl

@[simp] theorem keptOut_fault (s : State) (r : Fault) : KeptOut s (.fault r) := by simp [KeptOut]

@[simp] theorem keptOut_refused (s : State) (r : Refusal) : KeptOut s (.refused r) := by simp [KeptOut]

@[simp] theorem keptOut_next (s t : State) : KeptOut s (.next t) ↔ Kept s t := by simp [KeptOut]

@[simp] theorem keptOut_ite {o q : Out3} {p : Prop} [Decidable p] :
    KeptOut s (if p then o else q) ↔ if p then KeptOut s o else KeptOut s q := by
  split <;> rfl

/-! ### Writes of memory -/

variable {m : List Host.Cell}

@[simp] theorem memKept_nil (s : State) : MemKept s [] := fun _ => rfl

@[simp] theorem memKept_filter (h : MemKept s m) (p : Host.Cell → Bool) : MemKept s (m.filter p) :=
  fun hw => memory_wf_filter p (h hw)

@[simp] theorem memKept_foldl {β : Type} {g : List Host.Cell → β → List Host.Cell} (h : MemKept s m)
    (hg : ∀ m b, Memory.wf m = true → Memory.wf (g m b) = true) (l : List β) : MemKept s (l.foldl g m) :=
  fun hw => foldl_preserves (fun m => Memory.wf m = true) g hg l m (h hw)

@[simp] theorem memKept_dropReedMem (h : MemKept s m) : MemKept s (dropReedMem m) := fun hw => dropReedMem_wf (h hw)

@[simp] theorem memKept_copyReedBytes (h : MemKept s m) (worn spare : Nat) : MemKept s (copyReedBytes worn spare m) :=
  fun hw => copyReedBytes_wf worn spare (h hw)

@[simp] theorem memKept_loadBytes (h : MemKept s m) (o : Nat) (bs : List Byte) : MemKept s (loadBytes o bs m) :=
  fun hw => loadBytes_wf o bs (h hw)

@[simp] theorem memKept_imageMem (h : MemKept s m) (i : Image) (r : Nat) : MemKept s (imageMem i r m) :=
  fun hw => imageMem_wf i r (h hw)

end

end Sys2Proof.Machine
end

section
/-! SUPPORT. Queue and canonical form are kept by
what the shared operations, the memories, the queues, the links, the buses and the audio ports do: one rule for each operation,
in the model's order. -/

namespace Sys2Proof.Machine

variable {s t : State}

/-! ### Shared operations -/

@[simp] theorem kept_fbRaise (code : Nat) (payload : W64) : Kept s (fbRaise code payload t) ↔ Kept s t := kept_iff rfl rfl

@[simp] theorem kept_send (o : Out) : Kept s (send o t) ↔ Kept s t := kept_iff rfl rfl

@[simp] theorem kept_pendVector (v : Nat) : Kept s (pendVector v t) ↔ Kept s t := kept_iff rfl rfl

@[simp] theorem kept_issueMsix (v : Nat) : Kept s (issueMsix v t) ↔ Kept s t := kept_iff (by simp) (by simp)

@[simp] theorem kept_sendPme : Kept s (sendPme t) ↔ Kept s t := kept_iff rfl rfl

@[simp] theorem kept_assertWake : Kept s (assertWake t) ↔ Kept s t := kept_iff (by simp) (by simp)

@[simp] theorem kept_signalWake : Kept s (signalWake t) ↔ Kept s t := kept_iff (by simp) (by simp)

@[simp] theorem kept_dormantWake (src : Source) : Kept s (dormantWake src t) ↔ Kept s t := kept_iff (by simp) (by simp)

@[simp] theorem kept_fireSource (n : Nat) : Kept s (fireSource n t) ↔ Kept s t := kept_iff (by simp) (by simp)

@[simp] theorem kept_setHdr (pg : Nat) (hdr : PageHdr) : Kept s (setHdr pg hdr t) ↔ Kept s t := kept_iff (by simp) (by simp)

@[simp] theorem kept_irqSet (pg : Nat) (mask : W32) : Kept s (irqSet pg mask t) ↔ Kept s t := kept_iff (by simp) (by simp)

@[simp] theorem kept_pageError (pg code addr : Nat) : Kept s (pageError pg code addr t) ↔ Kept s t := kept_iff rfl rfl

@[simp] theorem kept_glbErr (cause : Nat) (ag : Agent) (index : Nat) : Kept s (glbErr cause ag index t) ↔ Kept s t :=
    kept_iff (by simp) (by simp)

@[simp] theorem kept_atPage {ag off : Nat} {f : State → State} (h : Kept s t) (hf : Kept s (f t)) :
    Kept s (atPage ag off f t) := by
  unfold atPage
  simp [h, hf]

@[simp] theorem kept_readPage {ag off : Nat} {f : State → W32 × State} (h : Kept s t) (hf : Kept s (f t).2) :
    Kept s (readPage ag off f t) := by
  unfold readPage
  simp [h, hf]

@[simp] theorem kept_refuseReg (cause ag off : Nat) : Kept s (refuseReg cause ag off t) ↔ Kept s t :=
    kept_iff (by simp) (by simp)

@[simp] theorem kept_takeFree : Kept s (takeFree t).2 ↔ Kept s t := kept_iff rfl rfl

@[simp] theorem kept_setReed (r : Nat) (x : Reed) : Kept s (setReed r x t) ↔ Kept s t := kept_iff rfl rfl

@[simp] theorem kept_setBed (b : Nat) (x : Bed) : Kept s (setBed b x t) ↔ Kept s t := kept_iff rfl rfl

@[simp] theorem kept_setDom (d : Nat) (x : Domain) : Kept s (setDom d x t) ↔ Kept s t := kept_iff rfl rfl

@[simp] theorem kept_setHbmPage (p : Nat) (x : HbmPage) : Kept s (setHbmPage p x t) ↔ Kept s t := kept_iff rfl rfl

@[simp] theorem kept_setToken (r k : Nat) : Kept s (setToken r k t) ↔ Kept s t := kept_iff rfl rfl

@[simp] theorem kept_setTokenLogical (l k : Nat) : Kept s (setTokenLogical l k t) ↔ Kept s t := kept_iff (by simp) (by simp)

@[simp] theorem kept_retireReed (l : Nat) (urgent force : Bool) : Kept s (retireReed l urgent force t) ↔ Kept s t :=
    kept_iff (by simp) (by simp)

/-! ### Memories, error codes and token slots -/

@[simp] theorem kept_retirePage (n : Nat) : Kept s (retirePage n t) ↔ Kept s t := kept_iff (by simp) (by simp)

@[simp] theorem kept_noteUe (pl : Place) : Kept s (noteUe pl t) ↔ Kept s t := kept_iff (by simp) (by simp)

@[simp] theorem kept_unitAfter (ws : List PlacedWord) (p : PlacedWord) : Kept s (unitAfter ws p t) ↔ Kept s t :=
    kept_iff (by simp) (by simp)

@[simp] theorem kept_writePlaced (h : Kept s t) (ws : List PlacedWord) : Kept s (writePlaced ws t) := by
  have hm : MemKept s (ws.foldl putPlaced t.mem) := memKept_foldl h.memKept (fun _ p => putPlaced_wf p) ws
  simp [writePlaced, h, hm]

@[simp] theorem kept_sendBisnp (line : Nat) : Kept s (sendBisnp line t) ↔ Kept s t := kept_iff (by simp) (by simp)

@[simp] theorem kept_snoopOrKeep (a : State × List PlacedWord) (p : PlacedWord) :
    Kept s (snoopOrKeep a p).1 ↔ Kept s a.1 := kept_iff (by simp) (by simp)

@[simp] theorem kept_deviceWrite (h : Kept s t) (ws : List PlacedWord) : Kept s (deviceWrite ws t) :=
  h.trans ⟨deviceWrite_pending .., fun hw => deviceWrite_wf ws t hw⟩

@[simp] theorem kept_setTokenSlot (b i : Nat) (x : TokenSlot) : Kept s (setTokenSlot b i x t) ↔ Kept s t := kept_iff rfl rfl

@[simp] theorem kept_slotLate (p : Nat × Nat) : Kept s (slotLate t p) ↔ Kept s t := kept_iff rfl rfl

@[simp] theorem kept_closeSlot (tags : List Nat) (p : Nat × Nat) : Kept s (closeSlot tags t p) ↔ Kept s t :=
    by simp [closeSlot]

@[simp] theorem kept_reedStore (h : Kept s t) (r : Nat) (tags : List Nat) (ws : List StoreWord) :
    Kept s (reedStore r tags ws t) :=
    by simp [reedStore, h]

/-! ### The Queue Manager -/

@[simp] theorem kept_hostWrite (ws : List (Nat × StoreWord)) : Kept s (hostWrite ws t) ↔ Kept s t := by simp [hostWrite]

@[simp] theorem kept_setQueue (q : Nat) (x : Queue) : Kept s (setQueue q x t) ↔ Kept s t := kept_iff rfl rfl

@[simp] theorem kept_qmWrite (h : Kept s t) (a : Nat) (ws : List W16) : Kept s (qmWrite a ws t) := by
  unfold qmWrite
  split <;> simp [h]

@[simp] theorem kept_writeShadow (h : Kept s t) (q : Nat) : Kept s (writeShadow q t) := by simp [writeShadow, h]

@[simp] theorem kept_dropRecord (q : Nat) : Kept s (dropRecord q t) ↔ Kept s t := kept_iff rfl rfl

@[simp] theorem kept_putRecord (h : Kept s t) (q : Nat) (count : Bool) (rec : List W32) : Kept s (putRecord q count rec t) :=
    by simp [putRecord, h]

@[simp] theorem kept_enterFullHold (q : Nat) : Kept s (enterFullHold q t) ↔ Kept s t := by simp [enterFullHold]

@[simp] theorem kept_holdRecord (q : Nat) (rec : List W32) : Kept s (holdRecord q rec t) ↔ Kept s t := by
  unfold holdRecord
  simp +contextual

@[simp] theorem kept_postRecord (h : Kept s t) (q : Nat) (rec : List W32) : Kept s (postRecord q rec t) :=
    by simp [postRecord, h]

@[simp] theorem kept_flushOne (h : Kept s t) (q : Nat) (count : Bool) : Kept s (flushOne q count t) := by
  unfold flushOne
  dsimp only
  split <;> simp [h]

@[simp] theorem kept_clearFullHold (q : Nat) : Kept s (clearFullHold q t) ↔ Kept s t := by simp [clearFullHold]

@[simp] theorem kept_flushHeld (h : Kept s t) (q : Nat) : Kept s (flushHeld q t) := by
  unfold flushHeld
  simp +contextual [h]

@[simp] theorem kept_flushHost (h : Kept s t) : Kept s (flushHost t) := by
  unfold flushHost
  refine h.foldl (fun u e hu => ?_) _
  have h1 : Kept s (if (hostOffset e.2.base).isSome then flushHeld e.1 u else u) := by simp [hu]
  simp [h1]

@[simp] theorem kept_sendPending : Kept s (sendPending t) ↔ Kept s t := by simp [sendPending]

@[simp] theorem kept_hostReturns (h : Kept s t) : Kept s (hostReturns t) := by simp [hostReturns, h]

@[simp] theorem kept_qcmdRefuse (ag code : Nat) : Kept s (qcmdRefuse ag code t) ↔ Kept s t := by simp [qcmdRefuse]

@[simp] theorem kept_qmgCommit (ag : Nat) : Kept s (qmgCommit ag t) ↔ Kept s t := by
  unfold qmgCommit
  simp +contextual

@[simp] theorem kept_qmgDisable : Kept s (qmgDisable t) ↔ Kept s t := by simp [qmgDisable]

@[simp] theorem kept_qmgRead : Kept s (qmgRead t) ↔ Kept s t := kept_iff rfl rfl

@[simp] theorem kept_qmgAdvance (h : Kept s t) (ag : Nat) : Kept s (qmgAdvance ag t) := by simp [qmgAdvance, h]

@[simp] theorem kept_execQmgCommit (h : Kept s t) (ag : Nat) : KeptOut s (execQmgCommit ag t) := by simp [execQmgCommit, h]

@[simp] theorem kept_execQmgDisable (h : Kept s t) (ag : Nat) : KeptOut s (execQmgDisable ag t) :=
    by simp [execQmgDisable, h]

@[simp] theorem kept_execQmgRead (h : Kept s t) (ag : Nat) : KeptOut s (execQmgRead ag t) := by simp [execQmgRead, h]

@[simp] theorem kept_execQmgAdvance (h : Kept s t) (ag : Nat) : KeptOut s (execQmgAdvance ag t) :=
    by simp [execQmgAdvance, h]

@[simp] theorem kept_doorbellRefused (q : Nat) (v : W32) : Kept s (doorbellRefused q v t) ↔ Kept s t :=
    by simp [doorbellRefused]

@[simp] theorem kept_producerDoorbell (q : Nat) (v : W32) : Kept s (producerDoorbell q v t) ↔ Kept s t :=
    by simp [producerDoorbell]

@[simp] theorem kept_consumerDoorbell (h : Kept s t) (q : Nat) (v : W32) : Kept s (consumerDoorbell q v t) :=
    by simp [consumerDoorbell, h]

@[simp] theorem kept_doorbell (h : Kept s t) (q : Nat) (v : W32) : Kept s (doorbell q v t) := by simp [doorbell, h]

@[simp] theorem kept_execDoorbellWrite (h : Kept s t) (q : Nat) (v : W32) : KeptOut s (execDoorbellWrite q v t) :=
    by simp [execDoorbellWrite, h]

@[simp] theorem kept_signalHost (v : Nat) : Kept s (signalHost v t) ↔ Kept s t := by simp [signalHost]

@[simp] theorem kept_execModerationExpiry (h : Kept s t) (q : Nat) : KeptOut s (execModerationExpiry q t) :=
    by simp [execModerationExpiry, h]

@[simp] theorem kept_clearMask (v : Option Nat) : Kept s (clearMask v t) ↔ Kept s t := by
  unfold clearMask
  split <;> simp

@[simp] theorem kept_execMsixMaskClear (h : Kept s t) (v : Option Nat) : KeptOut s (execMsixMaskClear v t) := by
  unfold execMsixMaskClear
  split <;> simp [h]

@[simp] theorem kept_execMsixEnable (h : Kept s t) : KeptOut s (execMsixEnable t) := by simp [execMsixEnable, h]

@[simp] theorem kept_takeQmgDrop : Kept s (takeQmgDrop t).2 ↔ Kept s t := kept_iff rfl rfl

@[simp] theorem kept_execQmgDropRead (h : Kept s t) (ag : Nat) : KeptOut s (execQmgDropRead ag t) :=
    by simp [execQmgDropRead, h]

/-! ### Causeway links -/

@[simp] theorem kept_setLink (l : Nat) (x : Link) : Kept s (setLink l x t) ↔ Kept s t := kept_iff rfl rfl

@[simp] theorem kept_setAtl (a : Atlas) : Kept s (setAtl a t) ↔ Kept s t := kept_iff rfl rfl

@[simp] theorem kept_sendOne (l : Nat) : Kept s (sendOne l t) ↔ Kept s t := kept_iff (by simp) (by simp)

@[simp] theorem kept_pump (l : Nat) : Kept s (pump l t) ↔ Kept s t := kept_iff (by simp) (by simp)

@[simp] theorem kept_sendOn (l : Nat) (m : List Flit) : Kept s (sendOn l m t) ↔ Kept s t := kept_iff (by simp) (by simp)

@[simp] theorem kept_sendCtrl (l : Nat) : Kept s (sendCtrl l t) ↔ Kept s t := by simp [sendCtrl]

@[simp] theorem kept_startTraining (l : Nat) : Kept s (startTraining l t) ↔ Kept s t := by simp [startTraining]

@[simp] theorem kept_linkDown (l reason : Nat) : Kept s (linkDown l reason t) ↔ Kept s t := by simp [linkDown]

@[simp] theorem kept_linkRetrain (l reason : Nat) : Kept s (linkRetrain l reason t) ↔ Kept s t := by
  unfold linkRetrain
  simp +contextual

/-! ### Buses -/

@[simp] theorem kept_sendBus (b p : Nat) (e : BusEntry) : Kept s (sendBus b p e t) ↔ Kept s t := kept_iff (by simp) (by simp)

@[simp] theorem kept_afterLocalStore (r : Nat) (ws : List StoreWord) : Kept s (afterLocalStore r ws t) ↔ Kept s t :=
    kept_iff (by simp) (by simp)

@[simp] theorem kept_issueAtlasRead (route agent slot sheet addr : Nat) :
    Kept s (issueAtlasRead route agent slot sheet addr t) ↔ Kept s t :=
    by simp [issueAtlasRead]

@[simp] theorem kept_sendHostRead (from' : Originator) (w bytes : Nat) : Kept s (sendHostRead from' w bytes t) ↔ Kept s t :=
    by simp [sendHostRead]

@[simp] theorem kept_issueFarRead (r : Nat) (pls : List Place) : Kept s (issueFarRead r pls t) ↔ Kept s t := by
  unfold issueFarRead
  extract_lets hosts s1
  have h1 : Kept s s1 ↔ Kept s t := by
    simp only [s1]
    clear_value hosts
    cases hosts <;> simp
  rw [kept_foldl, h1]
  intro u la
  split <;> simp

@[simp] theorem kept_endFarRead (r : Nat) : Kept s (endFarRead r t) ↔ Kept s t := kept_iff rfl rfl

@[simp] theorem kept_lateFarRead (r : Nat) : Kept s (lateFarRead r t) ↔ Kept s t := kept_iff rfl rfl

@[simp] theorem kept_countLate (r : Nat) : Kept s (countLate r t) ↔ Kept s t := by simp [countLate]

/-! ### Audio ports -/

@[simp] theorem kept_setAsp (n : Nat) (a : Asp) : Kept s (setAsp n a t) ↔ Kept s t := kept_iff rfl rfl

@[simp] theorem kept_aspCtrl (ag n : Nat) (v : W32) : Kept s (aspCtrl ag n v t) ↔ Kept s t := by simp [aspCtrl]

@[simp] theorem kept_execAspEnable (h : Kept s t) (ag n : Nat) (v : W32) : KeptOut s (execAspEnable ag n v t) :=
    by simp [execAspEnable, h]

@[simp] theorem kept_execAspDisable (h : Kept s t) (ag n : Nat) (v : W32) : KeptOut s (execAspDisable ag n v t) :=
    by simp [execAspDisable, h]

@[simp] theorem kept_loadStaging (n k : Nat) : Kept s (loadStaging n k t) ↔ Kept s t := by
  unfold loadStaging
  dsimp only
  repeat' split
  all_goals simp

@[simp] theorem kept_execAspStagingLoad (h : Kept s t) (n k : Nat) : KeptOut s (execAspStagingLoad n k t) :=
    by simp [execAspStagingLoad, h]

@[simp] theorem kept_aspApplyMaps (h : Kept s t) (n : Nat) : Kept s (aspApplyMaps n t) := by simp [aspApplyMaps, h]

@[simp] theorem kept_aspFrame (h : Kept s t) (n tf n' : Nat) : Kept s (aspFrame n tf n' t) := by simp [aspFrame, h]

@[simp] theorem kept_masterFrame (h : Kept s t) (n n' : Nat) : Kept s (masterFrame n n' t) := by simp [masterFrame, h]

@[simp] theorem kept_execAspFrameStart (h : Kept s t) (n : Nat) : KeptOut s (execAspFrameStart n t) := by
  unfold execAspFrameStart
  dsimp only
  repeat' split
  all_goals simp [h]

@[simp] theorem kept_aspRealign (n : Nat) : Kept s (aspRealign n t) ↔ Kept s t := by simp [aspRealign]

@[simp] theorem kept_aspLock (n : Nat) : Kept s (aspLock n t) ↔ Kept s t := by simp [aspLock]

@[simp] theorem kept_aspSlaveFrame (h : Kept s t) (n : Nat) : Kept s (aspSlaveFrame n t) := by simp [aspSlaveFrame, h]

@[simp] theorem kept_execAspSlaveFrameStart (h : Kept s t) (n periods : Nat) :
    KeptOut s (execAspSlaveFrameStart n periods t) :=
    by simp [execAspSlaveFrameStart, h]

@[simp] theorem kept_ingressWrite (h : Kept s t) (e : W32) (sw v : Nat) : Kept s (ingressWrite e sw v t) := by
  unfold ingressWrite
  split <;> simp [h]

@[simp] theorem kept_execAspSlotIngress (h : Kept s t) (n k v : Nat) : KeptOut s (execAspSlotIngress n k v t) := by
  unfold execAspSlotIngress
  dsimp only
  repeat' split
  all_goals simp [h]

@[simp] theorem kept_execAspSlotEmit (h : Kept s t) (n k : Nat) : KeptOut s (execAspSlotEmit n k t) := by
  unfold execAspSlotEmit
  dsimp only
  repeat' split
  all_goals simp [h]

@[simp] theorem kept_execAspClockLoss (h : Kept s t) (n : Nat) : KeptOut s (execAspClockLoss n t) :=
    by simp [execAspClockLoss, h]

@[simp] theorem kept_execAspLossZeroWrite (h : Kept s t) (n k : Nat) : KeptOut s (execAspLossZeroWrite n k t) := by
  unfold execAspLossZeroWrite
  dsimp only
  repeat' split
  all_goals simp [h]

@[simp] theorem kept_aspEndTide (d n : Nat) : Kept s (aspEndTide d n t) ↔ Kept s t := by simp [aspEndTide]

@[simp] theorem kept_writeSlotmap (ag n k : Nat) (v : W32) : Kept s (writeSlotmap ag n k v t) ↔ Kept s t :=
    by simp [writeSlotmap]

@[simp] theorem kept_writeOslotmap (ag n k : Nat) (v : W32) : Kept s (writeOslotmap ag n k v t) ↔ Kept s t :=
    by simp [writeOslotmap]

@[simp] theorem kept_execSlotmapWrite (h : Kept s t) (ag n k : Nat) (v : W32) : KeptOut s (execSlotmapWrite ag n k v t) :=
    by simp [execSlotmapWrite, h]

@[simp] theorem kept_execOslotmapWrite (h : Kept s t) (ag n k : Nat) (v : W32) : KeptOut s (execOslotmapWrite ag n k v t) :=
    by simp [execOslotmapWrite, h]

@[simp] theorem kept_execAspLoopCtrlWrite (h : Kept s t) (ag n depth : Nat) :
    KeptOut s (execAspLoopCtrlWrite ag n depth t) :=
    by simp [execAspLoopCtrlWrite, h]

@[simp] theorem kept_takeAspCntA (n : Nat) : Kept s (takeAspCntA n t).2 ↔ Kept s t := kept_iff rfl rfl

@[simp] theorem kept_execAspCntARead (h : Kept s t) (ag n : Nat) : KeptOut s (execAspCntARead ag n t) :=
    by simp [execAspCntARead, h]

@[simp] theorem kept_takeAspCntB (n : Nat) : Kept s (takeAspCntB n t).2 ↔ Kept s t := kept_iff rfl rfl

@[simp] theorem kept_execAspCntBRead (h : Kept s t) (ag n : Nat) : KeptOut s (execAspCntBRead ag n t) :=
    by simp [execAspCntBRead, h]

end Sys2Proof.Machine
end

section
/-! SUPPORT. Queue and canonical form are kept by
what the reeds, the tides and the Sluice engines do: one rule for each operation,
in the model's order. -/

namespace Sys2Proof.Machine

variable {s t : State}

/-! ### Reeds -/

@[simp] theorem kept_escalate (r c : Nat) (e : Exc) (reason : Nat) (fpc npc : W16) :
    Kept s (escalate r c e reason fpc npc t) ↔ Kept s t :=
    by simp [escalate]

@[simp] theorem kept_enterHandler (h : Kept s t) (r c : Nat) (e : Exc) (epc fpc npc : W16) :
    Kept s (enterHandler r c e epc fpc npc t) :=
    by simp [enterHandler, h]

@[simp] theorem kept_takeExc (h : Kept s t) (r c : Nat) (e : Exc) (epc fpc npc : W16) :
    Kept s (takeExc r c e epc fpc npc t) :=
    by simp [takeExc, h]

@[simp] theorem kept_takeOverrun (r c : Nat) (cause : OvrCause) : Kept s (takeOverrun r c cause t) ↔ Kept s t := by
  unfold takeOverrun
  split <;> simp

@[simp] theorem kept_boundary (r c : Nat) : Kept s (boundary r c t) ↔ Kept s t := by
  unfold boundary
  dsimp only
  repeat' split
  all_goals simp

@[simp] theorem kept_noteExc (r : Nat) (e : Exc) : Kept s (noteExc r e t) ↔ Kept s t := by simp [noteExc]

@[simp] theorem kept_suppress (h : Kept s t) (r c : Nat) (e : Exc) (beats : Nat) : Kept s (suppress r c e beats t) :=
    by simp [suppress, h]

@[simp] theorem kept_finishTend (r c : Nat) : Kept s (finishTend r c t) ↔ Kept s t := kept_iff rfl rfl

@[simp] theorem kept_storeFailed (r addr : Nat) : Kept s (storeFailed r addr t) ↔ Kept s t := kept_iff rfl rfl

@[simp] theorem kept_postStore (r : Nat) (f : Far) : Kept s (postStore r f t) ↔ Kept s t := by
  unfold postStore
  split <;> simp

@[simp] theorem kept_completeBundle (h : Kept s t) (r c : Nat) (far : Option Nat) (charge : Nat) :
    Kept s (completeBundle r c far charge t) := by
  unfold completeBundle
  extract_lets x v k effs ctl ch trap fa k1 x0 tn pred extra stores ims pf x1 x2 x3 s0 s1 s2 s3
  have h0 : Kept s s0 := by
    simp only [s0]
    cases farOf effs with
    | none => simp [h]
    | some p => simp [h]
  have h3 : Kept s s3 :=
    Kept.foldl ((kept_afterLocalStore r stores).2 (kept_deviceWrite h0 _)) (fun u e hu => by simp [hu]) _
  clear_value s3 trap ctl
  split <;> simp [h3]

@[simp] theorem kept_tryIssue (h : Kept s t) (r : Nat) : Kept s (tryIssue r t) := by
  unfold tryIssue
  dsimp only
  repeat' split
  all_goals simp [h]

@[simp] theorem kept_resumeBundle (h : Kept s t) (r : Nat) (far : Option Nat) (charge : Nat) :
    Kept s (resumeBundle r far charge t) := by
  unfold resumeBundle
  dsimp only
  repeat' split
  all_goals simp [h]

@[simp] theorem kept_failFarRead (h : Kept s t) (r sub addr : Nat) : Kept s (failFarRead r sub addr t) := by
  unfold failFarRead
  dsimp only
  repeat' split
  all_goals simp [h]

@[simp] theorem kept_fetchSyl (h : Kept s t) (r : Nat) (w : W32) : Kept s (fetchSyl r w t) := by
  unfold fetchSyl
  dsimp only
  split <;> simp [h]

@[simp] theorem kept_sylStep (h : Kept s t) (op : Option SylOp) (r : Nat) (w : W32) : KeptOut s (sylStep op r w t) :=
    by simp [sylStep, h]

/-! ### Tides -/

@[simp] theorem kept_execContextStart (h : Kept s t) (r d : Nat) : KeptOut s (execContextStart r d t) := by
  unfold execContextStart
  dsimp only
  repeat' split
  all_goals simp [h]

@[simp] theorem kept_execContextResume (h : Kept s t) (r : Nat) : KeptOut s (execContextResume r t) := by
  unfold execContextResume
  dsimp only
  repeat' split
  all_goals simp [h]

@[simp] theorem kept_execOverrunBudget (h : Kept s t) (r : Nat) : KeptOut s (execOverrunBudget r t) := by
  unfold execOverrunBudget
  dsimp only
  repeat' split
  all_goals simp [h]

@[simp] theorem kept_deadlineHit (r c : Nat) : Kept s (deadlineHit r c t) ↔ Kept s t := by
  unfold deadlineHit
  simp +contextual

@[simp] theorem kept_execOverrunDeadline (h : Kept s t) (r c : Nat) : KeptOut s (execOverrunDeadline r c t) :=
    by simp [execOverrunDeadline, h]

@[simp] theorem kept_startOverrun (r d j : Nat) : Kept s (startOverrun r d j t) ↔ Kept s t := by
  unfold startOverrun
  simp +contextual

@[simp] theorem kept_execOverrunStart (h : Kept s t) (r d j : Nat) : KeptOut s (execOverrunStart r d j t) :=
    by simp [execOverrunStart, h]

@[simp] theorem kept_execEntryPassedOver (h : Kept s t) (r d j : Nat) : KeptOut s (execEntryPassedOver r d j t) :=
    by simp [execEntryPassedOver, h]

@[simp] theorem kept_swapBank (r d : Nat) : Kept s (swapBank r d t) ↔ Kept s t := by simp [swapBank]

@[simp] theorem kept_endTide (r d : Nat) : Kept s (endTide r d t) ↔ Kept s t := by
  unfold endTide
  simp

@[simp] theorem kept_newTide (r d : Nat) : Kept s (newTide r d t) ↔ Kept s t := by
  unfold newTide
  simp +contextual

@[simp] theorem kept_atRed {ag r o : Nat} {f : State → State} (h : Kept s t) (hf : Kept s (f t)) :
    Kept s (atRed ag r o f t) := by
  unfold atRed
  simp [h, hf]

@[simp] theorem kept_execTtDataHiWrite (h : Kept s t) (ag r : Nat) (v : W32) : KeptOut s (execTtDataHiWrite ag r v t) :=
    by simp [execTtDataHiWrite, h]

@[simp] theorem kept_requestSwap (r d : Nat) : Kept s (requestSwap r d t) ↔ Kept s t := kept_iff rfl rfl

@[simp] theorem kept_execSwapRequest (h : Kept s t) (ag r d : Nat) : KeptOut s (execSwapRequest ag r d t) :=
    by simp [execSwapRequest, h]

@[simp] theorem kept_setRun (r : Nat) (b : Bool) : Kept s (setRun r b t) ↔ Kept s t := kept_iff rfl rfl

@[simp] theorem kept_execRunSet (h : Kept s t) (ag r : Nat) : KeptOut s (execRunSet ag r t) := by simp [execRunSet, h]

@[simp] theorem kept_execRunClear (h : Kept s t) (ag r : Nat) : KeptOut s (execRunClear ag r t) := by simp [execRunClear, h]

@[simp] theorem kept_execWmclr (h : Kept s t) (ag r : Nat) : KeptOut s (execWmclr ag r t) := by simp [execWmclr, h]

@[simp] theorem kept_execCtxRestart (h : Kept s t) (ag r n : Nat) : KeptOut s (execCtxRestart ag r n t) :=
    by simp [execCtxRestart, h]

@[simp] theorem kept_execPaceWindow (h : Kept s t) (r pace : Nat) : KeptOut s (execPaceWindow r pace t) :=
    by simp [execPaceWindow, h]

/-! ### Sluice engines -/

@[simp] theorem kept_setEngine (b : Nat) (e : Engine) : Kept s (setEngine b e t) ↔ Kept s t := kept_iff rfl rfl

@[simp] theorem kept_setStream (b i : Nat) (x : Stream) : Kept s (setStream b i x t) ↔ Kept s t := kept_iff rfl rfl

@[simp] theorem kept_post (h : Kept s t) (b i : Nat) (c : Cpl) : Kept s (post b i c t) := by simp [post, h]

@[simp] theorem kept_postStream (h : Kept s t) (b i : Nat) (c : Cpl) : Kept s (postStream b i c t) := by simp [postStream, h]

@[simp] theorem kept_endJob (b n : Nat) : Kept s (endJob b n t) ↔ Kept s t := kept_iff rfl rfl

@[simp] theorem kept_writeLinear (h : Kept s t) (b : Nat) (x : Stream) (off : Nat) (vs : List ℤ) :
    KeptOpt s (writeLinear b x off vs t) := by
  unfold writeLinear
  split <;> simp [h]

@[simp] theorem kept_writeRing (h : Kept s t) (b : Nat) (x : Stream) (j : Nat) (vs : List Int) :
    KeptOpt s (writeRing b x j vs t) := by
  unfold writeRing
  dsimp only
  split
  · exact keptOpt_none s
  · rename_i u hu
    simp [kept_writeLinear h _ _ _ _ u hu]

@[simp] theorem kept_noteCause (b i cause y : Nat) : Kept s (noteCause b i cause y t) ↔ Kept s t := by simp [noteCause]

@[simp] theorem kept_faultRecord (b i cause index : Nat) : Kept s (faultRecord b i cause index t) ↔ Kept s t :=
    kept_iff rfl rfl

@[simp] theorem kept_streamFault (h : Kept s t) (b i cause addr y n : Nat) : Kept s (streamFault b i cause addr y n t) :=
    by simp [streamFault, h]

@[simp] theorem kept_streamToken (b : Nat) (x : Stream) : Kept s (streamToken b x t) ↔ Kept s t := by simp [streamToken]

@[simp] theorem kept_putSamples (h : Kept s t) (b i : Nat) (x : Stream) (y : Nat) (vs : List Int) :
    Kept s (putSamples b i x y vs t) := by
  unfold putSamples
  split
  · rename_i u hu
    simp [kept_writeRing h _ _ _ _ u hu]
  · simp [h]

@[simp] theorem kept_endCopy (h : Kept s t) (b i : Nat) (x : Stream) : Kept s (endCopy b i x t) := by simp [endCopy, h]

@[simp] theorem kept_sourceEnd (h : Kept s t) (b i : Nat) (x : Stream) : KeptOpt s (sourceEnd b i x t) :=
    by simp [sourceEnd, h]

@[simp] theorem kept_linearStep (h : Kept s t) (b i : Nat) : KeptOpt s (linearStep b i t) := by
  unfold linearStep
  dsimp only
  repeat' split
  all_goals simp [h]

@[simp] theorem kept_endGather (h : Kept s t) (b i : Nat) (x : Stream) : Kept s (endGather b i x t) := by
  unfold endGather
  split <;> simp [h]

@[simp] theorem kept_elementFault (h : Kept s t) (b i cause addr zeros edoff : Nat) :
    Kept s (elementFault b i cause addr zeros edoff t) := by
  unfold elementFault
  extract_lets x s1 s2 y tag
  have h1 : Kept s s1 := by simp [s1, h]
  have h2 : Kept s s2 := KeptOpt.getD (kept_writeLinear h1 b x edoff _) h1
  split
  · simp [h2]
  · simp [h1]

@[simp] theorem kept_gatherStep (h : Kept s t) (b i : Nat) : KeptOpt s (gatherStep b i t) := by
  have hw := fun x off vs => kept_writeLinear h b x off vs
  unfold gatherStep
  dsimp only
  repeat' split
  all_goals simp [h]
  exact hw _ _ _ _ ‹_›

@[simp] theorem kept_workOn {f : State → Option State} (h : Kept s t) (hf : ∀ u, Kept s u → KeptOpt s (f u)) (n : Nat) :
    Kept s (workOn f n t) := by
  induction n generalizing t with
  | zero => exact h
  | succ n ih =>
    unfold workOn
    split
    · exact ih (hf t h _ ‹_›)
    · exact h

@[simp] theorem kept_advance (h : Kept s t) (b i : Nat) : Kept s (advance b i t) := by
  unfold advance
  simp +contextual [h]

@[simp] theorem kept_stopStream (h : Kept s t) (b i tag seq op : Nat) : Kept s (stopStream b i tag seq op t) :=
    by simp [stopStream, h]

@[simp] theorem kept_resumeStream (h : Kept s t) (b i tag seq : Nat) : Kept s (resumeStream b i tag seq t) :=
    by simp [resumeStream, h]

@[simp] theorem kept_residency (h : Kept s t) (b i : Nat) (late : Bool) : Kept s (residency b i late t) :=
    by simp [residency, h]

@[simp] theorem kept_ringBoundary (h : Kept s t) (b i : Nat) : Kept s (ringBoundary b i t) := by
  unfold ringBoundary
  dsimp only
  split <;> simp [h]

@[simp] theorem kept_streamBoundary (h : Kept s t) (b i : Nat) : Kept s (streamBoundary b i t) := by
  unfold streamBoundary
  extract_lets x s1
  have h1 : Kept s s1 := by
    simp only [s1]
    split <;> simp [h]
  split <;> simp [h, h1]

@[simp] theorem kept_sluiceBoundary (h : Kept s t) (d : Nat) : Kept s (sluiceBoundary d t) := by
  unfold sluiceBoundary
  simp +contextual [h]

@[simp] theorem kept_sluiceDomainStop (h : Kept s t) (d : Nat) : Kept s (sluiceDomainStop d t) := by
  unfold sluiceDomainStop
  simp +contextual [h]

@[simp] theorem kept_execRingWindowResident (h : Kept s t) (b i : Nat) : KeptOut s (execRingWindowResident b i t) :=
    by simp [execRingWindowResident, h]

@[simp] theorem kept_sdCommit (ag b : Nat) (v : W32) : Kept s (sdCommit ag b v t) ↔ Kept s t := by simp [sdCommit]

@[simp] theorem kept_execSdCommit (h : Kept s t) (ag b : Nat) (v : W32) : KeptOut s (execSdCommit ag b v t) :=
    by simp [execSdCommit, h]

@[simp] theorem kept_takeCommand {b : Nat} {entry : List W32} {f : Nat → State → State} (h : Kept s t)
    (hf : ∀ n u, Kept s u → Kept s (f n u)) : Kept s (takeCommand b entry f t) := by
  unfold takeCommand
  simp [h, hf]

@[simp] theorem kept_cmdDone (h : Kept s t) (b : Nat) (entry : List W32) (status : Nat) :
    Kept s (cmdDone b entry status t) :=
    by simp [cmdDone, h]

@[simp] theorem kept_cmdDoneBare (h : Kept s t) (b : Nat) (entry : List W32) (status : Nat) :
    Kept s (cmdDoneBare b entry status t) :=
    by simp [cmdDoneBare, h]

@[simp] theorem kept_takeAs {op b : Nat} {entry : List W32} {f : Nat → State → State} (h : Kept s t)
    (hf : ∀ n u, Kept s u → Kept s (f n u)) : KeptOut s (takeAs op b entry f t) := by
  unfold takeAs
  simp [kept_takeCommand h hf]

@[simp] theorem kept_addJob (b n : Nat) : Kept s (addJob b n t) ↔ Kept s t := kept_iff rfl rfl

@[simp] theorem kept_startStream (h : Kept s t) (b : Nat) (entry : List W32) (seq : Nat) :
    Kept s (startStream b entry seq t) :=
    by simp [startStream, h]

@[simp] theorem kept_execStart (h : Kept s t) (b : Nat) (entry : List W32) : KeptOut s (execStart b entry t) := by
  unfold execStart
  simp +contextual [h]

@[simp] theorem kept_stopCommand (h : Kept s t) (b : Nat) (entry : List W32) (seq : Nat) :
    Kept s (stopCommand b entry seq t) :=
    by simp [stopCommand, h]

@[simp] theorem kept_execStop (h : Kept s t) (b : Nat) (entry : List W32) : KeptOut s (execStop b entry t) := by
  unfold execStop
  simp +contextual [h]

@[simp] theorem kept_resumeCommand (h : Kept s t) (b : Nat) (entry : List W32) (seq : Nat) :
    Kept s (resumeCommand b entry seq t) :=
    by simp [resumeCommand, h]

@[simp] theorem kept_execResume (h : Kept s t) (b : Nat) (entry : List W32) : KeptOut s (execResume b entry t) := by
  unfold execResume
  simp +contextual [h]

@[simp] theorem kept_setRate (h : Kept s t) (b : Nat) (entry : List W32) (_seq : Nat) : Kept s (setRate b entry _seq t) :=
    by simp [setRate, h]

@[simp] theorem kept_execSetrate (h : Kept s t) (b : Nat) (entry : List W32) : KeptOut s (execSetrate b entry t) := by
  unfold execSetrate
  simp +contextual [h]

@[simp] theorem kept_keyLoad (h : Kept s t) (b : Nat) (entry : List W32) (_seq : Nat) : Kept s (keyLoad b entry _seq t) := by
  unfold keyLoad
  split <;> simp [h]

@[simp] theorem kept_execKeyload (h : Kept s t) (b : Nat) (entry : List W32) : KeptOut s (execKeyload b entry t) := by
  unfold execKeyload
  simp +contextual [h]

@[simp] theorem kept_gatherCommand (h : Kept s t) (b : Nat) (entry : List W32) (seq : Nat) :
    Kept s (gatherCommand b entry seq t) :=
    by simp [gatherCommand, h]

@[simp] theorem kept_execGather (h : Kept s t) (b : Nat) (entry : List W32) : KeptOut s (execGather b entry t) := by
  unfold execGather
  simp +contextual [h]

@[simp] theorem kept_fenceCommand (b : Nat) (entry : List W32) (seq : Nat) :
    Kept s (fenceCommand b entry seq t) ↔ Kept s t :=
    kept_iff rfl rfl

@[simp] theorem kept_execFence (h : Kept s t) (b : Nat) (entry : List W32) : KeptOut s (execFence b entry t) :=
    by simp [execFence, h]

@[simp] theorem kept_completeFence (h : Kept s t) (b : Nat) : Kept s (completeFence b t) := by
  unfold completeFence
  dsimp only
  split <;> simp [h]

@[simp] theorem kept_execFenceComplete (h : Kept s t) (b : Nat) : KeptOut s (execFenceComplete b t) :=
    by simp [execFenceComplete, h]

@[simp] theorem kept_execBadcmd (h : Kept s t) (b : Nat) (entry : List W32) : KeptOut s (execBadcmd b entry t) := by
  unfold execBadcmd
  simp +contextual [h]

@[simp] theorem kept_deliverLine (h : Kept s t) (b i line : Nat) (d : LineData) : Kept s (deliverLine b i line d t) :=
    by simp [deliverLine, h]

@[simp] theorem kept_sendRequest (b rq line : Nat) (kind : SourceKind) :
    Kept s (sendRequest b rq line kind t) ↔ Kept s t := by
  unfold sendRequest
  repeat' split
  all_goals simp

@[simp] theorem kept_issueRequest (h : Kept s t) (b i rq line : Nat) : Kept s (issueRequest b i rq line t) := by
  unfold issueRequest
  split <;> simp [h]

@[simp] theorem kept_execSluiceRequestIssue (h : Kept s t) (b i rq line : Nat) :
    KeptOut s (execSluiceRequestIssue b i rq line t) :=
    by simp [execSluiceRequestIssue, h]

@[simp] theorem kept_freeSlot (b rq : Nat) : Kept s (freeSlot b rq t) ↔ Kept s t := kept_iff rfl rfl

@[simp] theorem kept_deviceLine (line : Nat) : Kept s (deviceLine line t).2 ↔ Kept s t := by
  unfold deviceLine
  dsimp only
  split <;> simp

@[simp] theorem kept_requestData (h : Kept s t) (b rq : Nat) (data : List Byte) (ok : Bool) :
    Kept s (requestData b rq data ok t) := by
  unfold requestData
  dsimp only
  repeat' split
  all_goals simp [h]

@[simp] theorem kept_execSluiceRequestData (h : Kept s t) (b rq : Nat) (data : List Byte) (ok : Bool) :
    KeptOut s (execSluiceRequestData b rq data ok t) :=
    by simp [execSluiceRequestData, h]

@[simp] theorem kept_requestTimeout (h : Kept s t) (b rq : Nat) : Kept s (requestTimeout b rq t) := by
  unfold requestTimeout
  dsimp only
  split <;> simp [h]

@[simp] theorem kept_execSluiceRequestTimeout (h : Kept s t) (b rq : Nat) : KeptOut s (execSluiceRequestTimeout b rq t) :=
    by simp [execSluiceRequestTimeout, h]

@[simp] theorem kept_lateArrival (h : Kept s t) (b k cause : Nat) : Kept s (lateArrival b k cause t) := by
  unfold lateArrival
  dsimp only
  split <;> simp [h]

@[simp] theorem kept_execSluiceLateArrival (h : Kept s t) (b k : Nat) : KeptOut s (execSluiceLateArrival b k t) :=
    by simp [execSluiceLateArrival, h]

@[simp] theorem kept_endEngineRequest (h : Kept s t) (b rq : Nat) (late : Bool) : Kept s (endEngineRequest b rq late t) := by
  unfold endEngineRequest
  dsimp only
  repeat' split
  all_goals simp [h]

@[simp] theorem kept_execSlcLoadWindow (h : Kept s t) (b load : Nat) : KeptOut s (execSlcLoadWindow b load t) :=
    by simp [execSlcLoadWindow, h]

@[simp] theorem kept_takeSlcCntA (b : Nat) : Kept s (takeSlcCntA b t).2 ↔ Kept s t := kept_iff rfl rfl

@[simp] theorem kept_execSlcCntARead (h : Kept s t) (ag b : Nat) : KeptOut s (execSlcCntARead ag b t) :=
    by simp [execSlcCntARead, h]

@[simp] theorem kept_takeSlcCntB (b : Nat) : Kept s (takeSlcCntB b t).2 ↔ Kept s t := kept_iff rfl rfl

@[simp] theorem kept_execSlcCntBRead (h : Kept s t) (ag b : Nat) : KeptOut s (execSlcCntBRead ag b t) :=
    by simp [execSlcCntBRead, h]

@[simp] theorem kept_takeSlcLoad (b : Nat) : Kept s (takeSlcLoad b t).2 ↔ Kept s t := kept_iff rfl rfl

@[simp] theorem kept_execSlcLoadRead (h : Kept s t) (ag b : Nat) : KeptOut s (execSlcLoadRead ag b t) :=
    by simp [execSlcLoadRead, h]

end Sys2Proof.Machine
end

section
/-! SUPPORT. Queue and canonical form are kept by
what the atlas, the Field Book, the host interface, the sensor ports and the timers do: one rule for each operation,
in the model's order. -/

namespace Sys2Proof.Machine

variable {s t : State}

/-! ### The atlas -/

@[simp] theorem kept_joinAtlas : Kept s (joinAtlas t) ↔ Kept s t := by
  unfold joinAtlas
  split <;> simp

@[simp] theorem kept_leaveAtlas : Kept s (leaveAtlas t) ↔ Kept s t := by
  unfold leaveAtlas
  split <;> simp

@[simp] theorem kept_execAtlasJoin (h : Kept s t) (ag : Nat) : KeptOut s (execAtlasJoin ag t) := by simp [execAtlasJoin, h]

@[simp] theorem kept_execAtlasLeave (h : Kept s t) (ag : Nat) : KeptOut s (execAtlasLeave ag t) :=
    by simp [execAtlasLeave, h]

@[simp] theorem kept_enableLink (l : Nat) : Kept s (enableLink l t) ↔ Kept s t := by
  unfold enableLink
  simp +contextual

@[simp] theorem kept_disableLink (l : Nat) : Kept s (disableLink l t) ↔ Kept s t := by
  unfold disableLink
  simp +contextual

@[simp] theorem kept_retrainLink (l : Nat) : Kept s (retrainLink l t) ↔ Kept s t := by
  unfold retrainLink
  simp

@[simp] theorem kept_execCwlEnable (h : Kept s t) (ag l : Nat) : KeptOut s (execCwlEnable ag l t) :=
    by simp [execCwlEnable, h]

@[simp] theorem kept_execCwlDisable (h : Kept s t) (ag l : Nat) : KeptOut s (execCwlDisable ag l t) :=
    by simp [execCwlDisable, h]

@[simp] theorem kept_execCwlRetrain (h : Kept s t) (ag l : Nat) : KeptOut s (execCwlRetrain ag l t) :=
    by simp [execCwlRetrain, h]

@[simp] theorem kept_linkTrained (l : Nat) (peerCfg : W32) (psheet plink : Nat) :
    Kept s (linkTrained l peerCfg psheet plink t) ↔ Kept s t :=
    by simp [linkTrained]

@[simp] theorem kept_execCwlTrained (h : Kept s t) (l : Nat) (peerCfg : W32) (psheet plink : Nat) :
    KeptOut s (execCwlTrained l peerCfg psheet plink t) :=
    by simp [execCwlTrained, h]

@[simp] theorem kept_execMiswiredRetry (h : Kept s t) (l : Nat) : KeptOut s (execMiswiredRetry l t) :=
    by simp [execMiswiredRetry, h]

@[simp] theorem kept_acceptFlits (l n : Nat) : Kept s (acceptFlits l n t) ↔ Kept s t := kept_iff rfl rfl

@[simp] theorem kept_acknowledge (l : Nat) : Kept s (acknowledge l t) ↔ Kept s t := by
  unfold acknowledge
  simp +contextual

@[simp] theorem kept_onFlit {ty l n : Nat} {header : W32} {f : State → State} (h : Kept s t)
    (hf : ∀ u, Kept s u → Kept s (f u)) : KeptOut s (onFlit ty l header n f t) := by
  unfold onFlit
  simp [h, hf]

@[simp] theorem kept_takeCtrl (l : Nat) (header : W32) (body : List Byte) : Kept s (takeCtrl l header body t) ↔ Kept s t :=
    by simp [takeCtrl]

@[simp] theorem kept_execCtrlFlit (h : Kept s t) (l : Nat) (header : W32) (body : List Byte) :
    KeptOut s (execCtrlFlit l header body t) :=
    by simp [execCtrlFlit, h]

@[simp] theorem kept_replay (l : Nat) (again : List SentFlit) : Kept s (replay l again t) ↔ Kept s t := by
  unfold replay
  split <;> simp

@[simp] theorem kept_takeNak (l seq : Nat) : Kept s (takeNak l seq t) ↔ Kept s t := by simp [takeNak]

@[simp] theorem kept_execNakFlit (h : Kept s t) (l : Nat) (header : W32) (body : List Byte) :
    KeptOut s (execNakFlit l header body t) :=
    by simp [execNakFlit, h]

@[simp] theorem kept_badFlit (l : Nat) (reserved : Bool) : Kept s (badFlit l reserved t) ↔ Kept s t := by
  unfold badFlit
  split <;> simp

@[simp] theorem kept_execCwlBadFlit (h : Kept s t) (l : Nat) (reserved : Bool) : KeptOut s (execCwlBadFlit l reserved t) :=
    by simp [execCwlBadFlit, h]

@[simp] theorem kept_execReplayTimeout (h : Kept s t) (l : Nat) : KeptOut s (execReplayTimeout l t) :=
    by simp [execReplayTimeout, h]

@[simp] theorem kept_substituteLane (l lane i : Nat) (sudden : Bool) :
    Kept s (substituteLane l lane i sudden t) ↔ Kept s t :=
    by simp [substituteLane]

@[simp] theorem kept_execLaneMarginLow (h : Kept s t) (l lane : Nat) : KeptOut s (execLaneMarginLow l lane t) := by
  unfold execLaneMarginLow
  dsimp only
  repeat' split
  all_goals simp [h]

@[simp] theorem kept_degradeLink (l lane : Nat) : Kept s (degradeLink l lane t) ↔ Kept s t := by simp [degradeLink]

@[simp] theorem kept_loseLane (l lane : Nat) : Kept s (loseLane l lane t) ↔ Kept s t := by
  unfold loseLane
  dsimp only
  repeat' split
  all_goals simp

@[simp] theorem kept_execLaneLoss (h : Kept s t) (l lane : Nat) : KeptOut s (execLaneLoss l lane t) :=
    by simp [execLaneLoss, h]

@[simp] theorem kept_forwardMsg (n : Nat) (m : List Flit) : Kept s (forwardMsg n m t) ↔ Kept s t := by
  unfold forwardMsg
  split <;> simp

@[simp] theorem kept_answerRead (sheet tag : Nat) (line : List Byte) (status : Nat) :
    Kept s (answerRead sheet tag line status t) ↔ Kept s t := by
  unfold answerRead
  simp +contextual

@[simp] theorem kept_serveLine (h : Kept s t) (sheet tag a : Nat) : Kept s (serveLine sheet tag a t) := by
  unfold serveLine
  dsimp only
  split <;> simp [h]

@[simp] theorem kept_serveRead (h : Kept s t) (sheet tag addr : Nat) : Kept s (serveRead sheet tag addr t) := by
  unfold serveRead
  dsimp only
  repeat' split
  all_goals simp [h]

@[simp] theorem kept_serveWaiting (h : Kept s t) (line : Nat) : Kept s (serveWaiting line t) := by
  unfold serveWaiting
  simp +contextual [h]

@[simp] theorem kept_creditMem (l n : Nat) : Kept s (creditMem l n t) ↔ Kept s t := kept_iff rfl rfl

@[simp] theorem kept_creditMgmt (l n : Nat) : Kept s (creditMgmt l n t) ↔ Kept s t := kept_iff rfl rfl

@[simp] theorem kept_takeMemRd (h : Kept s t) (l : Nat) (header : W32) (body : List Byte) :
    Kept s (takeMemRd l header body t) := by
  unfold takeMemRd
  dsimp only
  repeat' split
  all_goals simp [h]

@[simp] theorem kept_execMemrdFlit (h : Kept s t) (l : Nat) (header : W32) (body : List Byte) :
    KeptOut s (execMemrdFlit l header body t) := by
  unfold execMemrdFlit
  simp +contextual [h]

@[simp] theorem kept_reedLine (h : Kept s t) (q : AtlasRead) (status : Nat) (line : List Byte) :
    Kept s (reedLine q status line t) := by
  unfold reedLine
  dsimp only
  repeat' split
  all_goals simp [h]

@[simp] theorem kept_engineLine (h : Kept s t) (q : AtlasRead) (status : Nat) (line : List Byte) :
    Kept s (engineLine q status line t) := by
  unfold engineLine
  dsimp only
  repeat' split
  all_goals simp [h]

@[simp] theorem kept_takeMemRsp (h : Kept s t) (l : Nat) (header : W32) (body body2 : List Byte) :
    Kept s (takeMemRsp l header body body2 t) := by
  unfold takeMemRsp
  dsimp only
  repeat' split
  all_goals simp [h]

@[simp] theorem kept_execMemrspFlit (h : Kept s t) (l : Nat) (header : W32) (body body2 : List Byte) :
    KeptOut s (execMemrspFlit l header body body2 t) := by
  unfold execMemrspFlit
  simp +contextual [h]

@[simp] theorem kept_takeMemWr (h : Kept s t) (l : Nat) (header : W32) (body body2 : List Byte) :
    Kept s (takeMemWr l header body body2 t) := by
  unfold takeMemWr
  split <;> simp [h]

@[simp] theorem kept_execMemwrFlit (h : Kept s t) (l : Nat) (header : W32) (body body2 : List Byte) :
    KeptOut s (execMemwrFlit l header body body2 t) := by
  unfold execMemwrFlit
  simp +contextual [h]

@[simp] theorem kept_takeMgmt (l : Nat) (header : W32) (body body2 : List Byte) :
    Kept s (takeMgmt l header body body2 t) ↔ Kept s t := by
  unfold takeMgmt
  simp +contextual

@[simp] theorem kept_execMgmtFlit (h : Kept s t) (l : Nat) (header : W32) (body body2 : List Byte) :
    KeptOut s (execMgmtFlit l header body body2 t) :=
    by simp [execMgmtFlit, h]

@[simp] theorem kept_setBusRx (b : Nat) (x : BusRx) : Kept s (setBusRx b x t) ↔ Kept s t := kept_iff rfl rfl

@[simp] theorem kept_writeChannels (h : Kept s t) (e : BusEntry) (vs : List (Nat × W32)) :
    Kept s (writeChannels e vs t) := by
  unfold writeChannels
  split <;> simp [h]

@[simp] theorem kept_lateAudio (b tag : Nat) : Kept s (lateAudio b tag t) ↔ Kept s t := by simp [lateAudio]

@[simp] theorem kept_acceptAudio (h : Kept s t) (b tag fidx : Nat) (e : BusEntry) (body : List Byte) :
    Kept s (acceptAudio b tag fidx e body t) :=
    by simp [acceptAudio, h]

@[simp] theorem kept_takeAudio (h : Kept s t) (header : W32) (body : List Byte) : Kept s (takeAudio header body t) :=
    by simp [takeAudio, h]

@[simp] theorem kept_execAudioFlit (h : Kept s t) (l : Nat) (header : W32) (body : List Byte) :
    KeptOut s (execAudioFlit l header body t) := by
  unfold execAudioFlit
  simp +contextual [h]

@[simp] theorem kept_busCommit (ag : Nat) (v : W32) : Kept s (busCommit ag v t) ↔ Kept s t := by simp [busCommit]

@[simp] theorem kept_execBusCommit (h : Kept s t) (ag : Nat) (v : W32) : KeptOut s (execBusCommit ag v t) :=
    by simp [execBusCommit, h]

@[simp] theorem kept_applyBusCommits (d : Nat) : Kept s (applyBusCommits d t) ↔ Kept s t := by
  unfold applyBusCommits
  refine kept_foldl (fun u b => ?_) _
  split <;> simp

@[simp] theorem kept_substituteBus (h : Kept s t) (b : Nat) (e : BusEntry) : Kept s (substituteBus b e t) :=
    by simp [substituteBus, h]

@[simp] theorem kept_busSubstitution (h : Kept s t) (d : Nat) : Kept s (busSubstitution d t) := by
  unfold busSubstitution
  simp +contextual [h]

@[simp] theorem kept_execHbSend (h : Kept s t) : KeptOut s (execHbSend t) := by simp [execHbSend, h]

@[simp] theorem kept_chooseTm (sender tm epoch : Nat) : Kept s (chooseTm sender tm epoch t) ↔ Kept s t := by simp [chooseTm]

@[simp] theorem kept_steer (sent delay recv sender : Nat) : Kept s (steer sent delay recv sender t) ↔ Kept s t :=
    by simp [steer]

@[simp] theorem kept_takeHb (l : Nat) (body : List Byte) (recvFrac : Nat) :
    Kept s (takeHb l body recvFrac t) ↔ Kept s t := by
  unfold takeHb
  simp +contextual

@[simp] theorem kept_execHbFlit (h : Kept s t) (l : Nat) (header : W32) (body : List Byte) (frac : Nat) :
    KeptOut s (execHbFlit l header body frac t) :=
    by simp [execHbFlit, h]

@[simp] theorem kept_takePartition (cut : List Nat) : Kept s (takePartition cut t) ↔ Kept s t := by simp [takePartition]

@[simp] theorem kept_execPartition (h : Kept s t) (cut : List Nat) : KeptOut s (execPartition cut t) :=
    by simp [execPartition, h]

@[simp] theorem kept_execSuccessorUnreachable (h : Kept s t) (k : Nat) : KeptOut s (execSuccessorUnreachable k t) := by
  unfold execSuccessorUnreachable
  split <;> simp [h]

@[simp] theorem kept_execPromotion (h : Kept s t) : KeptOut s (execPromotion t) := by
  unfold execPromotion
  split <;> simp [h]

@[simp] theorem kept_rejoin (tm err : Nat) : Kept s (rejoin tm err t) ↔ Kept s t := by simp [rejoin]

@[simp] theorem kept_execRejoin (h : Kept s t) (ag tm err : Nat) : KeptOut s (execRejoin ag tm err t) :=
    by simp [execRejoin, h]

@[simp] theorem kept_execRejoinComplete (h : Kept s t) : KeptOut s (execRejoinComplete t) := by simp [execRejoinComplete, h]

@[simp] theorem kept_startCwlLoop (ag l : Nat) (v : W32) : Kept s (startCwlLoop ag l v t) ↔ Kept s t := by
  unfold startCwlLoop
  simp +contextual

@[simp] theorem kept_execCwlLoopbackStart (h : Kept s t) (ag l : Nat) (v : W32) :
    KeptOut s (execCwlLoopbackStart ag l v t) :=
    by simp [execCwlLoopbackStart, h]

@[simp] theorem kept_execCwlLoopbackEnd (h : Kept s t) (l errs : Nat) (formed : Bool) :
    KeptOut s (execCwlLoopbackEnd l errs formed t) :=
    by simp [execCwlLoopbackEnd, h]

@[simp] theorem kept_takeLoop (l : Nat) (header : W32) (body : List Byte) (same : Bool) :
    Kept s (takeLoop l header body same t) ↔ Kept s t :=
    by simp [takeLoop]

@[simp] theorem kept_execLoopFlit (h : Kept s t) (l : Nat) (header : W32) (body : List Byte) (same : Bool) :
    KeptOut s (execLoopFlit l header body same t) :=
    by simp [execLoopFlit, h]

@[simp] theorem kept_takeCwlCntCrc (l : Nat) : Kept s (takeCwlCntCrc l t).2 ↔ Kept s t := kept_iff rfl rfl

@[simp] theorem kept_execCwlCntCrcRead (h : Kept s t) (ag l : Nat) : KeptOut s (execCwlCntCrcRead ag l t) :=
    by simp [execCwlCntCrcRead, h]

@[simp] theorem kept_takeCwlCntReplay (l : Nat) : Kept s (takeCwlCntReplay l t).2 ↔ Kept s t := kept_iff rfl rfl

@[simp] theorem kept_execCwlCntReplayRead (h : Kept s t) (ag l : Nat) : KeptOut s (execCwlCntReplayRead ag l t) :=
    by simp [execCwlCntReplayRead, h]

@[simp] theorem kept_takeAtlCnt : Kept s (takeAtlCnt t).2 ↔ Kept s t := kept_iff rfl rfl

@[simp] theorem kept_execAtlCntRead (h : Kept s t) (ag : Nat) : KeptOut s (execAtlCntRead ag t) :=
    by simp [execAtlCntRead, h]

/-! ### The Field Book -/

@[simp] theorem kept_setFbk (f : Fbk) : Kept s (setFbk f t) ↔ Kept s t := kept_iff rfl rfl

@[simp] theorem kept_fbWrite (code count : Nat) (pay : W64) : Kept s (fbWrite code count pay t) ↔ Kept s t :=
    kept_iff rfl rfl

@[simp] theorem kept_fbMirLost (n : Nat) : Kept s (fbMirLost n t) ↔ Kept s t := by simp [fbMirLost]

@[simp] theorem kept_fbUpdate (r : FbRecord) (pay : W64) : Kept s (fbUpdate r pay t) ↔ Kept s t := by
  unfold fbUpdate
  simp +contextual

@[simp] theorem kept_fbCommit (q : FbRequest) : Kept s (fbCommit q t) ↔ Kept s t := by
  unfold fbCommit
  repeat' split
  all_goals simp

@[simp] theorem kept_fbDead : Kept s (fbDead t) ↔ Kept s t := by simp [fbDead]

@[simp] theorem kept_fbMainFails (n : Nat) : Kept s (fbMainFails n t) ↔ Kept s t := by
  unfold fbMainFails
  split <;> simp

@[simp] theorem kept_fbBackupFails (n : Nat) : Kept s (fbBackupFails n t) ↔ Kept s t := by
  unfold fbBackupFails
  split <;> simp

@[simp] theorem kept_fbFails (seq : Nat) : Kept s (fbFails seq t) ↔ Kept s t := by
  unfold fbFails
  simp +contextual

@[simp] theorem kept_execFbCommit (h : Kept s t) (ue : Bool) : KeptOut s (execFbCommit ue t) := by
  unfold execFbCommit
  split <;> simp [h]

@[simp] theorem kept_fbFlush (code : Nat) (b : Bucket) : Kept s (fbFlush code b t) ↔ Kept s t := kept_iff rfl rfl

@[simp] theorem kept_execFbRefill (h : Kept s t) (code : Nat) : KeptOut s (execFbRefill code t) := by simp [execFbRefill, h]

@[simp] theorem kept_writeRlCfg (v : W32) : Kept s (writeRlCfg v t) ↔ Kept s t := kept_iff rfl rfl

@[simp] theorem kept_fbLatch (ue : Bool) : Kept s (fbLatch ue t) ↔ Kept s t := by
  unfold fbLatch
  split <;> simp

@[simp] theorem kept_takeFbLatch (ue : Bool) : Kept s (takeFbLatch ue t).2 ↔ Kept s t := by simp [takeFbLatch]

@[simp] theorem kept_execFbLatch (h : Kept s t) (ag : Nat) (ue : Bool) : KeptOut s (execFbLatch ag ue t) :=
    by simp [execFbLatch, h]

@[simp] theorem kept_takeFbkLost : Kept s (takeFbkLost t).2 ↔ Kept s t := kept_iff rfl rfl

@[simp] theorem kept_execFbkLostRead (h : Kept s t) (ag : Nat) : KeptOut s (execFbkLostRead ag t) :=
    by simp [execFbkLostRead, h]

@[simp] theorem kept_writeWall (hi : W32) : Kept s (writeWall hi t) ↔ Kept s t := kept_iff rfl rfl

@[simp] theorem kept_execWallSet (h : Kept s t) (ag : Nat) (hi : W32) : KeptOut s (execWallSet ag hi t) :=
    by simp [execWallSet, h]

@[simp] theorem kept_execFbScrub (h : Kept s t) (main backup : Option Nat) : KeptOut s (execFbScrub main backup t) := by
  unfold execFbScrub
  dsimp only
  repeat' split
  all_goals simp [h]

@[simp] theorem kept_fbRepair (ag : Nat) : Kept s (fbRepair ag t) ↔ Kept s t := by simp [fbRepair]

@[simp] theorem kept_execFbRepair (h : Kept s t) (ag : Nat) : KeptOut s (execFbRepair ag t) := by simp [execFbRepair, h]

@[simp] theorem kept_execFbRepairComplete (h : Kept s t) (mac row : Nat) : KeptOut s (execFbRepairComplete mac row t) :=
    by simp [execFbRepairComplete, h]

@[simp] theorem kept_execMirenSet (h : Kept s t) (ag : Nat) : KeptOut s (execMirenSet ag t) := by simp [execMirenSet, h]

@[simp] theorem kept_mirrorOvertaken : Kept s (mirrorOvertaken t) ↔ Kept s t := by
  unfold mirrorOvertaken
  simp +contextual

@[simp] theorem kept_execFbMirrorCopy (h : Kept s t) : KeptOut s (execFbMirrorCopy t) := by
  unfold execFbMirrorCopy
  dsimp only
  repeat' split
  all_goals simp [h]

/-! ### The host interface -/

@[simp] theorem kept_dropReq (q : HostRequest) : Kept s (dropReq q t) ↔ Kept s t := kept_iff rfl rfl

@[simp] theorem kept_endRequest (h : Kept s t) (q : HostRequest) : Kept s (endRequest q t) := by
  unfold endRequest
  split <;> simp [h]

@[simp] theorem kept_endRequests (h : Kept s t) (p : HostRequest → Bool) : Kept s (endRequests p t) := by
  unfold endRequests
  simp +contextual [h]

@[simp] theorem kept_reachChange (h : Kept s t) (was : Bool) : Kept s (reachChange was t) := by simp [reachChange, h]

@[simp] theorem kept_hostChange (h : Kept s t) (f : Cxl → Cxl) : Kept s (hostChange f t) := by simp [hostChange, h]

@[simp] theorem kept_noteTrained : Kept s (noteTrained t) ↔ Kept s t := kept_iff rfl rfl

@[simp] theorem kept_linkTrainedHost (h : Kept s t) (width rate : Nat) (alt : Bool) :
    Kept s (linkTrainedHost width rate alt t) :=
    by simp [linkTrainedHost, h]

@[simp] theorem kept_execLinkTrained (h : Kept s t) (width rate : Nat) (alt : Bool) :
    KeptOut s (execLinkTrained width rate alt t) :=
    by simp [execLinkTrained, h]

@[simp] theorem kept_execL0pWidthChange (h : Kept s t) (width : Nat) : KeptOut s (execL0pWidthChange width t) :=
    by simp [execL0pWidthChange, h]

@[simp] theorem kept_execL1Entry (h : Kept s t) : KeptOut s (execL1Entry t) := by simp [execL1Entry, h]

@[simp] theorem kept_execL2Entry (h : Kept s t) : KeptOut s (execL2Entry t) := by simp [execL2Entry, h]

@[simp] theorem kept_setDState (h : Kept s t) (d : DState) : Kept s (setDState d t) := by simp [setDState, h]

@[simp] theorem kept_execDStateChange (h : Kept s t) (d : Nat) : KeptOut s (execDStateChange d t) :=
    by simp [execDStateChange, h]

@[simp] theorem kept_emptyFilter (h : Kept s t) : Kept s (emptyFilter t) := by
  unfold emptyFilter
  extract_lets put hbm s1 atl
  have h1 : Kept s s1 := ⟨h.queue, memKept_foldl h.memKept (fun m (w : SnoopWrite) hw =>
    foldl_preserves (fun m => Memory.wf m = true) put (fun _ b => memSet_wf b.1 b.2) w.bytes m hw) _⟩
  exact ((kept_setAtl _).2 h1).foldl (fun u w hu => by simp [hu]) _

@[simp] theorem kept_noteLinkDown (reason : Nat) : Kept s (noteLinkDown reason t) ↔ Kept s t := kept_iff rfl rfl

@[simp] theorem kept_hostReset (h : Kept s t) (reason : Nat) (link : LinkState) : Kept s (hostReset reason link t) :=
    by simp [hostReset, h]

@[simp] theorem kept_execPerstAssert (h : Kept s t) : KeptOut s (execPerstAssert t) := by simp [execPerstAssert, h]

@[simp] theorem kept_execPerstDeassert (h : Kept s t) : KeptOut s (execPerstDeassert t) := by simp [execPerstDeassert, h]

@[simp] theorem kept_execHotReset (h : Kept s t) : KeptOut s (execHotReset t) := by simp [execHotReset, h]

@[simp] theorem kept_execLinkDown (h : Kept s t) : KeptOut s (execLinkDown t) := by simp [execLinkDown, h]

@[simp] theorem kept_execFlr (h : Kept s t) : KeptOut s (execFlr t) := by
  have h1 : Kept s (endRequests (fun q => q.uio) (noteLinkDown 4 t)) := by simp [h]
  unfold execFlr
  simp [h1]

@[simp] theorem kept_execCxlReset (h : Kept s t) : KeptOut s (execCxlReset t) := by
  have h1 : Kept s (endRequests (fun q => !q.uio) (noteLinkDown 5 t)) := by simp [h]
  unfold execCxlReset
  simp [h1]

@[simp] theorem kept_execHdmCommit (h : Kept s t) (k : Nat) (base : W64) (size skip ways : Nat) :
    KeptOut s (execHdmCommit k base size skip ways t) :=
    by simp [execHdmCommit, h]

@[simp] theorem kept_wakeStacks : Kept s (wakeStacks t) ↔ Kept s t := by simp [wakeStacks]

@[simp] theorem kept_recordLine (line : Nat) : Kept s (recordLine line t) ↔ Kept s t := by
  unfold recordLine
  dsimp only
  repeat' split
  all_goals simp

@[simp] theorem kept_forgetLine (line : Nat) : Kept s (forgetLine line t) ↔ Kept s t := kept_iff rfl rfl

@[simp] theorem kept_hostLine (h : Kept s t) (line : Nat) : Kept s (hostLine line t) := by simp [hostLine, h]

@[simp] theorem kept_execCxlMemRead (h : Kept s t) (dpa : Nat) (keep : Bool) : KeptOut s (execCxlMemRead dpa keep t) :=
    by simp [execCxlMemRead, h]

@[simp] theorem kept_poisonWords (ws : List PlacedWord) : Kept s (poisonWords ws t) ↔ Kept s t := by
  unfold poisonWords
  refine kept_foldl (fun u p => ?_) _
  split <;> simp

@[simp] theorem kept_execCxlMemWrite (h : Kept s t) (dpa : Nat) (data : List Byte) (mask : W64) (poison keep : Bool) :
    KeptOut s (execCxlMemWrite dpa data mask poison keep t) :=
    by simp [execCxlMemWrite, h]

@[simp] theorem kept_execUioAccess (h : Kept s t) (write : Bool) (dpa : Nat) (data : List Byte) (mask : W64) :
    KeptOut s (execUioAccess write dpa data mask t) :=
    by simp [execUioAccess, h]

@[simp] theorem kept_execHostSnoop (h : Kept s t) (hpa : Nat) : KeptOut s (execHostSnoop hpa t) := by simp [execHostSnoop, h]

@[simp] theorem kept_completeRequest (h : Kept s t) (q : HostRequest) (data : List Byte) (ok : Bool) :
    Kept s (completeRequest q data ok t) := by
  unfold completeRequest
  dsimp only
  repeat' split
  all_goals simp [h]

@[simp] theorem kept_execHostReadCompletion (h : Kept s t) (k : Nat) (data : List Byte) (ok : Bool) :
    KeptOut s (execHostReadCompletion k data ok t) := by
  unfold execHostReadCompletion
  split <;> simp [h]

@[simp] theorem kept_execHostRequestTimeout (h : Kept s t) (k : Nat) : KeptOut s (execHostRequestTimeout k t) := by
  unfold execHostRequestTimeout
  split <;> simp [h]

@[simp] theorem kept_execDoeRequest (h : Kept s t) (inst : Nat) (type : W32) : KeptOut s (execDoeRequest inst type t) :=
    by simp [execDoeRequest, h]

@[simp] theorem kept_execDoeAbort (h : Kept s t) (inst : Nat) : KeptOut s (execDoeAbort inst t) := by simp [execDoeAbort, h]

@[simp] theorem kept_execIdeKmKey (h : Kept s t) (n : Nat) : KeptOut s (execIdeKmKey n t) := by simp [execIdeKmKey, h]

@[simp] theorem kept_execIdeIntegrityFail (h : Kept s t) (n : Nat) : KeptOut s (execIdeIntegrityFail n t) :=
    by simp [execIdeIntegrityFail, h]

@[simp] theorem kept_startHostLoop (h : Kept s t) (ag : Nat) (v : W32) : Kept s (startHostLoop ag v t) :=
    by simp [startHostLoop, h]

@[simp] theorem kept_execCxlLoopbackStart (h : Kept s t) (ag : Nat) (v : W32) : KeptOut s (execCxlLoopbackStart ag v t) :=
    by simp [execCxlLoopbackStart, h]

@[simp] theorem kept_execCxlLoopbackEnd (h : Kept s t) (errs : Nat) (formed : Bool) :
    KeptOut s (execCxlLoopbackEnd errs formed t) :=
    by simp [execCxlLoopbackEnd, h]

@[simp] theorem kept_execLoopbackFollower (h : Kept s t) : KeptOut s (execLoopbackFollower t) :=
    by simp [execLoopbackFollower, h]

/-! ### Sensor ports -/

@[simp] theorem kept_setSsp (n : Nat) (p : Ssp) : Kept s (setSsp n p t) ↔ Kept s t := kept_iff rfl rfl

@[simp] theorem kept_sspEnable (ag n : Nat) : Kept s (sspEnable ag n t) ↔ Kept s t := by simp [sspEnable]

@[simp] theorem kept_execSspEnable (h : Kept s t) (ag n : Nat) : KeptOut s (execSspEnable ag n t) :=
    by simp [execSspEnable, h]

@[simp] theorem kept_execSspDisable (h : Kept s t) (ag n : Nat) : KeptOut s (execSspDisable ag n t) :=
    by simp [execSspDisable, h]

@[simp] theorem kept_sampleRecord (h : Kept s t) (n i : Nat) (value : W16) (tick : Nat) :
    Kept s (sampleRecord n i value tick t) := by
  unfold sampleRecord
  dsimp only
  repeat' split
  all_goals simp [h]

@[simp] theorem kept_writeSmap (ag n i : Nat) (v : W32) : Kept s (writeSmap ag n i v t) ↔ Kept s t := by simp [writeSmap]

@[simp] theorem kept_execSmapWrite (h : Kept s t) (ag n i : Nat) (v : W32) : KeptOut s (execSmapWrite ag n i v t) :=
    by simp [execSmapWrite, h]

@[simp] theorem kept_execSspMatrixStep (h : Kept s t) (n : Nat) : KeptOut s (execSspMatrixStep n t) :=
    by simp [execSspMatrixStep, h]

@[simp] theorem kept_execSspMatrixSample (h : Kept s t) (n : Nat) (vals : List Nat) :
    KeptOut s (execSspMatrixSample n vals t) := by
  unfold execSspMatrixSample
  dsimp only
  repeat' split
  all_goals simp [h]

@[simp] theorem kept_execSspConversionComplete (h : Kept s t) (n : Nat) :
    KeptOut s (execSspConversionComplete n t) := by
  have hs := fun x : Ssp => (kept_setSsp n x).2 h
  unfold execSspConversionComplete
  split
  · simp
  · extract_lets p
    split
    · simp only [keptOut_ite, keptOut_next, h]
      split
      · exact (hs _).foldl (fun u c hu => by simp [hu]) _
      · trivial
    · simpa using h

@[simp] theorem kept_execSspAdcPass (h : Kept s t) (n : Nat) : KeptOut s (execSspAdcPass n t) := by simp [execSspAdcPass, h]

@[simp] theorem kept_execSspAdcWord (h : Kept s t) (n v : Nat) : KeptOut s (execSspAdcWord n v t) :=
    by simp [execSspAdcWord, h]

@[simp] theorem kept_midiReceive (h : Kept s t) (n : Nat) (b : Byte) (stop : Bool) (tick : Nat) :
    Kept s (midiReceive n b stop tick t) :=
    by simp [midiReceive, h]

@[simp] theorem kept_execMidiRxFrame (h : Kept s t) (n : Nat) (b : Byte) (stop : Bool) (tick : Nat) :
    KeptOut s (execMidiRxFrame n b stop tick t) := by
  unfold execMidiRxFrame
  dsimp only
  repeat' split
  all_goals simp [h]

@[simp] theorem kept_midiStart (n : Nat) : Kept s (midiStart n t) ↔ Kept s t := by
  unfold midiStart
  dsimp only
  split <;> simp

@[simp] theorem kept_writeMidiTx (h : Kept s t) (n : Nat) (b : Byte) : Kept s (writeMidiTx n b t) := by simp [writeMidiTx, h]

@[simp] theorem kept_execMidiTx (h : Kept s t) (ag n : Nat) (b : Byte) : KeptOut s (execMidiTx ag n b t) :=
    by simp [execMidiTx, h]

@[simp] theorem kept_execMidiTxFrameSent (h : Kept s t) (n : Nat) : KeptOut s (execMidiTxFrameSent n t) := by
  unfold execMidiTxFrameSent
  dsimp only
  repeat' split
  all_goals simp [h]

@[simp] theorem kept_sspFlag (d n : Nat) : Kept s (sspFlag d n t) ↔ Kept s t := by simp [sspFlag]

@[simp] theorem kept_writeSspLoop (ag n depth : Nat) : Kept s (writeSspLoop ag n depth t) ↔ Kept s t :=
    by simp [writeSspLoop]

@[simp] theorem kept_execSspLoopCtrlWrite (h : Kept s t) (ag n depth : Nat) :
    KeptOut s (execSspLoopCtrlWrite ag n depth t) :=
    by simp [execSspLoopCtrlWrite, h]

@[simp] theorem kept_takeSspCnt (n : Nat) : Kept s (takeSspCnt n t).2 ↔ Kept s t := kept_iff rfl rfl

@[simp] theorem kept_execSspCntRead (h : Kept s t) (ag n : Nat) : KeptOut s (execSspCntRead ag n t) :=
    by simp [execSspCntRead, h]

/-! ### Timers -/

@[simp] theorem kept_setChan (c : Nat) (x : TcuChan) : Kept s (setChan c x t) ↔ Kept s t := kept_iff rfl rfl

@[simp] theorem kept_setCap (j : Nat) (x : CapInput) : Kept s (setCap j x t) ↔ Kept s t := kept_iff rfl rfl

@[simp] theorem kept_tcuFlag (c bit : Nat) : Kept s (tcuFlag c bit t) ↔ Kept s t := by simp [tcuFlag]

@[simp] theorem kept_tcuCapture (c : Nat) (v : W32) : Kept s (tcuCapture c v t) ↔ Kept s t := by
  unfold tcuCapture
  simp +contextual

@[simp] theorem kept_countAt (c : Nat) (v : W32) (n : Nat) (stepped touched : Bool) :
    Kept s (countAt c v n stepped touched t) ↔ Kept s t :=
    by simp [countAt]

@[simp] theorem kept_tcuTick (c n : Nat) : Kept s (tcuTick c n t) ↔ Kept s t := by
  unfold tcuTick
  simp

@[simp] theorem kept_execTcuStep (h : Kept s t) (c : Nat) : KeptOut s (execTcuStep c t) := by
  unfold execTcuStep
  repeat' split
  all_goals simp +contextual [h]

@[simp] theorem kept_execTcuMatch (h : Kept s t) (c : Nat) : KeptOut s (execTcuMatch c t) := by
  unfold execTcuMatch
  dsimp only
  repeat' split
  all_goals simp [h]

@[simp] theorem kept_execTcuOvf (h : Kept s t) (c : Nat) : KeptOut s (execTcuOvf c t) := by
  unfold execTcuOvf
  dsimp only
  repeat' split
  all_goals simp [h]

@[simp] theorem kept_tcuPost (c n : Nat) (i : TcuItem) : Kept s (tcuPost c n i t) ↔ Kept s t := kept_iff rfl rfl

@[simp] theorem kept_tcuPostRun (c n : Nat) (i : TcuItem) : Kept s (tcuPostRun c n i t) ↔ Kept s t := by simp [tcuPostRun]

@[simp] theorem kept_selfAction (c n code : Nat) : Kept s (selfAction c n code t) ↔ Kept s t := by
  unfold selfAction
  split <;> simp

@[simp] theorem kept_targetAction (c n code : Nat) : Kept s (targetAction c n code t) ↔ Kept s t := by
  unfold targetAction
  split <;> simp

@[simp] theorem kept_execTcuAction (h : Kept s t) (c : Nat) : KeptOut s (execTcuAction c t) := by
  unfold execTcuAction
  dsimp only
  repeat' split
  all_goals simp [h]

@[simp] theorem kept_execTcuPairCarry (h : Kept s t) (c : Nat) : KeptOut s (execTcuPairCarry c t) := by
  unfold execTcuPairCarry
  dsimp only
  repeat' split
  all_goals simp [h]

@[simp] theorem kept_tcuCommand {ag c o : Nat} {f : Nat → State → State} (h : Kept s t)
    (hf : Kept s (f (now t + 1) t)) : Kept s (tcuCommand ag c o f t) := by
  unfold tcuCommand
  simp [h, hf]

@[simp] theorem kept_execTcuStart (h : Kept s t) (ag c : Nat) : KeptOut s (execTcuStart ag c t) := by simp [execTcuStart, h]

@[simp] theorem kept_execTcuStop (h : Kept s t) (ag c : Nat) : KeptOut s (execTcuStop ag c t) := by simp [execTcuStop, h]

@[simp] theorem kept_execTcuReset (h : Kept s t) (ag c : Nat) : KeptOut s (execTcuReset ag c t) := by simp [execTcuReset, h]

@[simp] theorem kept_execTcuCntWrite (h : Kept s t) (ag c : Nat) (v : W32) : KeptOut s (execTcuCntWrite ag c v t) :=
    by simp [execTcuCntWrite, h]

@[simp] theorem kept_execTcuCmpWrite (h : Kept s t) (ag c : Nat) (v : W32) : KeptOut s (execTcuCmpWrite ag c v t) :=
    by simp [execTcuCmpWrite, h]

@[simp] theorem kept_writeTcuCfg (ag c : Nat) (v : W32) : Kept s (writeTcuCfg ag c v t) ↔ Kept s t := by simp [writeTcuCfg]

@[simp] theorem kept_writeCapsel (ag j : Nat) (v : W32) (level : Bool) : Kept s (writeCapsel ag j v level t) ↔ Kept s t :=
    by simp [writeCapsel]

@[simp] theorem kept_execCapselWrite (h : Kept s t) (ag j : Nat) (v : W32) (level : Bool) :
    KeptOut s (execCapselWrite ag j v level t) :=
    by simp [execCapselWrite, h]

@[simp] theorem kept_capReach (j c : Nat) : Kept s (capReach j t c) ↔ Kept s t := by
  unfold capReach
  simp

@[simp] theorem kept_capEvent (j : Nat) : Kept s (capEvent j t) ↔ Kept s t := by simp [capEvent]

@[simp] theorem kept_execCaptureEvent (h : Kept s t) (j : Nat) : KeptOut s (execCaptureEvent j t) :=
    by simp [execCaptureEvent, h]

@[simp] theorem kept_tcuWake : Kept s (tcuWake t) ↔ Kept s t := kept_iff rfl rfl

end Sys2Proof.Machine
end

section
/-! SUPPORT. Queue and canonical form are kept by
what the device states, the events, start-up, sparing, the monitors and the beds do: one rule for each operation,
in the model's order. -/

namespace Sys2Proof.Machine

variable {s t : State}

/-! ### Device states -/

@[simp] theorem kept_mapReeds (f : Reed → Reed) : Kept s (mapReeds f t) ↔ Kept s t := kept_iff rfl rfl

@[simp] theorem kept_mapEngines (f : Engine → Engine) : Kept s (mapEngines f t) ↔ Kept s t := kept_iff rfl rfl

@[simp] theorem kept_mapAsp (f : Asp → Asp) : Kept s (mapAsp f t) ↔ Kept s t := kept_iff rfl rfl

@[simp] theorem kept_mapSsp (f : Ssp → Ssp) : Kept s (mapSsp f t) ↔ Kept s t := kept_iff rfl rfl

@[simp] theorem kept_orphanReads : Kept s (orphanReads t) ↔ Kept s t := kept_iff rfl rfl

@[simp] theorem kept_clearReedMem (h : Kept s t) : Kept s (clearReedMem t) := by simp [clearReedMem, h]

@[simp] theorem kept_resetCompute : Kept s (resetCompute t) ↔ Kept s t := kept_iff rfl rfl

@[simp] theorem kept_zeroise : Kept s (zeroise t) ↔ Kept s t := kept_iff rfl rfl

@[simp] theorem kept_emptyStacks : Kept s (emptyStacks t) ↔ Kept s t := by simp [emptyStacks]

@[simp] theorem kept_enterStartup : Kept s (enterStartup t) ↔ Kept s t := by
  unfold enterStartup
  simp +contextual

@[simp] theorem kept_enterRecovery (reason : Nat) : Kept s (enterRecovery reason t) ↔ Kept s t := kept_iff rfl rfl

@[simp] theorem kept_enterTussock (reason : Nat) : Kept s (enterTussock reason t) ↔ Kept s t := kept_iff rfl rfl

@[simp] theorem kept_enterDormant (h : Kept s t) : Kept s (enterDormant t) := by simp [enterDormant, h]

@[simp] theorem kept_leaveDormant (h : Kept s t) : Kept s (leaveDormant t) := by simp [leaveDormant, h]

@[simp] theorem kept_entryEffects (h : Kept s t) (was x : DevState) (reason : Nat) :
    Kept s (entryEffects was x reason t) := by
  unfold entryEffects
  split <;> simp [h]

@[simp] theorem kept_beginTransition (x : DevState) (reason : Nat) : Kept s (beginTransition x reason t) ↔ Kept s t :=
    kept_iff rfl rfl

@[simp] theorem kept_takeTrigger (tr : Trigger) : Kept s (takeTrigger tr t) ↔ Kept s t := by
  unfold takeTrigger
  split <;> simp

@[simp] theorem kept_trigger (tr : Trigger) : Kept s (trigger tr t) ↔ Kept s t := by
  unfold trigger
  simp +contextual

@[simp] theorem kept_stateReq (h : Kept s t) (ag key : Nat) (x : DevState) : KeptOut s (stateReq ag key x t) :=
    by simp [stateReq, h]

@[simp] theorem kept_execStateReqStartup (h : Kept s t) (ag key : Nat) : KeptOut s (execStateReqStartup ag key t) :=
    by simp [execStateReqStartup, h]

@[simp] theorem kept_execStateReqTest (h : Kept s t) (ag key : Nat) : KeptOut s (execStateReqTest ag key t) :=
    by simp [execStateReqTest, h]

@[simp] theorem kept_execStateReqService (h : Kept s t) (ag key : Nat) : KeptOut s (execStateReqService ag key t) :=
    by simp [execStateReqService, h]

@[simp] theorem kept_execStateReqRecovery (h : Kept s t) (ag key : Nat) : KeptOut s (execStateReqRecovery ag key t) :=
    by simp [execStateReqRecovery, h]

@[simp] theorem kept_execStateReqTussock (h : Kept s t) (ag key : Nat) : KeptOut s (execStateReqTussock ag key t) :=
    by simp [execStateReqTussock, h]

@[simp] theorem kept_execStateReqDormant (h : Kept s t) (ag key : Nat) : KeptOut s (execStateReqDormant ag key t) :=
    by simp [execStateReqDormant, h]

@[simp] theorem kept_arrive (was x : DevState) : Kept s (arrive was x t) ↔ Kept s t := by
  unfold arrive
  split <;> simp

@[simp] theorem kept_reachState (h : Kept s t) (x : DevState) : Kept s (reachState x t) := by simp [reachState, h]

@[simp] theorem kept_execStateTransitionComplete (h : Kept s t) : KeptOut s (execStateTransitionComplete t) := by
  unfold execStateTransitionComplete
  split <;> simp [h]

@[simp] theorem kept_execMeshRouterFail (h : Kept s t) : KeptOut s (execMeshRouterFail t) := by simp [execMeshRouterFail, h]

@[simp] theorem kept_execSurveyorMemoryUe (h : Kept s t) (held : Bool) : KeptOut s (execSurveyorMemoryUe held t) :=
    by simp [execSurveyorMemoryUe, h]

@[simp] theorem kept_execRecActiveClear (h : Kept s t) : KeptOut s (execRecActiveClear t) := by simp [execRecActiveClear, h]

@[simp] theorem kept_powerGood (h : Kept s t) (sheet : Nat) : Kept s (powerGood sheet t) := by
  unfold powerGood
  simp [h, State.reset]

@[simp] theorem kept_execPowerGood (h : Kept s t) (sheet : Nat) (testen : Bool) : KeptOut s (execPowerGood sheet testen t) :=
    by simp [execPowerGood, h]

@[simp] theorem kept_execSysPwrgdFall (h : Kept s t) : KeptOut s (execSysPwrgdFall t) := by
  unfold execSysPwrgdFall
  simp [h, State.reset]

@[simp] theorem kept_execVddAonLoss (h : Kept s t) : KeptOut s (execVddAonLoss t) := by simp [execVddAonLoss, h]

@[simp] theorem kept_takeGlbErrCnt : Kept s (takeGlbErrCnt t).2 ↔ Kept s t := kept_iff rfl rfl

@[simp] theorem kept_execGlbErrCntRead (h : Kept s t) (ag : Nat) : KeptOut s (execGlbErrCntRead ag t) :=
    by simp [execGlbErrCntRead, h]

/-! ### The Event Router -/

@[simp] theorem kept_setSrc (n : Nat) (x : Source) : Kept s (setSrc n x t) ↔ Kept s t := kept_iff rfl rfl

@[simp] theorem kept_writeSrcCfg (v : W32) : Kept s (writeSrcCfg v t) ↔ Kept s t := by simp [writeSrcCfg]

@[simp] theorem kept_execSrcCfgWrite (h : Kept s t) (ag : Nat) (v : W32) : KeptOut s (execSrcCfgWrite ag v t) :=
    by simp [execSrcCfgWrite, h]

@[simp] theorem kept_swTrig (ag : Nat) (v : W32) : Kept s (swTrig ag v t) ↔ Kept s t := by simp [swTrig]

@[simp] theorem kept_execSwtrig (h : Kept s t) (ag : Nat) (v : W32) : KeptOut s (execSwtrig ag v t) :=
    by simp [execSwtrig, h]

@[simp] theorem kept_commitEvent (h : Kept s t) (n : Nat) (x : Source) : Kept s (commitEvent n x t) :=
    by simp [commitEvent, h]

@[simp] theorem kept_execEventCommit (h : Kept s t) : KeptOut s (execEventCommit t) := by
  unfold execEventCommit
  repeat' split
  all_goals simp +contextual [h]

@[simp] theorem kept_setSv (n : Nat) (x : SvEvents) : Kept s (setSv n x t) ↔ Kept s t := kept_iff rfl rfl

@[simp] theorem kept_claim (n : Nat) : Kept s (claim n t).2 ↔ Kept s t := by
  unfold claim
  split <;> simp

@[simp] theorem kept_execSvClaim (h : Kept s t) (ag n : Nat) : KeptOut s (execSvClaim ag n t) := by simp [execSvClaim, h]

@[simp] theorem kept_endService (n prio : Nat) : Kept s (endService n prio t) ↔ Kept s t := by simp [endService]

@[simp] theorem kept_forceService (n : Nat) : Kept s (forceService n t) ↔ Kept s t := kept_iff rfl rfl

@[simp] theorem kept_execEoi (h : Kept s t) (ag n prio : Nat) : KeptOut s (execEoi ag n prio t) := by simp [execEoi, h]

@[simp] theorem kept_execEoiForce (h : Kept s t) (ag n : Nat) : KeptOut s (execEoiForce ag n t) := by simp [execEoiForce, h]

/-! ### Start-up and trust -/

@[simp] theorem kept_setSec (x : Sec) : Kept s (setSec x t) ↔ Kept s t := kept_iff rfl rfl

@[simp] theorem kept_startFail (reason : Nat) : Kept s (startFail reason t) ↔ Kept s t := by
  unfold startFail
  simp

@[simp] theorem kept_rejectImage (stage src code : Nat) (bs : List Byte) :
    Kept s (rejectImage stage src code bs t) ↔ Kept s t :=
    kept_iff rfl rfl

@[simp] theorem kept_acceptStage (h : Kept s t) (stage src : Nat) (bs : List Byte) : Kept s (acceptStage stage src bs t) :=
    by simp [acceptStage, h]

@[simp] theorem kept_awaitPush (stage : Nat) : Kept s (awaitPush stage t) ↔ Kept s t := by simp [awaitPush]

@[simp] theorem kept_copiesDone (stage : Nat) (present : Bool) : Kept s (copiesDone stage present t) ↔ Kept s t :=
    by simp [copiesDone]

@[simp] theorem kept_tryCopy (h : Kept s t) (stage : Nat) (image : Option (List Byte)) : Kept s (tryCopy stage image t) := by
  unfold tryCopy
  dsimp only
  repeat' split
  all_goals simp [h]

@[simp] theorem kept_returnPage (n : Nat) : Kept s (returnPage n t) ↔ Kept s t := by
  unfold returnPage
  split <;> simp

@[simp] theorem kept_startStep6 (h : Kept s t) (mask : Nat) (hbmOk mapOk : Bool) (pages : List Nat) :
    Kept s (startStep6 mask hbmOk mapOk pages t) :=
    by simp [startStep6, h]

@[simp] theorem kept_fixMeas4 : Kept s (fixMeas4 t) ↔ Kept s t := kept_iff rfl rfl

@[simp] theorem kept_startStep8 (h : Kept s t) : Kept s (startStep8 t) := by simp [startStep8, h]

@[simp] theorem kept_startEarly (step arg : Nat) : Kept s (startEarly step arg t) ↔ Kept s t := by
  unfold startEarly
  split <;> simp

@[simp] theorem kept_startStep (h : Kept s t) (step : Nat) (args : List Nat) (image : Option (List Byte)) :
    Kept s (startStep step args image t) := by
  unfold startStep
  split <;> simp [h]

@[simp] theorem kept_execStartSequence (h : Kept s t) (step : Nat) (args : List Nat) (image : Option (List Byte)) :
    KeptOut s (execStartSequence step args image t) :=
    by simp [execStartSequence, h]

@[simp] theorem kept_execStartupWatchdog (h : Kept s t) : KeptOut s (execStartupWatchdog t) :=
    by simp [execStartupWatchdog, h]

@[simp] theorem kept_pushError (ag o : Nat) : Kept s (pushError ag o t) ↔ Kept s t := by simp [pushError]

@[simp] theorem kept_pushGo (ag : Nat) (v : W32) : Kept s (pushGo ag v t) ↔ Kept s t := by
  unfold pushGo
  split <;> simp

@[simp] theorem kept_execPushGo (h : Kept s t) (ag : Nat) (v : W32) : KeptOut s (execPushGo ag v t) :=
    by simp [execPushGo, h]

@[simp] theorem kept_pushData (ag : Nat) (v : W32) : Kept s (pushData ag v t) ↔ Kept s t := by
  unfold pushData
  simp +contextual

@[simp] theorem kept_execPushData (h : Kept s t) (ag : Nat) (v : W32) : KeptOut s (execPushData ag v t) :=
    by simp [execPushData, h]

@[simp] theorem kept_pushEnds (err : Bool) : Kept s (pushEnds err t) ↔ Kept s t := by simp [pushEnds]

@[simp] theorem kept_applyTrust (signer : Nat) (body : List Byte) : Kept s (applyTrust signer body t) ↔ Kept s t := by
  unfold applyTrust
  split <;> simp

@[simp] theorem kept_takeTrust (bs : List Byte) : Kept s (takeTrust bs t) ↔ Kept s t := by
  unfold takeTrust
  simp +contextual

@[simp] theorem kept_takePushed (h : Kept s t) (stage : Nat) (bs : List Byte) : Kept s (takePushed stage bs t) :=
    by simp [takePushed, h]

@[simp] theorem kept_execPushVerifyComplete (h : Kept s t) : KeptOut s (execPushVerifyComplete t) :=
    by simp [execPushVerifyComplete, h]

@[simp] theorem kept_bootAck (ag : Nat) : Kept s (bootAck ag t) ↔ Kept s t := by simp [bootAck]

@[simp] theorem kept_execBootAck (h : Kept s t) (ag : Nat) : KeptOut s (execBootAck ag t) := by simp [execBootAck, h]

@[simp] theorem kept_svnCommit (ag : Nat) : Kept s (svnCommit ag t) ↔ Kept s t := by simp [svnCommit]

@[simp] theorem kept_execSvncommit (h : Kept s t) (ag : Nat) : KeptOut s (execSvncommit ag t) := by simp [execSvncommit, h]

@[simp] theorem kept_execZeroize (h : Kept s t) (ag : Nat) : KeptOut s (execZeroize ag t) := by simp [execZeroize, h]

@[simp] theorem kept_spdmAnswer (type v : W32) : Kept s (spdmAnswer type v t) ↔ Kept s t := kept_iff rfl rfl

@[simp] theorem kept_execSpdmRequest (h : Kept s t) (code : Nat) : KeptOut s (execSpdmRequest code t) :=
    by simp [execSpdmRequest, h]

@[simp] theorem kept_execLkekInstall (h : Kept s t) (key : BitVec 256) (gen : W32) : KeptOut s (execLkekInstall key gen t) :=
    by simp [execLkekInstall, h]

@[simp] theorem kept_mailboxEntry (h : Kept s t) (q service op : Nat) (tag : W32) (status : Nat) (body : List Byte) :
    Kept s (mailboxEntry q service op tag status body t) :=
    by simp [mailboxEntry, h]

@[simp] theorem kept_execMailboxInfo (h : Kept s t) (q op : Nat) (tag : W32) : KeptOut s (execMailboxInfo q op tag t) :=
    by simp [execMailboxInfo, h]

@[simp] theorem kept_execMailboxUnknownService (h : Kept s t) (q service op : Nat) (tag : W32) :
    KeptOut s (execMailboxUnknownService q service op tag t) :=
    by simp [execMailboxUnknownService, h]

@[simp] theorem kept_putImage (h : Kept s t) (i : Image) (r c : Nat) : Kept s (putImage i r c t) := by simp [putImage, h]

@[simp] theorem kept_extendE (l c : Nat) (bytes : List Byte) : Kept s (extendE l c bytes t) ↔ Kept s t := kept_iff rfl rfl

@[simp] theorem kept_execMailboxLoadImage (h : Kept s t) (q op : Nat) (tag : W32) (l c : Nat) (cfg : W32)
    (entry : W16) (parcels : List W128) (imOff : Nat) (im : List W32) (bytes : List Byte) :
    KeptOut s (execMailboxLoadImage q op tag l c cfg entry parcels imOff im bytes t) := by
  unfold execMailboxLoadImage
  dsimp only
  repeat' split
  all_goals simp [h]

@[simp] theorem kept_execBoundaryScan (h : Kept s t) (op addr : Nat) : KeptOut s (execBoundaryScan op addr t) := by
  unfold execBoundaryScan
  dsimp only
  repeat' split
  all_goals simp [h]

/-! ### Sparing and test -/

@[simp] theorem kept_setSpr (x : Spr) : Kept s (setSpr x t) ↔ Kept s t := kept_iff rfl rfl

@[simp] theorem kept_retirePhysical (p : Nat) : Kept s (retirePhysical p t) ↔ Kept s t := by simp [retirePhysical]

@[simp] theorem kept_haltReed (r : Nat) : Kept s (haltReed r t) ↔ Kept s t := kept_iff rfl rfl

@[simp] theorem kept_refuseRetirement (q : Retirement) : Kept s (refuseRetirement q t) ↔ Kept s t := by
  unfold refuseRetirement
  dsimp only
  split <;> simp

@[simp] theorem kept_abandon (h : Kept s t) : Kept s (abandon t) := by simp [abandon, h]

@[simp] theorem kept_condemn (h : Kept s t) (r : Nat) (urgent : Bool) : Kept s (condemn r urgent t) := by
  unfold condemn
  split <;> simp [h]

@[simp] theorem kept_execPceilEstimate (h : Kept s t) (r pceil : Nat) : KeptOut s (execPceilEstimate r pceil t) :=
    by simp [execPceilEstimate, h]

@[simp] theorem kept_execReedEccWindow (h : Kept s t) (r ce : Nat) : KeptOut s (execReedEccWindow r ce t) :=
    by simp [execReedEccWindow, h]

@[simp] theorem kept_beginCopy (q : Retirement) (worn spare : Nat) : Kept s (beginCopy q worn spare t) ↔ Kept s t :=
    kept_iff rfl rfl

@[simp] theorem kept_takeRetirement (h : Kept s t) (q : Retirement) (worn : Nat) : Kept s (takeRetirement q worn t) := by
  unfold takeRetirement
  split <;> simp [h]

@[simp] theorem kept_execMigrationStart (h : Kept s t) : KeptOut s (execMigrationStart t) := by
  unfold execMigrationStart
  dsimp only
  repeat' split
  all_goals simp [h]

@[simp] theorem kept_copyReed (h : Kept s t) (worn spare : Nat) : Kept s (copyReed worn spare t) := by simp [copyReed, h]

@[simp] theorem kept_execMigrationCopyComplete (h : Kept s t) : KeptOut s (execMigrationCopyComplete t) :=
    by simp [execMigrationCopyComplete, h]

@[simp] theorem kept_rebindReed (l p : Nat) : Kept s (rebindReed l p t) ↔ Kept s t := kept_iff rfl rfl

@[simp] theorem kept_takeover (h : Kept s t) : Kept s (takeover t) := by simp [takeover, h]

@[simp] theorem kept_migrationBoundary (h : Kept s t) (d : Nat) (ready : Bool) : Kept s (migrationBoundary d ready t) :=
    by simp [migrationBoundary, h]

@[simp] theorem kept_execMigrationAbandon (h : Kept s t) : KeptOut s (execMigrationAbandon t) :=
    by simp [execMigrationAbandon, h]

@[simp] theorem kept_execMigrationRetry (h : Kept s t) : KeptOut s (execMigrationRetry t) := by
  unfold execMigrationRetry
  split <;> simp [h]

@[simp] theorem kept_migGo (l : Nat) (force : Bool) : Kept s (migGo l force t) ↔ Kept s t := by simp [migGo]

@[simp] theorem kept_execMigGo (h : Kept s t) (ag l : Nat) : KeptOut s (execMigGo ag l t) := by simp [execMigGo, h]

@[simp] theorem kept_execMigGoForce (h : Kept s t) (ag l : Nat) : KeptOut s (execMigGoForce ag l t) :=
    by simp [execMigGoForce, h]

@[simp] theorem kept_hardFailover (l worn : Nat) : Kept s (hardFailover l worn t) ↔ Kept s t := by
  unfold hardFailover
  dsimp only
  split <;> simp

@[simp] theorem kept_execHandshakeStall (h : Kept s t) (r : Nat) : KeptOut s (execHandshakeStall r t) := by
  unfold execHandshakeStall
  dsimp only
  repeat' split
  all_goals simp [h]

@[simp] theorem kept_reloadImages (h : Kept s t) (l r : Nat) : Kept s (reloadImages l r t) := by
  unfold reloadImages
  refine h.foldl (fun u c hu => ?_) _
  split <;> simp [hu]

@[simp] theorem kept_execFailoverReloadComplete (h : Kept s t) (l : Nat) : KeptOut s (execFailoverReloadComplete l t) := by
  unfold execFailoverReloadComplete
  split <;> simp [h]

@[simp] theorem kept_dropClaims (n : Nat) : Kept s (dropClaims n t) ↔ Kept s t := by simp [dropClaims]

@[simp] theorem kept_execSurveyorWatchdog (h : Kept s t) (n : Nat) : KeptOut s (execSurveyorWatchdog n t) := by
  unfold execSurveyorWatchdog
  dsimp only
  repeat' split
  all_goals simp [h]

@[simp] theorem kept_substituteEngine (b : Nat) : Kept s (substituteEngine b t) ↔ Kept s t := kept_iff rfl rfl

@[simp] theorem kept_execEngineSelfcheckFail (h : Kept s t) (b : Nat) : KeptOut s (execEngineSelfcheckFail b t) :=
    by simp [execEngineSelfcheckFail, h]

@[simp] theorem kept_execQueueTableUe (h : Kept s t) (macroNo row : Nat) : KeptOut s (execQueueTableUe macroNo row t) :=
    by simp [execQueueTableUe, h]

@[simp] theorem kept_setTst (x : Tst) : Kept s (setTst x t) ↔ Kept s t := kept_iff rfl rfl

@[simp] theorem kept_testRun (ag : Nat) (v : W32) : Kept s (testRun ag v t) ↔ Kept s t := by simp [testRun]

@[simp] theorem kept_execTestProcRun (h : Kept s t) (ag : Nat) (v : W32) : KeptOut s (execTestProcRun ag v t) :=
    by simp [execTestProcRun, h]

@[simp] theorem kept_clearWords (h : Kept s t) (lo n : Nat) : Kept s (clearWords lo n t) := by simp [clearWords, h]

@[simp] theorem kept_procContents (h : Kept s t) (proc target : Nat) : Kept s (procContents proc target t) := by
  unfold procContents
  split <;> simp [h]

@[simp] theorem kept_procFailed (proc target : Nat) : Kept s (procFailed proc target t) ↔ Kept s t := by
  unfold procFailed
  split <;> simp

@[simp] theorem kept_procEnd (h : Kept s t) (proc target : Nat) (fail : Bool) (first : Nat) :
    Kept s (procEnd proc target fail first t) :=
    by simp [procEnd, h]

@[simp] theorem kept_execTestProcEnd (h : Kept s t) (first : Option Nat) : KeptOut s (execTestProcEnd first t) := by
  unfold execTestProcEnd
  split <;> simp [h]

@[simp] theorem kept_execSpareBistPeriodic (h : Kept s t) (reeds : List Nat) (engineFails : Bool) :
    KeptOut s (execSpareBistPeriodic reeds engineFails t) := by
  unfold execSpareBistPeriodic
  split
  · simpa using h
  · extract_lets fits s1
    have h1 : Kept s s1 := h.foldl (fun u p hu => by simp [hu]) _
    split <;> simp [h1]

@[simp] theorem kept_writeHbmLoop (ag p : Nat) (v : W32) : Kept s (writeHbmLoop ag p v t) ↔ Kept s t :=
    by simp [writeHbmLoop]

@[simp] theorem kept_execHbmLoopbackStart (h : Kept s t) (ag p : Nat) (v : W32) :
    KeptOut s (execHbmLoopbackStart ag p v t) :=
    by simp [execHbmLoopbackStart, h]

@[simp] theorem kept_clearChannel (h : Kept s t) (p : Nat) : Kept s (clearChannel p t) := by simp [clearChannel, h]

@[simp] theorem kept_execHbmLoopbackEnd (h : Kept s t) (p errs : Nat) (formed : Bool) :
    KeptOut s (execHbmLoopbackEnd p errs formed t) :=
    by simp [execHbmLoopbackEnd, h]

/-! ### Power, package and the Meridian -/

@[simp] theorem kept_setPwr (x : Pwr) : Kept s (setPwr x t) ↔ Kept s t := kept_iff rfl rfl

@[simp] theorem kept_setMer (x : Mer) : Kept s (setMer x t) ↔ Kept s t := kept_iff rfl rfl

@[simp] theorem kept_execPaceLoopAdjust (h : Kept s t) (r pace : Nat) : KeptOut s (execPaceLoopAdjust r pace t) :=
    by simp [execPaceLoopAdjust, h]

@[simp] theorem kept_execFastRaise (h : Kept s t) (r pace : Nat) : KeptOut s (execFastRaise r pace t) := by
  unfold execFastRaise
  dsimp only
  repeat' split
  all_goals simp [h]

@[simp] theorem kept_writePaceTgt (v : W32) : Kept s (writePaceTgt v t) ↔ Kept s t := kept_iff rfl rfl

@[simp] theorem kept_execPkgPowerWindow (h : Kept s t) (power : Nat) : KeptOut s (execPkgPowerWindow power t) :=
    by simp [execPkgPowerWindow, h]

@[simp] theorem kept_takePkgPower : Kept s (takePkgPower t).2 ↔ Kept s t := kept_iff rfl rfl

@[simp] theorem kept_execPkgPowerRead (h : Kept s t) (ag : Nat) : KeptOut s (execPkgPowerRead ag t) :=
    by simp [execPkgPowerRead, h]

@[simp] theorem kept_execThermalWarning (h : Kept s t) (tj : ℤ) : KeptOut s (execThermalWarning tj t) :=
    by simp [execThermalWarning, h]

@[simp] theorem kept_execThermtrip (h : Kept s t) (x : ℤ) : KeptOut s (execThermtrip x t) := by simp [execThermtrip, h]

@[simp] theorem kept_execRailExcursion (h : Kept s t) (rail : Nat) : KeptOut s (execRailExcursion rail t) :=
    by simp [execRailExcursion, h]

@[simp] theorem kept_writeMerCfg (ag : Nat) (v : W32) : Kept s (writeMerCfg ag v t) ↔ Kept s t := by simp [writeMerCfg]

@[simp] theorem kept_execMerCfgWrite (h : Kept s t) (ag : Nat) (v : W32) : KeptOut s (execMerCfgWrite ag v t) :=
    by simp [execMerCfgWrite, h]

@[simp] theorem kept_execRefLock (h : Kept s t) : KeptOut s (execRefLock t) := by simp [execRefLock, h]

@[simp] theorem kept_execRefLoss (h : Kept s t) : KeptOut s (execRefLoss t) := by simp [execRefLoss, h]

@[simp] theorem kept_execRefReturn (h : Kept s t) : KeptOut s (execRefReturn t) := by simp [execRefReturn, h]

@[simp] theorem kept_execPpsCapture (h : Kept s t) : KeptOut s (execPpsCapture t) := by simp [execPpsCapture, h]

/-! ### Beds and HBM -/

@[simp] theorem kept_writeTsCfg (b : Nat) (v : W32) : Kept s (writeTsCfg b v t) ↔ Kept s t := kept_iff rfl rfl

@[simp] theorem kept_execTsCfgWrite (h : Kept s t) (ag b : Nat) (v : W32) : KeptOut s (execTsCfgWrite ag b v t) :=
    by simp [execTsCfgWrite, h]

@[simp] theorem kept_poolBoundary (d : Nat) : Kept s (poolBoundary d t) ↔ Kept s t := kept_iff rfl rfl

@[simp] theorem kept_execPoolScrub (h : Kept s t) (b ce : Nat) : KeptOut s (execPoolScrub b ce t) :=
    by simp [execPoolScrub, h]

@[simp] theorem kept_execHbmScrub (h : Kept s t) (p ce : Nat) : KeptOut s (execHbmScrub p ce t) := by simp [execHbmScrub, h]

@[simp] theorem kept_mapStack (k : Nat) (f : HbmPage → HbmPage) : Kept s (mapStack k f t) ↔ Kept s t := by simp [mapStack]

@[simp] theorem kept_refresh (k temp : Nat) : Kept s (refresh k temp t) ↔ Kept s t := by
  unfold refresh
  simp +contextual

@[simp] theorem kept_execRefreshRateRaised (h : Kept s t) (stack temp : Nat) :
    KeptOut s (execRefreshRateRaised stack temp t) :=
    by simp [execRefreshRateRaised, h]

@[simp] theorem kept_execSelfRefreshEntry (h : Kept s t) : KeptOut s (execSelfRefreshEntry t) :=
    by simp [execSelfRefreshEntry, h]

@[simp] theorem kept_snoopAnswer (h : Kept s t) (line : Nat) (dirty : Option (List Byte)) :
    Kept s (snoopAnswer line dirty t) := by
  unfold snoopAnswer
  refine kept_serveWaiting (Kept.foldl ?_ (fun u w hu => kept_writePlaced hu _) _) _
  split <;> simp [h]

@[simp] theorem kept_execBisnpResponse (h : Kept s t) (line : Nat) (dirty : Option (List Byte)) :
    KeptOut s (execBisnpResponse line dirty t) :=
    by simp [execBisnpResponse, h]

@[simp] theorem kept_execHbmEccWindow (h : Kept s t) (page ce : Nat) : KeptOut s (execHbmEccWindow page ce t) :=
    by simp [execHbmEccWindow, h]

@[simp] theorem kept_execPageReback (h : Kept s t) (page : Nat) : KeptOut s (execPageReback page t) := by
  unfold execPageReback
  dsimp only
  repeat' split
  all_goals simp [h]

@[simp] theorem kept_takeTokCnt (b : Nat) : Kept s (takeTokCnt b t).2 ↔ Kept s t := kept_iff rfl rfl

@[simp] theorem kept_execTokCntRead (h : Kept s t) (ag b : Nat) : KeptOut s (execTokCntRead ag b t) :=
    by simp [execTokCntRead, h]

@[simp] theorem kept_takePoolEcc (b : Nat) : Kept s (takePoolEcc b t).2 ↔ Kept s t := kept_iff rfl rfl

@[simp] theorem kept_execPoolEccRead (h : Kept s t) (ag b : Nat) : KeptOut s (execPoolEccRead ag b t) :=
    by simp [execPoolEccRead, h]

@[simp] theorem kept_takeHbmEccCe (p : Nat) : Kept s (takeHbmEccCe p t).2 ↔ Kept s t := kept_iff rfl rfl

@[simp] theorem kept_execHbmEccCeRead (h : Kept s t) (ag p : Nat) : KeptOut s (execHbmEccCeRead ag p t) :=
    by simp [execHbmEccCeRead, h]

@[simp] theorem kept_takeHbmEccUe (p : Nat) : Kept s (takeHbmEccUe p t).2 ↔ Kept s t := kept_iff rfl rfl

@[simp] theorem kept_execHbmEccUeRead (h : Kept s t) (ag p : Nat) : KeptOut s (execHbmEccUeRead ag p t) :=
    by simp [execHbmEccUeRead, h]

@[simp] theorem kept_takeSfStat (p : Nat) : Kept s (takeSfStat p t).2 ↔ Kept s t := kept_iff rfl rfl

@[simp] theorem kept_execSfStatRead (h : Kept s t) (ag p : Nat) : KeptOut s (execSfStatRead ag p t) :=
    by simp [execSfStatRead, h]

@[simp] theorem kept_takeOvrCount (r n : Nat) : Kept s (takeOvrCount r n t).2 ↔ Kept s t := kept_iff rfl rfl

@[simp] theorem kept_execOvrCountRead (h : Kept s t) (ag r n : Nat) : KeptOut s (execOvrCountRead ag r n t) :=
    by simp [execOvrCountRead, h]

@[simp] theorem kept_takeFarLate (r : Nat) : Kept s (takeFarLate r t).2 ↔ Kept s t := kept_iff rfl rfl

@[simp] theorem kept_execFarLateRead (h : Kept s t) (ag r : Nat) : KeptOut s (execFarLateRead ag r t) :=
    by simp [execFarLateRead, h]

end Sys2Proof.Machine
end

section
/-! SUPPORT. Queue and canonical form are kept by
what tide boundaries, register pages, far accesses and long operations do: one rule for each operation,
in the model's order. -/

namespace Sys2Proof.Machine

variable {s t : State}

/-! ### Tide boundaries -/

@[simp] theorem kept_stopBlocks (h : Kept s t) (d : Nat) : Kept s (stopBlocks d t) := by simp [stopBlocks, h]

@[simp] theorem kept_stopDomain (h : Kept s t) (d : Nat) : Kept s (stopDomain d t) := by simp [stopDomain, h]

@[simp] theorem kept_startDomain (d u : Nat) : Kept s (startDomain d u t) ↔ Kept s t := by simp [startDomain]

@[simp] theorem kept_applyEn (h : Kept s t) (ag u : Nat) (v : W32) (d : Nat) : Kept s (applyEn ag u v t d) :=
    by simp [applyEn, h]

@[simp] theorem kept_writeTdEn (h : Kept s t) (ag : Nat) (v : W32) : Kept s (writeTdEn ag v t) := by
  unfold writeTdEn
  simp +contextual [h]

@[simp] theorem kept_execTdEnWrite (h : Kept s t) (ag : Nat) (v : W32) : KeptOut s (execTdEnWrite ag v t) :=
    by simp [execTdEnWrite, h]

@[simp] theorem kept_closeTide (d : Nat) : Kept s (closeTide d t) ↔ Kept s t := by simp [closeTide]

@[simp] theorem kept_openTide (h : Kept s t) (d : Nat) : Kept s (openTide d t) := by
  unfold openTide
  dsimp only
  refine kept_busSubstitution ((kept_applyBusCommits d).2 ((kept_foldl (fun _ _ => kept_sspFlag ..) _).2 ?_)) d
  refine kept_sluiceBoundary ((kept_foldl (fun _ _ => kept_newTide ..) _).2 ?_) d
  simp [h]

@[simp] theorem kept_retryHeld (h : Kept s t) : Kept s (retryHeld t) := by
  unfold retryHeld
  simp +contextual [h]

@[simp] theorem kept_tideBoundary (h : Kept s t) (d : Nat) : Kept s (tideBoundary d t) := by
  unfold tideBoundary
  extract_lets x s1
  have h1 : Kept s s1 := by simp [s1, h]
  split
  · simp [h1]
  · exact kept_retryHeld (kept_migrationBoundary (kept_openTide h1 d) ..)

@[simp] theorem kept_execTideBoundary (h : Kept s t) : KeptOut s (execTideBoundary t) := by
  unfold execTideBoundary
  split <;> simp [h]

/-! ### Register reads -/

@[simp] theorem kept_takePins (n : Nat) : Kept s (takePins n t).2 ↔ Kept s t := kept_iff rfl rfl

theorem kept_effectRead {b : Blk} {p o : Nat} {f : State → W32 × State} (h : Kept s t) (hf : effectRead b p o = some f) :
    Kept s (f t).2 := by
  unfold effectRead at hf
  split at hf
  all_goals simp only [Option.some.injEq, Option.ite_none_right_eq_some, reduceCtorEq] at hf
  case h_5 | h_6 | h_23 =>
    obtain ⟨_, rfl⟩ := hf
    simp [h]
  all_goals
    subst hf
    simp [h]

@[simp] theorem kept_regRead (h : Kept s t) (ag off : Nat) : Kept s (regRead ag off t).2 := by
  unfold regRead
  dsimp only
  split
  · exact h
  · split
    · simp [h]
    · split
      · simp [h]
      · split
        · exact h
        · split
          · exact kept_effectRead h ‹_›
          · exact h

/-! ### Register writes -/

@[simp] theorem kept_headerWrite (b : Blk) (pg o : Nat) (v : W32) : Kept s (headerWrite b pg o v t) ↔ Kept s t := by
  unfold headerWrite
  split <;> simp

@[simp] theorem kept_writeStateReq (ag : Nat) (v : W32) : Kept s (writeStateReq ag v t) ↔ Kept s t := by
  unfold writeStateReq
  repeat' split
  all_goals simp

@[simp] theorem kept_glbWrite (h : Kept s t) (ag o : Nat) (v : W32) : Kept s (glbWrite ag o v t) := by
  unfold glbWrite
  split <;> simp [h]

@[simp] theorem kept_writeTemp (v : W32) : Kept s (writeTemp v t) ↔ Kept s t := by simp [writeTemp]

@[simp] theorem kept_pwrWrite (o : Nat) (v : W32) : Kept s (pwrWrite o v t) ↔ Kept s t := by
  unfold pwrWrite
  split <;> simp

@[simp] theorem kept_domWrite (ag o : Nat) (v : W32) : Kept s (domWrite ag o v t) ↔ Kept s t := by
  unfold domWrite
  split <;> simp

@[simp] theorem kept_merWrite (h : Kept s t) (ag o : Nat) (v : W32) : Kept s (merWrite ag o v t) := by
  unfold merWrite
  dsimp only
  repeat' split
  all_goals simp [h]

@[simp] theorem kept_fbkCtrl (ag : Nat) (v : W32) : Kept s (fbkCtrl ag v t) ↔ Kept s t := by
  unfold fbkCtrl
  split <;> simp

@[simp] theorem kept_fbkWrite (ag o : Nat) (v : W32) : Kept s (fbkWrite ag o v t) ↔ Kept s t := by
  unfold fbkWrite
  split <;> simp

@[simp] theorem kept_pushCtrl (ag : Nat) (v : W32) : Kept s (pushCtrl ag v t) ↔ Kept s t := by
  unfold pushCtrl
  simp +contextual

@[simp] theorem kept_secWrite (ag o : Nat) (v : W32) : Kept s (secWrite ag o v t) ↔ Kept s t := by
  unfold secWrite
  split <;> simp

@[simp] theorem kept_sprWrite (o : Nat) (v : W32) : Kept s (sprWrite o v t) ↔ Kept s t := by
  unfold sprWrite
  split <;> simp

@[simp] theorem kept_tstWrite (ag o : Nat) (v : W32) : Kept s (tstWrite ag o v t) ↔ Kept s t := by
  unfold tstWrite
  split <;> simp

@[simp] theorem kept_evrWrite (ag p o : Nat) (v : W32) : Kept s (evrWrite ag p o v t) ↔ Kept s t := by
  unfold evrWrite
  repeat' split
  all_goals simp

@[simp] theorem kept_qmgPageWrite (h : Kept s t) (ag p o : Nat) (v : W32) : Kept s (qmgPageWrite ag p o v t) := by
  unfold qmgPageWrite
  dsimp only
  repeat' split
  all_goals simp [h]

@[simp] theorem kept_chanWrite (ag c o : Nat) (v : W32) : Kept s (chanWrite ag c o v t) ↔ Kept s t := by
  unfold chanWrite
  split <;> simp

@[simp] theorem kept_tcuWrite (ag p o : Nat) (v : W32) : Kept s (tcuWrite ag p o v t) ↔ Kept s t := by
  unfold tcuWrite
  simp +contextual

@[simp] theorem kept_aspWrite (ag n o : Nat) (v : W32) : Kept s (aspWrite ag n o v t) ↔ Kept s t := by
  unfold aspWrite
  repeat' split
  all_goals simp

@[simp] theorem kept_sspWrite (h : Kept s t) (ag n o : Nat) (v : W32) : Kept s (sspWrite ag n o v t) := by
  unfold sspWrite
  dsimp only
  repeat' split
  all_goals simp [h]

@[simp] theorem kept_cwlWrite (ag l o : Nat) (v : W32) : Kept s (cwlWrite ag l o v t) ↔ Kept s t := by
  unfold cwlWrite
  split <;> simp

@[simp] theorem kept_atlCtrl (v : W32) : Kept s (atlCtrl v t) ↔ Kept s t := by
  unfold atlCtrl
  simp +contextual

@[simp] theorem kept_atlWrite (ag o : Nat) (v : W32) : Kept s (atlWrite ag o v t) ↔ Kept s t := by
  unfold atlWrite
  split <;> simp

@[simp] theorem kept_reserveWrite (ag o : Nat) (v : W32) : Kept s (reserveWrite ag o v t) ↔ Kept s t := by
  unfold reserveWrite
  split <;> simp

@[simp] theorem kept_hbmWrite (ag p o : Nat) (v : W32) : Kept s (hbmWrite ag p o v t) ↔ Kept s t := by
  unfold hbmWrite
  split <;> simp

@[simp] theorem kept_slcWrite (ag b o : Nat) (v : W32) : Kept s (slcWrite ag b o v t) ↔ Kept s t := by
  unfold slcWrite
  repeat' split
  all_goals simp

@[simp] theorem kept_bedWrite (b o : Nat) (v : W32) : Kept s (bedWrite b o v t) ↔ Kept s t := by
  unfold bedWrite
  split <;> simp

@[simp] theorem kept_commitParcel (ag r : Nat) (v : W32) : Kept s (commitParcel ag r v t) ↔ Kept s t :=
    by simp [commitParcel]

@[simp] theorem kept_execPdData3Write (h : Kept s t) (ag r : Nat) (v : W32) : KeptOut s (execPdData3Write ag r v t) :=
    by simp [execPdData3Write, h]

@[simp] theorem kept_ttCtrl (r : Nat) (v : W32) : Kept s (ttCtrl r v t) ↔ Kept s t := by simp [ttCtrl]

@[simp] theorem kept_redWrite (ag r o : Nat) (v : W32) : Kept s (redWrite ag r o v t) ↔ Kept s t := by
  unfold redWrite
  split <;> simp

@[simp] theorem kept_blockWrite (h : Kept s t) (ag : Nat) (b : Blk) (p o : Nat) (v : W32) :
    Kept s (blockWrite ag b p o v t) := by
  unfold blockWrite
  split <;> simp [h]

@[simp] theorem kept_regWrite (h : Kept s t) (ag off : Nat) (v : W32) : Kept s (regWrite ag off v t) := by
  unfold regWrite
  dsimp only
  repeat' split
  all_goals simp [h]

@[simp] theorem kept_bar0Write (h : Kept s t) (ag off len : Nat) (v : W32) : Kept s (bar0Write ag off len v t) :=
    by simp [bar0Write, h]

@[simp] theorem kept_bar2Write (h : Kept s t) (off len : Nat) (v : W32) : Kept s (bar2Write off len v t) :=
    by simp [bar2Write, h]

@[simp] theorem kept_bar4Write (off len : Nat) (v : W32) : Kept s (bar4Write off len v t) ↔ Kept s t := by
  unfold bar4Write
  simp +contextual

@[simp] theorem kept_ecvWrite (off len : Nat) (v : W32) : Kept s (ecvWrite off len v t) ↔ Kept s t := by
  unfold ecvWrite
  repeat' split
  all_goals simp

@[simp] theorem kept_configWrite (h : Kept s t) (r : CfgReg) (v : W32) : Kept s (configWrite r v t) := by
  unfold configWrite
  split <;> simp [h]

@[simp] theorem kept_spaceWrite (h : Kept s t) (sp : Space) (ag off len : Nat) (v : W32) :
    Kept s (spaceWrite sp ag off len v t) := by
  unfold spaceWrite
  repeat' split
  all_goals simp +contextual [h]

@[simp] theorem kept_execRegisterWrite (h : Kept s t) (sp : Space) (ag off len : Nat) (v : W32) :
    KeptOut s (execRegisterWrite sp ag off len v t) :=
    by simp [execRegisterWrite, h]

@[simp] theorem kept_execIrqForce (h : Kept s t) (ag pg : Nat) (v : W32) : KeptOut s (execIrqForce ag pg v t) := by
  unfold execIrqForce
  split <;> simp [h]

/-! ### Far accesses -/

/-- What a read of a register page leaves is what the read of the register leaves, or the refusal. -/
theorem readSysPage_cases {P : Nat × State → Prop} {f : Far} (hr : ∀ n, P (n, (regRead 2 (pageByte f.byte) t).2))
    (he : ∀ n, P (n, refuseReg 1 2 (pageByte f.byte) t)) : P (readSysPage f t) := by
  unfold readSysPage
  dsimp only
  split
  · exact hr _
  · exact he _

@[simp] theorem kept_readSysPage (h : Kept s t) (f : Far) : Kept s (readSysPage f t).2 := by
  have hk : ∀ (n : Nat) u, Kept s u → Kept s (n, u).2 := fun _ _ hu => hu
  exact readSysPage_cases (P := fun p => Kept s p.2) (fun n => hk n _ (kept_regRead h ..))
    (fun n => hk n _ ((kept_refuseReg ..).2 h))

@[simp] theorem kept_localRead (h : Kept s t) (r : Nat) (f : Far) : Kept s (localRead r f t).2 := by
  unfold localRead
  dsimp only
  repeat' split
  all_goals simp [h]

@[simp] theorem kept_farArrives (h : Kept s t) (r : Nat) (f : Far) (data : W64) (ok : Bool) :
    Kept s (farArrives r f data ok t) := by
  unfold farArrives
  have hl := kept_localRead h r f
  dsimp only
  split
  · split <;> simp [h]
  · split <;> simp_all

@[simp] theorem kept_execFarReadData (h : Kept s t) (r : Nat) (data : W64) (ok : Bool) :
    KeptOut s (execFarReadData r data ok t) := by
  unfold execFarReadData
  repeat' split
  all_goals simp +contextual [h]

@[simp] theorem kept_execFarReadTimeout (h : Kept s t) (r : Nat) : KeptOut s (execFarReadTimeout r t) := by
  unfold execFarReadTimeout
  dsimp only
  repeat' split
  all_goals simp [h]

@[simp] theorem kept_dropLateRead (r : Nat) : Kept s (dropLateRead r t) ↔ Kept s t := by
  unfold dropLateRead
  repeat' split
  all_goals simp

@[simp] theorem kept_execFarReadLate (h : Kept s t) (r : Nat) : KeptOut s (execFarReadLate r t) :=
    by simp [execFarReadLate, h]

@[simp] theorem kept_popStore (r : Nat) : Kept s (popStore r t) ↔ Kept s t := kept_iff rfl rfl

@[simp] theorem kept_storeLeft (h : Kept s t) (r : Nat) : Kept s (storeLeft r t) := by
  unfold storeLeft
  split <;> simp [h]

@[simp] theorem kept_storeSysPage (h : Kept s t) (ws : List StoreWord) : Kept s (storeSysPage ws t) := by
  unfold storeSysPage
  split <;> simp [h]

@[simp] theorem kept_storeAtlas (ws : List StoreWord) (r : Nat) : Kept s (storeAtlas ws r t) ↔ Kept s t := by
  unfold storeAtlas
  refine kept_foldl (fun u b => ?_) _
  split <;> simp

@[simp] theorem kept_afterSysStore (ws : List PlacedWord) : Kept s (afterSysStore ws t) ↔ Kept s t := by
  unfold afterSysStore
  refine kept_foldl (fun u p => ?_) _
  split <;> simp

@[simp] theorem kept_storeArrives (h : Kept s t) (r : Nat) (e : FarStore) : Kept s (storeArrives r e t) := by
  unfold storeArrives
  repeat' split
  all_goals simp +contextual [h]

@[simp] theorem kept_execFarStoreArrival (h : Kept s t) (r : Nat) : KeptOut s (execFarStoreArrival r t) := by
  have hs := fun e => kept_storeArrives ((kept_popStore r).2 h) r e
  unfold execFarStoreArrival
  repeat' split
  all_goals simp [h, hs]

@[simp] theorem kept_execFarStoreTimeout (h : Kept s t) (r : Nat) : KeptOut s (execFarStoreTimeout r t) := by
  unfold execFarStoreTimeout
  repeat' split
  all_goals simp +contextual [h]

@[simp] theorem kept_execFarStoreFail (h : Kept s t) (r addr : Nat) : KeptOut s (execFarStoreFail r addr t) := by
  unfold execFarStoreFail
  repeat' split
  all_goals simp +contextual [h]

/-! ### Long operations -/

@[simp] theorem kept_retire (h : Kept s t) (r u : Nat) (x : Station) : Kept s (retire r u x t) := by simp [retire, h]

@[simp] theorem kept_execLouRetire (h : Kept s t) (r u : Nat) : KeptOut s (execLouRetire r u t) := by
  unfold execLouRetire
  dsimp only
  repeat' split
  all_goals simp [h]

@[simp] theorem kept_deliverHeld (h : Kept s t) (r c : Nat) (x : HeldTrap) : Kept s (deliverHeld r c x t) :=
    by simp [deliverHeld, h]

@[simp] theorem kept_execLouTrapDelivery (h : Kept s t) (r : Nat) : KeptOut s (execLouTrapDelivery r t) := by
  unfold execLouTrapDelivery
  dsimp only
  repeat' split
  all_goals simp [h]

end Sys2Proof.Machine
end

section
/-! Obligation `StepKeepsMemoryAndQueue` (O57): every command keeps queue and canonical form, so a step only takes the front
command from the queue. -/

namespace Sys2Proof.Machine

variable {s t : State}

/-- Every command keeps queue and canonical form: the syllable rows by what a bundle may do, the others each by its rule. -/
theorem kept_exec (h : Kept s t) : ∀ c : Instr, KeptOut s (exec c t)
  | .macS .. | .macD .. | .msuS .. | .msuD .. | .mpaS .. | .mpaD .. | .dmac .. | .dmsu .. | .dmpa .. | .mul .. | .mulu ..
  | .aclr .. | .ald .. | .amov .. | .aadd .. | .asub .. | .aneg .. | .ashl .. | .ashr .. | .alsr .. | .accAsh .. | .fadd ..
  | .fsub .. | .fmul .. | .fma .. | .fms .. | .fneg .. | .fabs .. | .fmin .. | .fmax .. | .fceq .. | .fclt .. | .fcle ..
  | .fcun .. | .fcvtd2s .. | .fcvts2d .. | .fcvth2s .. | .fcvts2h .. | .fcvtf2i .. | .fcvti2f .. | .fmovf2s .. | .fmovs2f ..
  | .fmovq .. | .fmov .. | .vadd .. | .vsub .. | .vmul .. | .vfma .. | .vmin .. | .vmax .. | .vand .. | .vor .. | .vxor ..
  | .vdup .. | .fldW .. | .fldQ .. | .vld .. | .fstW .. | .fstQ .. | .vst .. | .cld .. | .cst .. | .lvcpy .. | .lvaddf ..
  | .lmul .. | .lmulu .. | .lmul64 .. | .lmulh64 .. | .ldiv .. | .ldivu .. | .fdiv .. | .fsqrt .. | .exp2 .. | .log2 ..
  | .sin2pi .. | .tanh .. | .rsqrt .. | .bcdadd .. | .bcdsub .. | .lbar .. | .ldS .. | .ldSu .. | .ldD .. | .ldQ ..
  | .stS .. | .stD .. | .stQ .. | .staS .. | .staD .. | .ldb .. | .ldbu .. | .ldh .. | .ldhu .. | .ldw .. | .stb ..
  | .sth .. | .stw .. | .add .. | .sub .. | .adds .. | .subs .. | .neg .. | .negs .. | .and .. | .or .. | .xor .. | .not ..
  | .lsl .. | .lsr .. | .asr .. | .ash .. | .min .. | .max .. | .minu .. | .maxu .. | .cmpeq .. | .cmpne .. | .cmplt ..
  | .cmpge .. | .cmpltu .. | .cmpgeu .. | .mov .. | .pand .. | .por .. | .pnot .. | .movi .. | .movq .. | .mva .. | .mvm ..
  | .rdsr .. | .wrsr .. | .rpd .. | .wpd .. | .br .. | .call .. | .bri .. | .calli .. | .ret .. | .rfe .. | .loop ..
  | .rep .. | .repi .. | .nop .. | .tend .. | .flushi .. | .bchk .. | .break .. | .undefinedOpcode .. =>
    kept_sylStep h _ _ _
  | .powerGood .. => kept_execPowerGood h _ _
  | .sysPwrgdFall .. => kept_execSysPwrgdFall h
  | .stateReqStartup .. => kept_execStateReqStartup h _ _
  | .stateReqTest .. => kept_execStateReqTest h _ _
  | .stateReqService .. => kept_execStateReqService h _ _
  | .stateReqRecovery .. => kept_execStateReqRecovery h _ _
  | .stateReqTussock .. => kept_execStateReqTussock h _ _
  | .stateReqDormant .. => kept_execStateReqDormant h _ _
  | .stateTransitionComplete .. => kept_execStateTransitionComplete h
  | .meshRouterFail .. => kept_execMeshRouterFail h
  | .surveyorMemoryUe .. => kept_execSurveyorMemoryUe h _
  | .queueTableUe .. => kept_execQueueTableUe h _ _
  | .recActiveClear .. => kept_execRecActiveClear h
  | .tdEnWrite .. => kept_execTdEnWrite h _ _
  | .tideBoundary .. => kept_execTideBoundary h
  | .ttDataHiWrite .. => kept_execTtDataHiWrite h _ _ _
  | .swapRequest .. => kept_execSwapRequest h _ _ _
  | .runSet .. => kept_execRunSet h _ _
  | .runClear .. => kept_execRunClear h _ _
  | .wmclr .. => kept_execWmclr h _ _
  | .ctxRestart .. => kept_execCtxRestart h _ _ _
  | .contextStart .. => kept_execContextStart h _ _
  | .contextResume .. => kept_execContextResume h _
  | .overrunBudget .. => kept_execOverrunBudget h _
  | .overrunDeadline .. => kept_execOverrunDeadline h _ _
  | .overrunStart .. => kept_execOverrunStart h _ _ _
  | .entryPassedOver .. => kept_execEntryPassedOver h _ _ _
  | .paceWindow .. => kept_execPaceWindow h _ _
  | .paceLoopAdjust .. => kept_execPaceLoopAdjust h _ _
  | .fastRaise .. => kept_execFastRaise h _ _
  | .pkgPowerWindow .. => kept_execPkgPowerWindow h _
  | .pdData3Write .. => kept_execPdData3Write h _ _ _
  | .farReadData .. => kept_execFarReadData h _ _ _
  | .farReadTimeout .. => kept_execFarReadTimeout h _
  | .farReadLate .. => kept_execFarReadLate h _
  | .farStoreArrival .. => kept_execFarStoreArrival h _
  | .farStoreTimeout .. => kept_execFarStoreTimeout h _
  | .farStoreFail .. => kept_execFarStoreFail h _ _
  | .louRetire .. => kept_execLouRetire h _ _
  | .louTrapDelivery .. => kept_execLouTrapDelivery h _
  | .tsCfgWrite .. => kept_execTsCfgWrite h _ _ _
  | .poolScrub .. => kept_execPoolScrub h _ _
  | .hbmScrub .. => kept_execHbmScrub h _ _
  | .refreshRateRaised .. => kept_execRefreshRateRaised h _ _
  | .selfRefreshEntry .. => kept_execSelfRefreshEntry h
  | .bisnpResponse .. => kept_execBisnpResponse h _ _
  | .hbmEccWindow .. => kept_execHbmEccWindow h _ _
  | .pageReback .. => kept_execPageReback h _
  | .sdCommit .. => kept_execSdCommit h _ _ _
  | .start .. => kept_execStart h _ _
  | .stop .. => kept_execStop h _ _
  | .resume .. => kept_execResume h _ _
  | .setrate .. => kept_execSetrate h _ _
  | .keyload .. => kept_execKeyload h _ _
  | .gather .. => kept_execGather h _ _
  | .fence .. => kept_execFence h _ _
  | .fenceComplete .. => kept_execFenceComplete h _
  | .badcmd .. => kept_execBadcmd h _ _
  | .ringWindowResident .. => kept_execRingWindowResident h _ _
  | .sluiceRequestIssue .. => kept_execSluiceRequestIssue h _ _ _ _
  | .sluiceRequestData .. => kept_execSluiceRequestData h _ _ _ _
  | .sluiceRequestTimeout .. => kept_execSluiceRequestTimeout h _ _
  | .sluiceLateArrival .. => kept_execSluiceLateArrival h _ _
  | .slcLoadWindow .. => kept_execSlcLoadWindow h _ _
  | .engineSelfcheckFail .. => kept_execEngineSelfcheckFail h _
  | .aspEnable .. => kept_execAspEnable h _ _ _
  | .aspDisable .. => kept_execAspDisable h _ _ _
  | .aspFrameStart .. => kept_execAspFrameStart h _
  | .aspSlaveFrameStart .. => kept_execAspSlaveFrameStart h _ _
  | .aspSlotIngress .. => kept_execAspSlotIngress h _ _ _
  | .aspSlotEmit .. => kept_execAspSlotEmit h _ _
  | .aspStagingLoad .. => kept_execAspStagingLoad h _ _
  | .aspClockLoss .. => kept_execAspClockLoss h _
  | .aspLossZeroWrite .. => kept_execAspLossZeroWrite h _ _
  | .slotmapWrite .. => kept_execSlotmapWrite h _ _ _ _
  | .oslotmapWrite .. => kept_execOslotmapWrite h _ _ _ _
  | .aspLoopCtrlWrite .. => kept_execAspLoopCtrlWrite h _ _ _
  | .sspEnable .. => kept_execSspEnable h _ _
  | .sspDisable .. => kept_execSspDisable h _ _
  | .sspMatrixStep .. => kept_execSspMatrixStep h _
  | .sspMatrixSample .. => kept_execSspMatrixSample h _ _
  | .sspConversionComplete .. => kept_execSspConversionComplete h _
  | .sspAdcPass .. => kept_execSspAdcPass h _
  | .sspAdcWord .. => kept_execSspAdcWord h _ _
  | .midiRxFrame .. => kept_execMidiRxFrame h _ _ _ _
  | .midiTx .. => kept_execMidiTx h _ _ _
  | .midiTxFrameSent .. => kept_execMidiTxFrameSent h _
  | .smapWrite .. => kept_execSmapWrite h _ _ _ _
  | .sspLoopCtrlWrite .. => kept_execSspLoopCtrlWrite h _ _ _
  | .tcuStep .. => kept_execTcuStep h _
  | .tcuMatch .. => kept_execTcuMatch h _
  | .tcuOvf .. => kept_execTcuOvf h _
  | .tcuAction .. => kept_execTcuAction h _
  | .tcuPairCarry .. => kept_execTcuPairCarry h _
  | .tcuStart .. => kept_execTcuStart h _ _
  | .tcuStop .. => kept_execTcuStop h _ _
  | .tcuReset .. => kept_execTcuReset h _ _
  | .tcuCntWrite .. => kept_execTcuCntWrite h _ _ _
  | .tcuCmpWrite .. => kept_execTcuCmpWrite h _ _ _
  | .capselWrite .. => kept_execCapselWrite h _ _ _ _
  | .captureEvent .. => kept_execCaptureEvent h _
  | .qmgCommit .. => kept_execQmgCommit h _
  | .qmgDisable .. => kept_execQmgDisable h _
  | .qmgRead .. => kept_execQmgRead h _
  | .qmgAdvance .. => kept_execQmgAdvance h _
  | .doorbellWrite .. => kept_execDoorbellWrite h _ _
  | .moderationExpiry .. => kept_execModerationExpiry h _
  | .msixMaskClear .. => kept_execMsixMaskClear h _
  | .msixEnable .. => kept_execMsixEnable h
  | .swtrig .. => kept_execSwtrig h _ _
  | .srcCfgWrite .. => kept_execSrcCfgWrite h _ _
  | .eventCommit .. => kept_execEventCommit h
  | .svClaim .. => kept_execSvClaim h _ _
  | .eoi .. => kept_execEoi h _ _ _
  | .eoiForce .. => kept_execEoiForce h _ _
  | .linkTrained .. => kept_execLinkTrained h _ _ _
  | .l0pWidthChange .. => kept_execL0pWidthChange h _
  | .l1Entry .. => kept_execL1Entry h
  | .l2Entry .. => kept_execL2Entry h
  | .perstAssert .. => kept_execPerstAssert h
  | .perstDeassert .. => kept_execPerstDeassert h
  | .hotReset .. => kept_execHotReset h
  | .linkDown .. => kept_execLinkDown h
  | .flr .. => kept_execFlr h
  | .cxlReset .. => kept_execCxlReset h
  | .dStateChange .. => kept_execDStateChange h _
  | .hdmCommit .. => kept_execHdmCommit h _ _ _ _ _
  | .cxlMemRead .. => kept_execCxlMemRead h _ _
  | .cxlMemWrite .. => kept_execCxlMemWrite h _ _ _ _ _
  | .uioAccess .. => kept_execUioAccess h _ _ _ _
  | .hostSnoop .. => kept_execHostSnoop h _
  | .hostReadCompletion .. => kept_execHostReadCompletion h _ _ _
  | .hostRequestTimeout .. => kept_execHostRequestTimeout h _
  | .doeRequest .. => kept_execDoeRequest h _ _
  | .doeAbort .. => kept_execDoeAbort h _
  | .spdmRequest .. => kept_execSpdmRequest h _
  | .lkekInstall .. => kept_execLkekInstall h _ _
  | .ideKmKey .. => kept_execIdeKmKey h _
  | .ideIntegrityFail .. => kept_execIdeIntegrityFail h _
  | .cxlLoopbackStart .. => kept_execCxlLoopbackStart h _ _
  | .cxlLoopbackEnd .. => kept_execCxlLoopbackEnd h _ _
  | .atlasJoin .. => kept_execAtlasJoin h _
  | .atlasLeave .. => kept_execAtlasLeave h _
  | .cwlEnable .. => kept_execCwlEnable h _ _
  | .cwlDisable .. => kept_execCwlDisable h _ _
  | .cwlRetrain .. => kept_execCwlRetrain h _ _
  | .cwlTrained .. => kept_execCwlTrained h _ _ _ _
  | .miswiredRetry .. => kept_execMiswiredRetry h _
  | .ctrlFlit .. => kept_execCtrlFlit h _ _ _
  | .nakFlit .. => kept_execNakFlit h _ _ _
  | .hbFlit .. => kept_execHbFlit h _ _ _ _
  | .audioFlit .. => kept_execAudioFlit h _ _ _
  | .memrdFlit .. => kept_execMemrdFlit h _ _ _
  | .memrspFlit .. => kept_execMemrspFlit h _ _ _ _
  | .memwrFlit .. => kept_execMemwrFlit h _ _ _ _
  | .mgmtFlit .. => kept_execMgmtFlit h _ _ _ _
  | .loopFlit .. => kept_execLoopFlit h _ _ _ _
  | .cwlBadFlit .. => kept_execCwlBadFlit h _ _
  | .replayTimeout .. => kept_execReplayTimeout h _
  | .laneMarginLow .. => kept_execLaneMarginLow h _ _
  | .laneLoss .. => kept_execLaneLoss h _ _
  | .hbSend .. => kept_execHbSend h
  | .partition .. => kept_execPartition h _
  | .successorUnreachable .. => kept_execSuccessorUnreachable h _
  | .promotion .. => kept_execPromotion h
  | .busCommit .. => kept_execBusCommit h _ _
  | .rejoin .. => kept_execRejoin h _ _ _
  | .rejoinComplete .. => kept_execRejoinComplete h
  | .cwlLoopbackStart .. => kept_execCwlLoopbackStart h _ _ _
  | .cwlLoopbackEnd .. => kept_execCwlLoopbackEnd h _ _ _
  | .startSequence .. => kept_execStartSequence h _ _ _
  | .startupWatchdog .. => kept_execStartupWatchdog h
  | .pushGo .. => kept_execPushGo h _ _
  | .pushData .. => kept_execPushData h _ _
  | .pushVerifyComplete .. => kept_execPushVerifyComplete h
  | .bootAck .. => kept_execBootAck h _
  | .svncommit .. => kept_execSvncommit h _
  | .zeroize .. => kept_execZeroize h _
  | .mailboxInfo .. => kept_execMailboxInfo h _ _ _
  | .mailboxLoadImage .. => kept_execMailboxLoadImage h _ _ _ _ _ _ _ _ _ _ _
  | .mailboxUnknownService .. => kept_execMailboxUnknownService h _ _ _ _
  | .fbCommit .. => kept_execFbCommit h _
  | .fbRefill .. => kept_execFbRefill h _
  | .fbLatch .. => kept_execFbLatch h _ _
  | .wallSet .. => kept_execWallSet h _ _
  | .fbScrub .. => kept_execFbScrub h _ _
  | .fbRepair .. => kept_execFbRepair h _
  | .fbRepairComplete .. => kept_execFbRepairComplete h _ _
  | .mirenSet .. => kept_execMirenSet h _
  | .fbMirrorCopy .. => kept_execFbMirrorCopy h
  | .pceilEstimate .. => kept_execPceilEstimate h _ _
  | .reedEccWindow .. => kept_execReedEccWindow h _ _
  | .handshakeStall .. => kept_execHandshakeStall h _
  | .failoverReloadComplete .. => kept_execFailoverReloadComplete h _
  | .migrationStart .. => kept_execMigrationStart h
  | .migrationCopyComplete .. => kept_execMigrationCopyComplete h
  | .migrationAbandon .. => kept_execMigrationAbandon h
  | .migrationRetry .. => kept_execMigrationRetry h
  | .migGo .. => kept_execMigGo h _ _
  | .migGoForce .. => kept_execMigGoForce h _ _
  | .surveyorWatchdog .. => kept_execSurveyorWatchdog h _
  | .testProcRun .. => kept_execTestProcRun h _ _
  | .testProcEnd .. => kept_execTestProcEnd h _
  | .spareBistPeriodic .. => kept_execSpareBistPeriodic h _ _
  | .hbmLoopbackStart .. => kept_execHbmLoopbackStart h _ _ _
  | .hbmLoopbackEnd .. => kept_execHbmLoopbackEnd h _ _ _
  | .irqForce .. => kept_execIrqForce h _ _ _
  | .merCfgWrite .. => kept_execMerCfgWrite h _ _
  | .refLock .. => kept_execRefLock h
  | .refLoss .. => kept_execRefLoss h
  | .refReturn .. => kept_execRefReturn h
  | .ppsCapture .. => kept_execPpsCapture h
  | .thermalWarning .. => kept_execThermalWarning h _
  | .thermtrip .. => kept_execThermtrip h _
  | .railExcursion .. => kept_execRailExcursion h _
  | .ovrCountRead .. => kept_execOvrCountRead h _ _ _
  | .farLateRead .. => kept_execFarLateRead h _ _
  | .tokCntRead .. => kept_execTokCntRead h _ _
  | .poolEccRead .. => kept_execPoolEccRead h _ _
  | .hbmEccCeRead .. => kept_execHbmEccCeRead h _ _
  | .hbmEccUeRead .. => kept_execHbmEccUeRead h _ _
  | .sfStatRead .. => kept_execSfStatRead h _ _
  | .slcCntARead .. => kept_execSlcCntARead h _ _
  | .slcCntBRead .. => kept_execSlcCntBRead h _ _
  | .slcLoadRead .. => kept_execSlcLoadRead h _ _
  | .aspCntARead .. => kept_execAspCntARead h _ _
  | .aspCntBRead .. => kept_execAspCntBRead h _ _
  | .sspCntRead .. => kept_execSspCntRead h _ _
  | .qmgDropRead .. => kept_execQmgDropRead h _
  | .fbkLostRead .. => kept_execFbkLostRead h _
  | .glbErrCntRead .. => kept_execGlbErrCntRead h _
  | .pkgPowerRead .. => kept_execPkgPowerRead h _
  | .cwlCntCrcRead .. => kept_execCwlCntCrcRead h _ _
  | .cwlCntReplayRead .. => kept_execCwlCntReplayRead h _ _
  | .atlCntRead .. => kept_execAtlCntRead h _
  | .registerWrite .. => kept_execRegisterWrite h _ _ _ _ _
  | .boundaryScan .. => kept_execBoundaryScan h _ _
  | .vddAonLoss .. => kept_execVddAonLoss h
  | .loopbackFollower .. => kept_execLoopbackFollower h

/-- Idling keeps queue and canonical form. -/
theorem kept_idleTick (s : State) : Kept s (idleTick s) := by
  by_cases h : s.glb.state = .off
  · rw [idleTick_off h]
    exact Kept.refl s
  · rw [idleTick_on h]
    exact ⟨rfl, id⟩

/-- A step leaves the rest of the queue, and keeps the canonical form. -/
theorem step_keeps (h : step s = .next t) :
    t.pending = s.pending.tail ∧ (Memory.wf s.mem = true → Memory.wf t.mem = true) := by
  cases hq : s.pending with
  | nil =>
    rw [step_nil hq] at h
    cases h
    exact ⟨(kept_idleTick s).queue.trans hq, (kept_idleTick s).wf⟩
  | cons c rest =>
    rw [step_cons hq] at h
    have hk := kept_exec (Kept.refl { s with pending := rest }) c t h
    exact ⟨hk.queue, hk.wf⟩

/-- Settles O57: a step takes the front command and adds none, so what waits still exists, and every write of memory keeps the
canonical form. -/
theorem stepKeepsMemoryAndQueue : Obligations.StepKeepsMemoryAndQueue := by
  unfold Obligations.StepKeepsMemoryAndQueue
  intro s t h
  obtain ⟨hq, hm⟩ := step_keeps h
  refine ⟨hm, fun hf c hc => hf c (List.mem_of_mem_tail ?_), hq⟩
  rwa [← hq]

end Sys2Proof.Machine
end

section
/-! SUPPORT and obligations. The block's supplies, its monitors and its reference, the state after power-good, and the
boot-attempt counter (R335, R345, R391, R395 to R399, R403, R404, R408, R415). -/

namespace Sys2Proof.Machine

/-! ### Payloads -/

/-- A payload whose value keeps within its 48 bits (R355). -/
theorem payload_of_lt {inst v : Nat} (h : v < 2 ^ 48) : payload inst v = BitVec.ofNat 64 (inst % 2 ^ 16 * 2 ^ 48 + v) := by
  rw [payload, Nat.mod_eq_of_lt h]

/-- The byte that shows a temperature. -/
theorem tempByte_lt (t : Int) : tempByte t < 2 ^ 48 := (wrap 8 t).isLt.trans (by norm_num)

theorem fld_lt {w : Nat} (v : BitVec w) (lo n : Nat) : fld v lo n < 2 ^ n := Nat.mod_lt _ (Nat.two_pow_pos n)

/-! ### The boot-attempt counter (R345) -/

/-- The GLB page responds to every agent in every state (R289). -/
theorem pageOpen_glb (s : State) (ag : Nat) : pageOpen s ag 1 = true := by simp [pageOpen]

theorem exec_bootAck_on {s : State} (ag : Nat) (h : s.glb.state ≠ .off) : exec (.bootAck ag) s = .next (bootAck ag s) :=
  congrArg _ (atPage_responds ⟨h, pageOpen_glb s ag⟩)

/-- Settles O60: the page always responds, so the write does what the state asks. -/
theorem bootAckClearsTheCounter : Obligations.BootAckClearsTheCounter := by
  intro s ag
  refine ⟨fun h => ?service, fun hs hoff => ?refused, fun h => ?off⟩
  case service =>
    refine ⟨_, exec_bootAck_on ag (by simp [h]), ?_⟩
    rw [bootAck, if_pos h]
    exact ⟨rfl, rfl, rfl, rfl⟩
  case refused =>
    refine ⟨_, exec_bootAck_on ag hoff, ?_⟩
    rw [bootAck, if_neg hs]
    refine ⟨rfl, by simp, by simp, ?_, ?_⟩
    · simp only [refuseReg, glbErr, irqSet_glb]
      split <;> simp [*]
    · simp only [refuseReg, glbErr, irqSet_glb]
      rfl
  case off => exact congrArg Host.Outcome.next (if_pos h)

/-! ### Monitors -/

/-- Settles O26: each row is its monitor's report, its payload within 48 bits. -/
theorem monitorsReport : Obligations.MonitorsReport := by
  intro s t rail hon
  refine ⟨?warning, fun ht => ?trip, fun hr => ?rail⟩
  case warning =>
    show execThermalWarning t s = _
    rw [execThermalWarning, if_neg hon]
    simp [tempByte, setPwr]
  case trip =>
    show execThermtrip t s = _
    rw [execThermtrip, if_neg (by simp [hon, ht]), sheetPayload, payload_of_lt (tempByte_lt t)]
    rfl
  case rail =>
    show execRailExcursion rail s = _
    rw [execRailExcursion, if_neg (by omega), if_neg hon, sheetPayload, payload_of_lt (by omega)]

/-! ### The reference -/

theorem refPayload_eq (s : State) :
    refPayload s = BitVec.ofNat 64 (s.glb.sheet % 2 ^ 16 * 2 ^ 48 + fld s.mer.cfg 1 2) :=
  payload_of_lt ((fld_lt s.mer.cfg 1 2).trans (by norm_num))

/-- Settles O27: a write of CFG by its three cases, and each event of the reference by what it changes. -/
theorem referenceIsFollowed : Obligations.ReferenceIsFollowed := by
  intro s ag v
  refine ⟨writes_of (f := writeMerCfg ag v) rfl ?_, fun hon => ⟨fun hl => ⟨?lock, ?loss⟩, fun hl => ?back, ?pps⟩⟩
  · have href : (!validRef v) = true ↔ fld v 1 2 ≠ fld v 0 1 ∧ fld v 1 2 ≠ 2 := by simp [validRef]
    simp only [writeMerCfg, href]
    rfl
  case lock => exact if_neg (by simp [hon, hl])
  case loss =>
    rw [← refPayload_eq]
    exact if_neg (by simp [hon, hl])
  case back =>
    rw [← refPayload_eq]
    exact if_neg (by simp [hon, hl])
  case pps => exact if_neg hon

/-! ### Power-good and the state after it -/

/-- Settles O58: every field of the state after reset is a literal. -/
theorem resetIsSound : Obligations.ResetIsSound := by
  refine ⟨reset_memory_wf, rfl, fun c hc => (List.not_mem_nil hc).elim, rfl, rfl, rfl, rfl, rfl, rfl, fun b => rfl, fun d => rfl,
    fun r c => ⟨rfl, rfl, rfl⟩, fun r => ⟨rfl, rfl⟩, fun l => rfl, rfl, rfl, rfl, rfl⟩

/-- Power-good in Off starts up from the reset state with what the always-on supply and OTP hold (R335, R391). -/
theorem exec_powerGood {s : State} (h : s.glb.state = .off) (sheet : Nat) :
    exec (.powerGood sheet false) s = .next (powerGood sheet s) := if_pos (by simp [h])

/-- Settles O32: power-good by the fields of the state it makes, the fall of SYS_PWRGD and the loss of the always-on supply as
they stand. -/
theorem suppliesComeAndGo : Obligations.SuppliesComeAndGo := by
  intro s sheet hsheet
  refine ⟨fun hoff => ⟨if_neg (by simp), _, exec_powerGood hoff sheet, ?good⟩, fun hon => ⟨if_neg (by simp [hon]), ?fall⟩, rfl⟩
  case good =>
    have hg : (powerGood sheet s).glb = { sheet := sheet % 64 } := rfl
    rw [Nat.mod_eq_of_lt hsheet] at hg
    exact ⟨hg, rfl, rfl, rfl, rfl, rfl, rfl, rfl, rfl, rfl, rfl, rfl, rfl, rfl, rfl, rfl, rfl, rfl, rfl, rfl, rfl, rfl, rfl,
      rfl, rfl, rfl, rfl, rfl, rfl⟩
  case fall =>
    refine ⟨_, if_neg hon, ?_⟩
    exact ⟨rfl, rfl, rfl, rfl, rfl, rfl, rfl, rfl, rfl, rfl, rfl, rfl, rfl⟩

end Sys2Proof.Machine
end

section
/-! Obligation `CountersReadAndClear` (O21): the read-to-clear registers, and REGISTER_WRITE of BAR0 up to the page headers
(R14, R289, R386 to R388, R393). -/

namespace Sys2Proof.Machine

/-! ### Reads that clear (R387) -/

/-- A read row of a unit that exists, at the byte offset of its register. -/
theorem reads_unit {i : Instr} {ag off o : Nat} {s : State} {p : Prop} [Decidable p] (f : State → W32 × State)
    (h : exec i s = if p then .refused .noSuchUnit else .next (readPage ag o f s)) (hp : ¬p) (ho : o = off) :
    Reads i ag off s (f s).1 (f s).2 :=
  ho ▸ reads_of (h.trans (if_neg hp)) rfl rfl

/-! ### Writes of BAR0 -/

theorem exec_registerWrite_bar0 {s : State} (hon : s.glb.state ≠ .off) (ag off len : Nat) (v : W32) :
    exec (.registerWrite .bar0 ag off len v) s = .next (bar0Write ag off len v s) :=
  congrArg _ (if_neg hon)

/-- A write of 4 bytes at a multiple of 4 reaches its register. -/
theorem bar0Write_aligned {pg o : Nat} (h4 : o % 4 = 0) (ag : Nat) (v : W32) (s : State) :
    bar0Write ag (pg * 4096 + o) 4 v s = regWrite ag (pg * 4096 + o) v s :=
  if_neg (by omega)

section
variable {s : State} {ag pg o : Nat} {v : W32} {k : Blk} {i u : Nat}

/-- Page 0 and the pages of no block take no write. -/
theorem regWrite_unmapped (ho : o < 4096) (h : pg = 0 ∨ blockOf pg = none) :
    regWrite ag (pg * 4096 + o) v s = glbErr 2 (agentOf ag) ((pg * 4096 + o) / 4) s := by
  have hpg : (pg * 4096 + o) / 4096 = pg := by omega
  unfold regWrite
  simp only [hpg]
  rcases h with h | h
  · simp only [h, if_true, refuseReg]
  · simp only [h, refuseReg, ite_self]

/-- A write to a page of a block: closed, of a failed reed, to the common header, or to the block's own registers. -/
theorem regWrite_block (ho : o < 4096) (h0 : pg ≠ 0) (hb : blockOf pg = some (k, i, u)) :
    regWrite ag (pg * 4096 + o) v s =
      if pageOpen s ag pg = false then glbErr 3 (agentOf ag) ((pg * 4096 + o) / 4) s
      else if k = .red ∧ s.spr.failed.contains u = true then glbErr 7 (agentOf ag) ((pg * 4096 + o) / 4) s
      else if commonHeader o then headerWrite k pg o v s
      else blockWrite ag k u o v s := by
  have hpg : (pg * 4096 + o) / 4096 = pg := by omega
  have hreg : (pg * 4096 + o) % 4096 = o := by omega
  unfold regWrite
  simp only [hpg, hreg, if_neg h0, hb, Bool.not_eq_true']
  rfl

/-- A write to an open page's common header. -/
theorem regWrite_header (ho : o < 4096) (h0 : pg ≠ 0) (hb : blockOf pg = some (k, i, u)) (hopen : pageOpen s ag pg = true)
    (hk : k ≠ .red ∨ s.spr.failed.contains u = false) (hc : commonHeader o = true) :
    regWrite ag (pg * 4096 + o) v s = headerWrite k pg o v s := by
  have hn : ¬(k = .red ∧ s.spr.failed.contains u = true) := by
    rintro ⟨h1, h2⟩
    rcases hk with h | h
    · exact h h1
    · rw [h] at h2
      cases h2
  rw [regWrite_block ho h0 hb, if_neg (by simp [hopen]), if_neg hn, if_pos hc]

end

/-- IRQ_FORCE of a page of a block. -/
theorem exec_irqForce {s : State} {pg : Nat} {x : Blk × Nat × Nat} (hon : s.glb.state ≠ .off) (hb : blockOf pg = some x)
    (ag : Nat) (v : W32) : exec (.irqForce ag pg v) s = .next (regWrite ag (pg * 4096 + 0x18) v s) := by
  show execIrqForce ag pg v s = _
  simp only [execIrqForce, hb, if_neg hon]

/-- Settles O21: each read by its row, each write by the page it names. -/
theorem countersReadAndClear : Obligations.CountersReadAndClear := by
  intro s ag r n b p g m l hr hn hb hp hg hm hl
  refine ⟨reads_unit (takeOvrCount r n) rfl (by omega) (by unfold redOff; omega),
    reads_unit (takeFarLate r) rfl (by omega) (by unfold redOff; omega),
    ⟨reads_unit (takeTokCnt b) rfl (by omega) (by unfold bedOff; omega),
      reads_unit (takePoolEcc b) rfl (by omega) (by unfold bedOff; omega)⟩,
    ⟨reads_unit (takeHbmEccCe p) rfl (by omega) (by unfold hbmOff; omega),
      reads_unit (takeHbmEccUe p) rfl (by omega) (by unfold hbmOff; omega),
      reads_unit (takeSfStat p) rfl (by omega) (by unfold hbmOff; omega)⟩,
    ⟨reads_unit (takeSlcCntA g) rfl (by omega) (by unfold slcOff; omega),
      reads_unit (takeSlcCntB g) rfl (by omega) (by unfold slcOff; omega),
      reads_unit (takeSlcLoad g) rfl (by omega) (by unfold slcOff; omega)⟩,
    ⟨reads_unit (takeAspCntA m) rfl (by omega) (by unfold aspOff; omega),
      reads_unit (takeAspCntB m) rfl (by omega) (by unfold aspOff; omega)⟩,
    reads_unit (takeSspCnt b) rfl (by omega) (by unfold sspOff; omega),
    ⟨reads_unit (takeCwlCntCrc l) rfl (by omega) (by unfold cwlOff; omega),
      reads_unit (takeCwlCntReplay l) rfl (by omega) (by unfold cwlOff; omega)⟩,
    reads_of rfl rfl rfl, reads_of rfl rfl rfl, reads_of rfl rfl rfl, reads_of rfl rfl rfl, reads_of rfl rfl rfl,
    fun hon pg o len v ho => ⟨fun h => ?size, fun hl h4 h => ?unmapped, fun k i u hl h4 h0 hblk => ?block⟩⟩
  case size =>
    rw [exec_registerWrite_bar0 hon]
    exact congrArg _ (if_pos (by omega))
  case unmapped =>
    rw [exec_registerWrite_bar0 hon, hl, bar0Write_aligned h4, regWrite_unmapped ho h]
  case block =>
    subst hl
    rw [exec_registerWrite_bar0 hon, bar0Write_aligned h4]
    refine ⟨fun hc => ?_, fun hopen hk hf => ?_, fun hopen hk => ⟨fun h => ?_, fun h => ?_, fun h => ?_⟩⟩
    · rw [regWrite_block ho h0 hblk, if_pos hc]
    · rw [regWrite_block ho h0 hblk, if_neg (by simp [hopen]), if_pos ⟨hk, hf⟩]
    · subst h
      rw [regWrite_header ho h0 hblk hopen hk rfl]
      rfl
    · subst h
      rw [regWrite_header ho h0 hblk hopen hk rfl]
      rfl
    · subst h
      refine ⟨_, exec_irqForce hon hblk ag v, rfl, ?_⟩
      rw [regWrite_header ho h0 hblk hopen hk rfl]
      exact ⟨irqStat_irqSet .., rfl⟩

end Sys2Proof.Machine
end

section
/-! Obligation `EventsAreRouted` (O42): triggers, source configuration, commits, claims and ends of service (R275 to R282). -/

namespace Sys2Proof.Machine

/-- A write row of a unit that exists, at the byte offset of its register. -/
theorem writes_unit {i : Instr} {ag off o : Nat} {s : State} {p : Prop} [Decidable p] (f : State → State)
    (h : exec i s = if p then .refused .noSuchUnit else .next (atPage ag o f s)) (hp : ¬p) (ho : o = off) :
    Writes i ag off s (f s) :=
  ho ▸ writes_of (h.trans (if_neg hp)) rfl

/-! ### The order of sources: descending PRIO, then ascending number (R277, R278) -/

/-- The choice between the best source so far and the next one of the list. -/
def betterOf (best : Option (Nat × Source)) (e : Nat × Source) : Option (Nat × Source) :=
  match best with
  | some b => if b.2.prio < e.2.prio then some e else some b
  | none => some e

theorem nextCommit_eq (s : State) :
    nextCommit s = (s.srcs.filter fun e => e.2.eligible 7 && commitDue s e.2).foldl betterOf none := rfl

theorem bestOffer_eq (s : State) (n : Nat) :
    bestOffer s n = (s.srcs.filter fun e => offered s n e.2).foldl betterOf none := rfl

theorem betterOf_eq (best : Option (Nat × Source)) (e : Nat × Source) : betterOf best e = best ∨ betterOf best e = some e := by
  cases best with
  | none => exact .inr rfl
  | some b =>
    dsimp only [betterOf]
    split
    · exact .inr rfl
    · exact .inl rfl

/-- Source `x` goes before source `y` or is the same. -/
def GoesBefore (x y : Nat × Source) : Prop := y.2.prio < x.2.prio ∨ (y.2.prio = x.2.prio ∧ x.1 ≤ y.1)

/-- Over a list that rises above `b`, the fold from `b` ends with what goes before `b` and before every entry. -/
theorem foldl_betterOf_first {l : List (Nat × Source)} {b x : Nat × Source} (hl : (b :: l).Pairwise (·.1 < ·.1))
    (h : l.foldl betterOf (some b) = some x) : ∀ y ∈ b :: l, GoesBefore x y := by
  induction l generalizing b with
  | nil =>
    obtain rfl : b = x := Option.some.inj h
    exact fun y hy => List.mem_singleton.1 hy ▸ .inr ⟨rfl, le_rfl⟩
  | cons e l ih =>
    obtain ⟨hb, hel⟩ := List.pairwise_cons.1 hl
    have hbl : (b :: l).Pairwise (·.1 < ·.1) :=
      List.pairwise_cons.2 ⟨fun y hy => hb y (List.mem_cons_of_mem _ hy), (List.pairwise_cons.1 hel).2⟩
    have hbe : b.1 < e.1 := hb e List.mem_cons_self
    have hstep : betterOf (some b) e = if b.2.prio < e.2.prio then some e else some b := rfl
    rw [List.foldl_cons, hstep] at h
    by_cases hp : b.2.prio < e.2.prio
    · rw [if_pos hp] at h
      have hx := ih hel h
      have he := hx e List.mem_cons_self
      refine fun y hy => (List.mem_cons.1 hy).elim (fun hyb => ?_) (hx y)
      subst hyb
      unfold GoesBefore at he ⊢
      omega
    · rw [if_neg hp] at h
      have hx := ih hbl h
      have hb' := hx b List.mem_cons_self
      intro y hy
      rcases List.mem_cons.1 hy with rfl | hy
      · exact hb'
      · rcases List.mem_cons.1 hy with rfl | hy
        · unfold GoesBefore at hb' ⊢
          omega
        · exact hx y (List.mem_cons_of_mem _ hy)

theorem foldl_betterOf_none_first {l : List (Nat × Source)} {x : Nat × Source} (hl : l.Pairwise (·.1 < ·.1))
    (h : l.foldl betterOf none = some x) : ∀ y ∈ l, GoesBefore x y := by
  cases l with
  | nil => exact nomatch h
  | cons e l => exact foldl_betterOf_first hl h

theorem foldl_betterOf_mem {l : List (Nat × Source)} {x : Nat × Source} (h : l.foldl betterOf none = some x) : x ∈ l :=
  (foldl_best_mem betterOf_eq l none h).elim id (fun hn => nomatch hn)

/-- The ascending form of a table, said of the whole list. -/
theorem pairwise_of_sorted {α : Type} {t : Tab α} (h : Tab.sorted t = true) : t.Pairwise (·.1 < ·.1) := by
  induction t with
  | nil => exact List.Pairwise.nil
  | cons c t ih =>
    cases t with
    | nil => exact List.pairwise_singleton ..
    | cons d t =>
      obtain ⟨hlt, hs⟩ := (Bool.and_eq_true _ _).mp h
      have hcd : c.1 < d.1 := of_decide_eq_true hlt
      have hdt := ih hs
      refine List.pairwise_cons.2 ⟨fun e he => ?_, hdt⟩
      rcases List.mem_cons.1 he with rfl | he
      · exact hcd
      · exact hcd.trans ((List.pairwise_cons.1 hdt).1 e he)

/-- What the fold over the sources that satisfy `p` chooses. -/
theorem chosen_spec {t : Tab Source} {p : Source → Bool} {x : Nat × Source}
    (h : (t.filter fun e => p e.2).foldl betterOf none = some x) :
    x ∈ t ∧ p x.2 = true ∧ (Tab.sorted t = true → ∀ k y, (k, y) ∈ t → p y = true → GoesBefore x (k, y)) := by
  obtain ⟨hm, hp⟩ := List.mem_filter.1 (foldl_betterOf_mem h)
  exact ⟨hm, hp, fun hs k y hk hy =>
    foldl_betterOf_none_first ((pairwise_of_sorted hs).filter _) h _ (List.mem_filter.2 ⟨hk, hy⟩)⟩

/-- The source that the Event Router commits next is eligible and due, and goes before all that are. -/
theorem nextCommit_spec {s : State} {n : Nat} {x : Source} (h : nextCommit s = some (n, x)) :
    (n, x) ∈ s.srcs ∧ x.eligible 7 = true ∧ commitDue s x = true ∧
    (Tab.sorted s.srcs = true → ∀ k y, (k, y) ∈ s.srcs → y.eligible 7 = true → commitDue s y = true →
      GoesBefore (n, x) (k, y)) := by
  obtain ⟨hm, hp, hf⟩ := chosen_spec (p := fun y => y.eligible 7 && commitDue s y) h
  obtain ⟨he, hd⟩ := (Bool.and_eq_true _ _).mp hp
  exact ⟨hm, he, hd, fun hs k y hk hy hc => hf hs k y hk ((Bool.and_eq_true _ _).mpr ⟨hy, hc⟩)⟩

/-! ### The commands -/

theorem delivers_of {st : DevState} (hoff : st ≠ .off) (hd : st ≠ .dormant) : delivers st = true := by
  simp [delivers, hoff, hd]

theorem exec_eventCommit {s : State} {n : Nat} {x : Source} (hoff : s.glb.state ≠ .off) (hd : s.glb.state ≠ .dormant)
    (h : nextCommit s = some (n, x)) : exec .eventCommit s = .next (commitEvent n x s) := by
  show execEventCommit s = _
  rw [execEventCommit, if_pos (delivers_of hoff hd), h]

theorem commitEvent_eq (n : Nat) (x : Source) (s : State) :
    commitEvent n x s =
      if (queueOf s x.eq).takesEvents = false then
        fbRaise 0x0C05 (BitVec.ofNat 64 (n * 2 ^ 32 + x.eq)) (setSrc n { x with badq := true } s)
      else if (queueOf s x.eq).eventFull then enterFullHold x.eq s
      else postRecord x.eq (eventRecord (now s) n x) (setSrc n { x with count := 0 } s) := by
  cases h : (queueOf s x.eq).takesEvents <;> simp [commitEvent, h]

/-- The payload's last field is the PRIO on top of the stack, or 0xF for an empty one (R282). -/
theorem stackFaultPayload_eq {prio : Nat} (h : prio < 16) (n : Nat) (st : List (Nat × Nat)) :
    stackFaultPayload n prio st =
      BitVec.ofNat 64 (n * 2 ^ 48 + prio * 2 ^ 32 + st.length * 2 ^ 16 + (st.head?.map (·.1)).getD 0xF) := by
  cases st <;> simp [stackFaultPayload, Nat.mod_eq_of_lt h]

theorem claim_some {s : State} {n k : Nat} {x : Source} (h : bestOffer s n = some (k, x)) :
    claim n s = (BitVec.ofNat 32 (k + x.count * 2 ^ 16 + x.prio * 2 ^ 24),
      setSv n { svOf s n with stack := (x.prio, k) :: (svOf s n).stack } (setSrc k { x with count := 0 } s)) := by
  rw [claim, h]

theorem claim_none {s : State} {n : Nat} (h : bestOffer s n = none) : claim n s = (0xFFFF#32, s) := by
  rw [claim, h]

/-- A claim is a read of CLAIM on the Surveyor's page. -/
theorem exec_svClaim {n : Nat} (h : n < 6) (ag : Nat) (s : State) :
    exec (.svClaim ag n) s = .next (readPage ag (0x11000 + 0x1000 * n + 0x40) (claim n) s) := by
  show execSvClaim ag n s = _
  rw [execSvClaim, if_neg (by omega), show 0x11040 + 0x1000 * n = 0x11000 + 0x1000 * n + 0x40 by omega]

theorem reads_svClaim {s : State} {n : Nat} {r : W32 × State} (hn : n < 6) (ag : Nat) (h : claim n s = r) :
    Reads (.svClaim ag n) ag (0x11000 + 0x1000 * n + 0x40) s r.1 r.2 :=
  reads_of (exec_svClaim hn ag s) (congrArg Prod.fst h) (congrArg Prod.snd h)

theorem endService_eq {prio : Nat} (h : prio < 16) (n : Nat) (s : State) :
    endService n prio s =
      if (svOf s n).stack.head?.map (·.1) = some prio then setSv n { svOf s n with stack := (svOf s n).stack.tail } s
      else fireSource 8 (fbRaise 0x0C10 (BitVec.ofNat 64 (n * 2 ^ 48 + prio * 2 ^ 32 + (svOf s n).stack.length * 2 ^ 16 +
          ((svOf s n).stack.head?.map (·.1)).getD 0xF)) (setSv n { svOf s n with psf := true } s)) := by
  rw [endService, stackFaultPayload_eq h]

theorem eoiOff_eq (n : Nat) : eoiOff n = 0x11000 + 0x1000 * n + 0x44 := by unfold eoiOff; omega

/-- Settles O42: the fold over the sources in their order finds the first of highest PRIO; the rows act on what it finds. -/
theorem eventsAreRouted : Obligations.EventsAreRouted := by
  unfold Obligations.EventsAreRouted
  intro s
  refine ⟨fun ag v => writes_of rfl rfl, fun ag v => writes_of rfl rfl, fun n x hoff hd h => ?_, fun ag n hn =>
    ⟨fun k x h => ?_, fun h => reads_svClaim hn ag (claim_none h), fun prio hp => ?_,
      writes_unit (forceService n) rfl (by omega) (eoiOff_eq n)⟩⟩
  · obtain ⟨hm, he, hdue, hfirst⟩ := nextCommit_spec h
    exact ⟨hm, he, hdue, hfirst, (exec_eventCommit hoff hd h).trans (congrArg _ (commitEvent_eq n x s))⟩
  · obtain ⟨hm, ho, hfirst⟩ := chosen_spec (p := offered s n) h
    exact ⟨hm, ho, hfirst, reads_svClaim hn ag (claim_some h)⟩
  · exact endService_eq hp n s ▸ writes_unit (endService n prio) rfl (by omega) (eoiOff_eq n)

end Sys2Proof.Machine
end

section
/-! Obligation `TimersCountAndCapture` (O40): the channels of the timer/counter unit and its capture inputs (R252 to R260, R264). -/

namespace Sys2Proof.Machine

/-! ### Flags and captures on the channels -/

section
variable {s : State} {c d : Nat}

theorem chanOf_irqSet (pg : Nat) (mask : W32) : chanOf (irqSet pg mask s) d = chanOf s d := by
  simp only [chanOf, irqSet_tcu]

theorem chanOf_tcuFlag (bit : Nat) :
    chanOf (tcuFlag c bit s) d =
      if d = c then { chanOf s c with stat := putBit (chanOf s c).stat bit true } else chanOf s d := by
  have hset : chanOf (tcuFlag c bit s) d =
      chanOf (setChan c { chanOf s c with stat := putBit (chanOf s c).stat bit true } s) d := by
    unfold tcuFlag
    dsimp only
    split
    · exact chanOf_irqSet ..
    · rfl
  rw [hset]
  split
  case isTrue h => rw [h, chanOf_setChan]
  case isFalse h => exact chanOf_setChan_other _ _ _ _ h

/-- STAT after a capture: CAPV, and OVR where CAPV was set already (R260). -/
def captured (stat : BitVec 4) : BitVec 4 := putBit (if bitOf stat 2 then putBit stat 3 true else stat) 2 true

theorem chanOf_tcuCapture (v : W32) :
    chanOf (tcuCapture c v s) d =
      if d = c then { chanOf s c with cap := v, stat := captured (chanOf s c).stat } else chanOf s d := by
  unfold tcuCapture
  rw [chanOf_tcuFlag]
  split
  case isTrue h => rw [chanOf_setChan]; rfl
  case isFalse h => exact chanOf_setChan_other _ _ _ _ h

/-! ### A tick of a channel (R255) -/

/-- A capture that is taken or not. -/
def captureIf (b : Bool) (c : Nat) (v : W32) (s : State) : State := if b then tcuCapture c v s else s

theorem chanOf_captureIf (b : Bool) (v : W32) :
    chanOf (captureIf b c v s) c =
      { chanOf s c with cap := if b then v else (chanOf s c).cap
                        stat := if b then captured (chanOf s c).stat else (chanOf s c).stat } := by
  cases b with
  | false => rfl
  | true => exact (chanOf_tcuCapture v).trans (if_pos rfl)

theorem chanOf_captureIf_other (b : Bool) (v : W32) (h : d ≠ c) : chanOf (captureIf b c v s) d = chanOf s d := by
  cases b with
  | false => rfl
  | true => exact (chanOf_tcuCapture v).trans (if_neg h)

theorem chanOf_countAt (v : W32) (t : Nat) (stepped touched : Bool) :
    chanOf (countAt c v t stepped touched s) c =
      { chanOf s c with
        count := v, tick := max (chanOf s c).tick t
        matchAt := if (stepped || touched) && v == (chanOf s c).cmp then some t else (chanOf s c).matchAt
        ovfAt := if stepped && v == 0 then some t else (chanOf s c).ovfAt } := by
  unfold countAt
  dsimp only
  split
  · rw [chanOf_setChan_other _ _ _ _ (by omega), chanOf_setChan]
  · rw [chanOf_setChan]

theorem chanOf_countAt_other (v : W32) (t : Nat) (stepped touched : Bool) (h : d ≠ c) :
    chanOf (countAt c v t stepped touched s) d =
      if d = c + 1 ∧ v = 0 ∧ (chanOf s c).count ≠ 0 ∧ pairLow s c = true ∧ stepped = true then
        { chanOf s d with carries := (chanOf s d).carries ++ [t + 2] }
      else chanOf s d := by
  unfold countAt
  dsimp only
  split
  case isTrue hw =>
    by_cases hd : d = c + 1
    · subst hd
      rw [chanOf_setChan, chanOf_setChan_other _ _ _ _ h, if_pos ⟨rfl, hw⟩]
    · rw [chanOf_setChan_other _ _ _ _ hd, chanOf_setChan_other _ _ _ _ h, if_neg (fun hn => hd hn.1)]
  case isFalse hw => rw [chanOf_setChan_other _ _ _ _ h, if_neg (fun hn => hw hn.2)]

/-- The count that a tick's items set: a RESET action over the register commands (R252, R255). -/
def tickSet (items : List TcuItem) : Option W32 := if items.contains .actReset then some 0 else setBy items

/-- The channel steps at a tick that brings these items and sets no count. -/
def tickSteps (s : State) (c : Nat) (items : List TcuItem) : Bool := (tickSet items).isNone && stepsNow s c items

/-- The count after a tick that brings these items. -/
def tickCount (s : State) (c : Nat) (items : List TcuItem) : W32 :=
  (tickSet items).getD (if tickSteps s c items then (chanOf s c).count + 1 else (chanOf s c).count)

/-- CMP after one item. -/
def cmpAfter (a : W32) (i : TcuItem) : W32 :=
  match i with
  | .setCmp v => v
  | _ => a

/-- An item writes CMP. -/
def writesCmp (i : TcuItem) : Bool :=
  match i with
  | .setCmp _ => true
  | _ => false

theorem foldl_cmpAfter_of_not_mem {items : List TcuItem} (h : ∀ w, TcuItem.setCmp w ∉ items) (a : W32) :
    items.foldl cmpAfter a = a := by
  induction items generalizing a with
  | nil => rfl
  | cons i items ih =>
    have hi : cmpAfter a i = a := by
      cases i with
      | setCmp w => exact absurd List.mem_cons_self (h w)
      | _ => rfl
    rw [List.foldl_cons, hi]
    exact ih (fun w hw => h w (List.mem_cons_of_mem _ hw)) a

/-- The channel that a tick's count works on: what the items leave of it. -/
def tickBase (s : State) (c t : Nat) : State :=
  let x := chanOf s c
  let items := x.dueBy t
  let s1 := captureIf (items.contains .capture) c x.count s
  setChan c { chanOf s1 c with due := x.due.filter (fun e => t < e.1), run := runAfter x.run items,
                               cmp := items.foldl cmpAfter x.cmp } s1

theorem tcuTick_eq (s : State) (c t : Nat) :
    tcuTick c t s =
      captureIf (((chanOf s c).dueBy t).contains .event) c (tickCount s c ((chanOf s c).dueBy t))
        (countAt c (tickCount s c ((chanOf s c).dueBy t)) t (tickSteps s c ((chanOf s c).dueBy t))
          ((tickSet ((chanOf s c).dueBy t)).isSome || ((chanOf s c).dueBy t).any writesCmp) (tickBase s c t)) := by
  have hv (o : Option W32) (a : W32) : (match o with
      | some w => w
      | none => a) = o.getD a := by cases o <;> rfl
  unfold tcuTick tickCount
  rw [← hv]
  rfl

/-- The channel's own registers before it counts, but for CAP and STAT as they were but for what the items change. -/
theorem chanOf_tickBase (s : State) (c t : Nat) :
    chanOf (tickBase s c t) c =
      { chanOf s c with
        due := (chanOf s c).due.filter (fun e => t < e.1)
        run := runAfter (chanOf s c).run ((chanOf s c).dueBy t)
        cmp := ((chanOf s c).dueBy t).foldl cmpAfter (chanOf s c).cmp
        cap := if ((chanOf s c).dueBy t).contains .capture then (chanOf s c).count else (chanOf s c).cap
        stat := if ((chanOf s c).dueBy t).contains .capture then captured (chanOf s c).stat else (chanOf s c).stat } := by
  unfold tickBase
  dsimp only
  rw [chanOf_setChan, chanOf_captureIf]

theorem chanOf_tickBase_other (t : Nat) (h : d ≠ c) : chanOf (tickBase s c t) d = chanOf s d := by
  unfold tickBase
  dsimp only
  rw [chanOf_setChan_other _ _ _ _ h, chanOf_captureIf_other _ _ h]

theorem pairLow_tickBase (s : State) (c t : Nat) : pairLow (tickBase s c t) c = pairLow s c := by
  simp only [pairLow, chanOf_tickBase]

/-- The channel after its tick. -/
theorem chanOf_tcuTick (s : State) (c t : Nat) :
    let x := chanOf s c
    let items := x.dueBy t
    let v := tickCount s c items
    let cmp := items.foldl cmpAfter x.cmp
    let stepped := tickSteps s c items
    let stat := if items.contains .capture then captured x.stat else x.stat
    chanOf (tcuTick c t s) c =
      { x with
        due := x.due.filter (fun e => t < e.1), run := runAfter x.run items, cmp := cmp
        count := v, tick := max x.tick t
        matchAt := if (stepped || ((tickSet items).isSome || items.any writesCmp)) && v == cmp then some t else x.matchAt
        ovfAt := if stepped && v == 0 then some t else x.ovfAt
        cap := if items.contains .event then v else if items.contains .capture then x.count else x.cap
        stat := if items.contains .event then captured stat else stat } := by
  intro x items v cmp stepped stat
  rw [tcuTick_eq, chanOf_captureIf, chanOf_countAt, chanOf_tickBase]

theorem ovfAt_tcuTick {t : Nat} (hs : tickSteps s c ((chanOf s c).dueBy t) = true) :
    (chanOf (tcuTick c t s) c).ovfAt =
      if tickCount s c ((chanOf s c).dueBy t) = 0 then some t else (chanOf s c).ovfAt := by
  rw [chanOf_tcuTick]
  simp only [hs, Bool.true_and, beq_iff_eq]

theorem cmp_tcuTick {t : Nat} (h : ∀ w, TcuItem.setCmp w ∉ (chanOf s c).dueBy t) :
    (chanOf (tcuTick c t s) c).cmp = (chanOf s c).cmp := by
  rw [chanOf_tcuTick]
  exact foldl_cmpAfter_of_not_mem h _

theorem matchAt_tcuTick {t : Nat} (hs : tickSteps s c ((chanOf s c).dueBy t) = true)
    (hcmp : (chanOf (tcuTick c t s) c).cmp = (chanOf s c).cmp) :
    (chanOf (tcuTick c t s) c).matchAt =
      if tickCount s c ((chanOf s c).dueBy t) = (chanOf s c).cmp then some t else (chanOf s c).matchAt := by
  rw [chanOf_tcuTick] at hcmp ⊢
  dsimp only at hcmp ⊢
  simp only [hs, hcmp, Bool.true_or, Bool.true_and, beq_iff_eq]

theorem stat_tcuTick {t : Nat} (he : ((chanOf s c).dueBy t).contains .event = false)
    (hcap : ((chanOf s c).dueBy t).contains .capture = false) :
    (chanOf (tcuTick c t s) c).stat = (chanOf s c).stat := by
  rw [chanOf_tcuTick]
  simp only [he, hcap, Bool.false_eq_true, if_false]

/-- The other channels after a channel's tick: the high half of a pair takes the carry of a wrap. -/
theorem chanOf_tcuTick_other (t : Nat) (h : d ≠ c) :
    chanOf (tcuTick c t s) d =
      if d = c + 1 ∧ tickCount s c ((chanOf s c).dueBy t) = 0 ∧ (chanOf s c).count ≠ 0 ∧ pairLow s c = true ∧
          tickSteps s c ((chanOf s c).dueBy t) = true then
        { chanOf s d with carries := (chanOf s d).carries ++ [t + 2] }
      else chanOf s d := by
  rw [tcuTick_eq, chanOf_captureIf_other _ _ h, chanOf_countAt_other _ _ _ _ h, chanOf_tickBase_other _ h, pairLow_tickBase,
    chanOf_tickBase]

end

/-! ### The commands -/

section
variable {s : State} {c : Nat}

theorem tcuCounts_of (hoff : s.glb.state ≠ .off) (hd : s.glb.state ≠ .dormant) : tcuCounts s = true := by
  simp [tcuCounts, hoff, hd]

theorem exec_tcuStep {t : Nat} (hc : c < 128) (h : nextTcuTick s c = some t) (hoff : s.glb.state ≠ .off)
    (hd : s.glb.state ≠ .dormant) (ht : t ≤ now s) (hp : pageSettled s c t = true) :
    exec (.tcuStep c) s = .next (tcuTick c t s) := by
  show execTcuStep c s = _
  rw [execTcuStep, if_neg (by omega), h]
  exact if_pos (by simp [tcuCounts_of hoff hd, ht, hp])

/-- A flag set on a channel that has just been written (R260). -/
theorem tcuFlag_setChan (bit : Nat) (y : TcuChan) :
    tcuFlag c bit (setChan c y s) =
      if bitOf y.ie bit then
        irqSet (0x30 + c / 16) (BitVec.ofNat 32 (2 ^ (c % 16))) (setChan c { y with stat := putBit y.stat bit true } s)
      else setChan c { y with stat := putBit y.stat bit true } s := by
  simp only [tcuFlag, chanOf_setChan, setChan_setChan, tcuPage]

theorem exec_tcuMatch {t : Nat} (hc : c < 128) (h : (chanOf s c).matchAt = some t) :
    exec (.tcuMatch c) s = .next (tcuFlag c 0
      (setChan c { chanOf s c with matchAt := none, acts := (chanOf s c).acts ++ [(t, false)] } s)) := by
  show execTcuMatch c s = _
  simp only [execTcuMatch, if_neg (Nat.not_le.2 hc), h]

theorem exec_tcuOvf {t : Nat} (hc : c < 128) (h : (chanOf s c).ovfAt = some t) :
    exec (.tcuOvf c) s = .next (tcuFlag c 1
      (setChan c { chanOf s c with ovfAt := none, acts := (chanOf s c).acts ++ [(t, true)] } s)) := by
  show execTcuOvf c s = _
  simp only [execTcuOvf, if_neg (Nat.not_le.2 hc), h]

/-- The high channel of a pair steps by a carry: an odd channel brings no carry of its own. -/
theorem countAt_odd (hodd : c % 2 = 1) (v : W32) (t : Nat) (y : TcuChan) :
    countAt c v t true false (setChan c y s) = setChan c { y with
      count := v, tick := max y.tick t
      matchAt := if v = y.cmp then some t else y.matchAt
      ovfAt := if v = 0 then some t else y.ovfAt } s := by
  have hlow : ¬pairLow (setChan c y s) c = true := by simp [pairLow, hodd]
  unfold countAt
  dsimp only
  rw [if_neg (fun h => hlow h.2.2.1)]
  simp

theorem exec_tcuPairCarry {t : Nat} {rest : List Nat} (hc : c < 128) (h : (chanOf s c).carries = t :: rest) (ht : t ≤ now s)
    (hoff : s.glb.state ≠ .off) (hd : s.glb.state ≠ .dormant) (hdue : ∀ e ∈ (chanOf s c).due, t < e.1) :
    exec (.tcuPairCarry c) s =
      .next (countAt c ((chanOf s c).count + 1) t true false (setChan c { chanOf s c with carries := rest } s)) := by
  show execTcuPairCarry c s = _
  simp only [execTcuPairCarry, if_neg (Nat.not_le.2 hc), h]
  exact if_pos ⟨ht, tcuCounts_of hoff hd, List.all_eq_true.2 (fun e he => decide_eq_true (hdue e he))⟩

theorem exec_tcuAction {t : Nat} {ovf : Bool} {rest : List (Nat × Bool)} (hc : c < 128)
    (h : (chanOf s c).acts = (t, ovf) :: rest) (ht : t + 1 ≤ now s) :
    exec (.tcuAction c) s = .next
      (targetAction (c / 16 * 16 + fld (chanOf s c).cfg 2 4) (t + 1)
        (if ovf then fld (chanOf s c).cfg 6 3 else fld (chanOf s c).cfg 11 3)
        (selfAction c (t + 1) (if ovf then fld (chanOf s c).cfg 9 2 else fld (chanOf s c).cfg 14 2)
          (setChan c { chanOf s c with acts := rest } s))) := by
  show execTcuAction c s = _
  simp only [execTcuAction, if_neg (Nat.not_le.2 hc), h]
  exact if_pos ht

/-- A register command of a channel that exists, at the byte offset of its register. -/
theorem writes_tcuCommand {i : Instr} {ag o off : Nat} (f : Nat → State → State) (hc : c < 128)
    (h : exec i s = if 128 ≤ c then .refused .noSuchUnit else .next (tcuCommand ag c o f s)) (ho : tcuOff c o = off) :
    Writes i ag off s (f (now s + 1) s) :=
  writes_unit (fun t => f (now t + 1) t) h (by omega) ho

/-- A CAPSEL write, by what of the value is refused (R258, R259). -/
theorem writeCapsel_eq (ag j : Nat) (v : W32) (level : Bool) (s : State) :
    let w := v &&& 0x1FFFFFFF#32
    let sel := fun (y : W32) => setCap j { sel := y, level := sourceLevel s y level, edges := 0, since := now s } s
    let none' := putFld w 16 13 0
    writeCapsel ag j v level s =
      if fld w 14 2 = 3 then glbErr 5 (agentOf ag) ((0x30400 + 4 * j) / 4) (sel (putFld none' 14 2 0))
      else if capSource w = false then glbErr 5 (agentOf ag) ((0x30400 + 4 * j) / 4) (sel none')
      else sel w := by
  intro w sel none'
  dsimp only [sel, none', writeCapsel, refuseReg]
  by_cases h3 : fld w 14 2 = 3
  · simp only [w] at h3
    simp [w, h3]
  · simp only [w] at h3
    by_cases hs : capSource (v &&& 0x1FFFFFFF#32) = false
    · simp [w, h3, hs]
    · simp [w, h3, hs]

/-- An event of a capture input's filtered level, by whether its edge is selected and is the last of M (R259). -/
theorem exec_captureEvent {j : Nat} (hj : j < 64) (hoff : s.glb.state ≠ .off) (hd : s.glb.state ≠ .dormant)
    (hsel : fld (capOf s j).sel 16 13 ≠ 0) (hn : (capOf s j).since + fld (capOf s j).sel 8 6 + 1 ≤ now s) :
    let z := capOf s j
    let chosen := fld z.sel 14 2 = 2 ∨ (fld z.sel 14 2 = 0 ∧ z.level = false) ∨ (fld z.sel 14 2 = 1 ∧ z.level = true)
    let t := fun (n : Nat) => setCap j { z with level := !z.level, edges := n, since := now s } s
    exec (.captureEvent j) s = .next (
      if ¬chosen then t z.edges else if z.edges + 1 = fld z.sel 0 8 + 1 then capEvent j (t 0) else t (z.edges + 1)) := by
  intro z chosen t
  show execCaptureEvent j s = _
  unfold execCaptureEvent
  simp only [if_neg (Nat.not_le.2 hj), Bool.not_eq_true']
  rw [if_pos ⟨tcuCounts_of hoff hd, hsel, hn⟩]
  by_cases hch : chosen
  · rw [if_neg (not_not_intro hch)]
    by_cases hl : z.edges + 1 = fld z.sel 0 8 + 1
    · rw [if_pos hl]
      simp only [chosen, z] at hch hl
      simp only [hch, hl, if_true, and_self]
      rfl
    · rw [if_neg hl]
      simp only [chosen, z] at hch hl
      simp only [hch, hl, if_true, if_false, and_false]
      rfl
  · rw [if_pos hch]
    simp only [chosen, z] at hch
    simp only [hch, if_false, false_and]
    rfl

end

/-- Settles O40: a channel's tick is its captures, its items and its count in turn; the other rows write one channel or input. -/
theorem timersCountAndCapture : Obligations.TimersCountAndCapture := by
  unfold Obligations.TimersCountAndCapture
  intro s c hc x put off flag post both
  refine ⟨fun t h hoff hd ht hp => ?_, fun t h => ?_, fun t h => ?_, fun t ovf rest h ht => ?_,
    fun t rest hodd h ht hoff hd hdue => ?_, fun ag => ?_, fun j hj =>
      ⟨fun ag v level => writes_of (if_neg (by omega)) (writeCapsel_eq ag j v level s), fun hoff hd hsel hn => ?_⟩⟩
  · refine ⟨_, exec_tcuStep hc h hoff hd ht hp, ?_⟩
    have field {α : Type} (f : TcuChan → α) := congrArg f (chanOf_tcuTick s c t)
    exact ⟨field (·.count), field (·.run), field (·.tick), field (·.due), field (·.cfg), field (·.ie), field (·.acts),
      fun hs => ovfAt_tcuTick hs, fun hs hcmp => matchAt_tcuTick hs hcmp, fun h => cmp_tcuTick h, field (·.cap),
      fun he hcap => stat_tcuTick he hcap, fun d hd => chanOf_tcuTick_other t hd⟩
  · exact (exec_tcuMatch hc h).trans (congrArg _ (tcuFlag_setChan ..))
  · exact (exec_tcuOvf hc h).trans (congrArg _ (tcuFlag_setChan ..))
  · exact exec_tcuAction hc h ht
  · exact (exec_tcuPairCarry hc h ht hoff hd hdue).trans (congrArg _ (countAt_odd hodd ..))
  · exact ⟨writes_tcuCommand (tcuPostRun c · .start) hc rfl rfl, writes_tcuCommand (tcuPostRun c · .stop) hc rfl rfl,
      writes_tcuCommand (tcuPost c · .reset) hc rfl rfl, fun v =>
        ⟨writes_tcuCommand (tcuPost c · (.setCnt v)) hc rfl rfl, writes_tcuCommand (tcuPost c · (.setCmp v)) hc rfl rfl⟩⟩
  · exact exec_captureEvent hj hoff hd hsel hn

end Sys2Proof.Machine
end

section
/-! SUPPORT. Causeway links as senders and receivers: what sending on a link reaches, and what a flit row does once its header is
taken (R312, R313, R315, R316). -/

namespace Sys2Proof.Machine

/-! ### What sending reaches -/

/-- From `s` to `t` nothing changes but the links and what leaves the device. -/
def LinksOnly (s t : State) : Prop := t = { s with links := t.links, out := t.out }

theorem LinksOnly.refl (s : State) : LinksOnly s s := rfl

theorem LinksOnly.trans {s t u : State} (h : LinksOnly s t) (k : LinksOnly t u) : LinksOnly s u := by
  unfold LinksOnly at *
  rw [h] at k
  exact k

theorem LinksOnly.foldl {β : Type} {g : State → β → State} (h : ∀ t b, LinksOnly t (g t b)) (l : List β) (s : State) :
    LinksOnly s (l.foldl g s) :=
  foldl_preserves (LinksOnly s) g (fun t b ht => ht.trans (h t b)) l s (.refl s)

/-- A register that is neither the links nor the output is kept. -/
theorem LinksOnly.kept {γ : Type} {s t : State} (h : LinksOnly s t) (p : State → γ)
    (hp : ∀ (u : State) k o, p { u with links := k, out := o } = p u) : p t = p s :=
  (congrArg p h).trans (hp ..)

theorem LinksOnly.core {s t : State} (h : LinksOnly s t) : CoreKept s t :=
  ⟨h.kept (·.pending) fun _ _ _ => rfl, h.kept (·.mem) fun _ _ _ => rfl, h.kept (·.glb) fun _ _ _ => rfl,
    h.kept (·.pwr) fun _ _ _ => rfl, h.kept (·.mer) fun _ _ _ => rfl, h.kept (·.reeds) fun _ _ _ => rfl,
    h.kept (·.binding) fun _ _ _ => rfl, h.kept (·.beds) fun _ _ _ => rfl, h.kept (·.sec) fun _ _ _ => rfl⟩

theorem linksOnly_setLink (l : Nat) (x : Link) (s : State) : LinksOnly s (setLink l x s) := rfl

theorem linksOnly_sendOne (l : Nat) (s : State) : LinksOnly s (sendOne l s) := by
  unfold sendOne
  dsimp only
  split <;> rfl

theorem linksOnly_pump (l : Nat) (s : State) : LinksOnly s (pump l s) :=
  LinksOnly.foldl (fun t _ => linksOnly_sendOne l t) _ _

theorem linksOnly_sendOn (l : Nat) (m : List Flit) (s : State) : LinksOnly s (sendOn l m s) := by
  unfold sendOn
  dsimp only
  split
  · exact (linksOnly_setLink ..).trans (linksOnly_pump ..)
  · exact .refl s

theorem linksOnly_sendCtrl (l : Nat) (s : State) : LinksOnly s (sendCtrl l s) :=
  (linksOnly_setLink ..).trans (linksOnly_sendOn ..)

theorem linksOnly_acknowledge (l : Nat) (s : State) : LinksOnly s (acknowledge l s) := by
  unfold acknowledge
  dsimp only
  split
  · exact linksOnly_sendCtrl ..
  · exact .refl s

/-- A change of a link that leaves it carrying flits or not carrying them leaves the routes as they are (R316). -/
theorem routeTo_setLink {s : State} {l : Nat} {y : Link} (h : y.carries = (linkOf s l).carries) (t : Nat) :
    routeTo (setLink l y s) t = routeTo s t := by
  have hc : (fun k => (linkOf (setLink l y s) k).carries) = fun k => (linkOf s k).carries := by
    funext k
    by_cases hk : k = l
    · rw [hk, linkOf_setLink, h]
    · rw [linkOf_setLink_other _ _ _ _ hk]
  unfold routeTo
  rw [hc]
  rfl

/-! ### A flit row -/

section
variable {s : State} {l : Nat} {h : W32}

/-- The link after `n` flits are accepted, of which `y` says the rest (R313). -/
def gotFlits (l n : Nat) (y : Link) (s : State) : State :=
  setLink l { y with rxSeq := ((linkOf s l).rxSeq + n) % 1024, nakOut := false, accepted := (linkOf s l).accepted + n } s

theorem acceptFlits_eq (l n : Nat) (s : State) : acceptFlits l n s = gotFlits l n (linkOf s l) s := rfl

/-- A link that carries flits takes a flit of the row's TYPE and acknowledges it. -/
theorem onFlit_eq {ty : Nat} (hl : l < 16) (hc : (linkOf s l).carries = true) (hty : fld h 28 4 = ty) (n : Nat)
    (f : State → State) : onFlit ty l h n f s = .next (acknowledge l (f (gotFlits l n (linkOf s l) s))) := by
  unfold onFlit
  rw [if_neg (by omega), if_neg (not_not_intro hty), if_pos hc, acceptFlits_eq]

/-- The link's own state in the machine that has accepted its flits. -/
theorem linkOf_gotFlits (n : Nat) (y : Link) : linkOf (gotFlits l n y s) l =
    { y with rxSeq := ((linkOf s l).rxSeq + n) % 1024, nakOut := false, accepted := (linkOf s l).accepted + n } :=
  linkOf_setLink ..

theorem creditMem_gotFlits (n k : Nat) : creditMem l k (gotFlits l n (linkOf s l) s) =
    gotFlits l n { linkOf s l with memBack := (linkOf s l).memBack + k } s := by
  simp only [creditMem, linkOf_gotFlits]
  simp only [gotFlits, setLink_setLink]

theorem creditMgmt_gotFlits (n k : Nat) : creditMgmt l k (gotFlits l n (linkOf s l) s) =
    gotFlits l n { linkOf s l with mgmtBack := (linkOf s l).mgmtBack + k } s := by
  simp only [creditMgmt, linkOf_gotFlits]
  simp only [gotFlits, setLink_setLink]

/-- Accepted flits leave the routes as they are. -/
theorem routeTo_gotFlits {y : Link} (hy : y.carries = (linkOf s l).carries) (n t : Nat) :
    routeTo (gotFlits l n y s) t = routeTo s t := by
  unfold gotFlits
  refine routeTo_setLink ?_ t
  exact hy

end

/-- A write to HBM lines that no snoop holds back is made at once (R187). -/
theorem deviceWrite_mem_of_unsnooped {ws : List PlacedWord} {s : State} (h : ∀ p ∈ ws, snoopLine s p.1 = none) :
    (deviceWrite ws s).mem = ws.foldl putPlaced s.mem := by
  have hfold (ws : List PlacedWord) (h : ∀ p ∈ ws, snoopLine s p.1 = none) (kept : List PlacedWord) :
      ws.foldl snoopOrKeep (s, kept) = (s, kept ++ ws) := by
    induction ws generalizing kept with
    | nil => simp
    | cons p ws ih =>
      have hp : snoopOrKeep (s, kept) p = (s, kept ++ [p]) := by simp only [snoopOrKeep, h p List.mem_cons_self]
      rw [List.foldl_cons, hp, ih (fun q hq => h q (List.mem_cons_of_mem _ hq)), List.append_assoc, List.singleton_append]
  rw [deviceWrite, hfold ws h [], List.nil_append, writePlaced_mem]

end Sys2Proof.Machine
end

section
/-! Obligation `FlitsAreTaken` (O51): the flits of a Causeway link by their TYPE, and the commit of a bus (R312 to R319, R324,
R331). -/

namespace Sys2Proof.Machine

section
variable {s : State} {l : Nat} {h : W32} {body body2 : List Byte}

/-! ### Acknowledgements -/

theorem acknowledged_congr {t u : State} (h : t = u) : (.next (acknowledge l t) : Out3) = .next (acknowledge l u) :=
  congrArg (fun v => Host.Outcome.next (acknowledge l v)) h

/-- What is left after an acknowledgement of the first flit with its number (R313). -/
theorem ackThrough_append {pre post : List SentFlit} {f : SentFlit} (hpre : ∀ g ∈ pre, g.seq ≠ f.seq) :
    ackThrough f.seq (pre ++ f :: post) = post := by
  have hany : (pre ++ f :: post).any (·.seq == f.seq) = true := by simp
  have hdrop : (pre ++ f :: post).dropWhile (·.seq != f.seq) = f :: post := by
    rw [List.dropWhile_append_of_pos (by simpa using hpre), List.dropWhile_cons_of_neg (by simp)]
  rw [ackThrough, if_pos hany, hdrop, List.tail_cons]

theorem takeCtrl_gotFlits {pre post : List SentFlit} {f : SentFlit} (hu : (linkOf s l).unacked = pre ++ f :: post)
    (hf : f.seq = fld h 0 10) (hpre : ∀ g ∈ pre, g.seq ≠ f.seq) :
    takeCtrl l h body (gotFlits l 1 (linkOf s l) s) = pump l (gotFlits l 1
      { linkOf s l with
        unacked := post, ackSince := now s, memCredit := min 64 ((linkOf s l).memCredit + leValue (body.take 2))
        mgmtCredit := min 64 ((linkOf s l).mgmtCredit + leValue ((body.drop 2).take 2)) } s) := by
  have hlen : post.length < (pre ++ f :: post).length := by simp; omega
  unfold takeCtrl
  simp only [linkOf_gotFlits, hu, ← hf, ackThrough_append hpre, if_pos hlen]
  simp only [gotFlits, setLink_setLink]
  rfl

/-! ### Routed flits -/

/-- A message for another sheet is forwarded along its route, where there is one. -/
theorem forwardMsg_eq (t : Nat) (m : List Flit) (s : State) : forwardMsg t m s = match routeTo s t with
    | some k => sendOn k m s
    | none => s := rfl

/-- The link with `k` flits' credits of the memory class to return. -/
def Link.owesMem (x : Link) (k : Nat) : Link := { x with memBack := x.memBack + k }

/-- A MEMRD: routed on, answered as unreachable, or served (R316, R324). -/
theorem exec_memrdFlit (hl : l < 16) (hc : (linkOf s l).carries = true) (hty : fld h 28 4 = 4) :
    let u := gotFlits l 1 ((linkOf s l).owesMem 1) s
    exec (.memrdFlit l h body) s = .next (acknowledge l (
      if fld h 0 6 = s.glb.sheet then serveRead (fld h 10 6) (fld h 16 12) (leValue (body.take 6)) u
      else match routeTo u (fld h 0 6) with
        | some m => sendOn m [{ header := h, payload := body }] u
        | none => answerRead (fld h 10 6) (fld h 16 12) [] 2 u)) := by
  intro u
  refine (onFlit_eq hl hc hty 1 (takeMemRd l h body)).trans ?_
  rw [takeMemRd, creditMem_gotFlits, routeTo_gotFlits rfl,
    ← routeTo_gotFlits (y := (linkOf s l).owesMem 1) rfl 1 (fld h 0 6)]
  rfl

theorem serveRead_none {sheet tag addr : Nat} (ha : flitOffset s addr = none) :
    serveRead sheet tag addr s = answerRead sheet tag [] 3 s := by rw [serveRead, ha]

theorem serveRead_some {sheet tag addr a : Nat} (ha : flitOffset s addr = some a) (hs : snoopLine s (.hbm a) = none) :
    serveRead sheet tag addr s = serveLine sheet tag a s := by
  rw [serveRead, ha]
  dsimp only
  rw [hs]

/-- A MEMRSP: routed on, dropped, or given to the reader whose tag it carries (R312, R316, R324). -/
theorem exec_memrspFlit (hl : l < 16) (hc : (linkOf s l).carries = true) (hty : fld h 28 4 = 5) :
    exec (.memrspFlit l h body body2) s = .next (acknowledge l (
      let u := gotFlits l 2 ((linkOf s l).owesMem 2) s
      let status := ((padBytes 56 body2).getD 8 0).toNat
      let line := padBytes 56 body ++ (padBytes 56 body2).take 8
      if fld h 0 6 ≠ s.glb.sheet then
        forwardMsg (fld h 0 6) [{ header := h, payload := body }, { header := putBit h 9 true, payload := body2 }] u
      else match s.atl.reads.find? fun q => q.tag == fld h 16 12 with
        | none => u
        | some q => if q.agent < 544 then reedLine q status line u else engineLine q status line u)) := by
  refine (onFlit_eq hl hc hty 2 (takeMemRsp l h body body2)).trans ?_
  rw [takeMemRsp, creditMem_gotFlits]
  rfl

/-- A MEMWR: routed on, dropped, or written under its mask (R187, R312, R324). -/
theorem exec_memwrFlit (hl : l < 16) (hc : (linkOf s l).carries = true) (hty : fld h 28 4 = 6) :
    exec (.memwrFlit l h body body2) s = .next (acknowledge l (
      let u := gotFlits l 2 ((linkOf s l).owesMem 2) s
      if fld h 0 6 ≠ s.glb.sheet then
        forwardMsg (fld h 0 6) [{ header := h, payload := body }, { header := putBit h 9 true, payload := body2 }] u
      else match flitOffset s (leValue (body.take 6)) with
        | none => u
        | some a => deviceWrite (maskedWords a (leValue (((padBytes 56 body2).drop 16).take 8))
            ((padBytes 56 body).drop 8 ++ (padBytes 56 body2).take 16)) u)) := by
  refine (onFlit_eq hl hc hty 2 (takeMemWr l h body body2)).trans ?_
  rw [takeMemWr, creditMem_gotFlits]
  rfl

/-- Every word of a masked line lies in the line. -/
theorem place_of_mem_maskedWords {a mask : Nat} {line : List Byte} {p : PlacedWord} (hp : p ∈ maskedWords a mask line) :
    ∃ k < 32, p.1 = .hbm (a + k) := by
  obtain ⟨k, hk, hpk⟩ := List.mem_filterMap.1 hp
  dsimp only at hpk
  split at hpk
  · exact ⟨k, List.mem_range.1 hk, (congrArg Prod.fst (Option.some.inj hpk)).symm⟩
  · exact nomatch hpk

/-- A MGMT message: routed on, or given to Surveyor firmware (R312, R316). -/
theorem exec_mgmtFlit (hl : l < 16) (hc : (linkOf s l).carries = true) (hty : fld h 28 4 = 7) :
    exec (.mgmtFlit l h body body2) s = .next (acknowledge l (
      let n := if 56 < fld h 16 12 then 2 else 1
      let u := gotFlits l n { linkOf s l with mgmtBack := (linkOf s l).mgmtBack + n } s
      if fld h 0 6 ≠ s.glb.sheet then
        forwardMsg (fld h 0 6) (if 56 < fld h 16 12 then
          [{ header := h, payload := body }, { header := putBit h 9 true, payload := body2 }]
          else [{ header := h, payload := body }]) u
      else send (.mgmt (fld h 10 6) ((padBytes 56 body ++ padBytes 8 body2).take (fld h 16 12))) u)) := by
  refine (onFlit_eq hl hc hty _ (takeMgmt l h body body2)).trans ?_
  unfold takeMgmt
  by_cases hlen : 56 < fld h 16 12
  · simp only [hlen, decide_true, if_true, creditMgmt_gotFlits]
    rfl
  · simp only [hlen, decide_false, if_false, creditMgmt_gotFlits]
    rfl

/-! ### Loop-backs, heartbeats and audio -/

/-- A LOOP flit is compared where the loop-back runs, else returned (R331). -/
theorem exec_loopFlit (hl : l < 16) (hc : (linkOf s l).carries = true) (hty : fld h 28 4 = 8) (same : Bool) :
    let x := linkOf s l
    exec (.loopFlit l h body same) s = .next (acknowledge l (
      if fld x.loop 0 3 = 4 then
        gotFlits l 1 { x with loop := putFld x.loop 16 8 (min 255 (fld x.loop 16 8 + (!same).toNat))
                              mgmtBack := x.mgmtBack + 1 } s
      else sendOn l [{ header := h, payload := body }] (gotFlits l 1 { x with mgmtBack := x.mgmtBack + 1 } s))) := by
  intro x
  refine (onFlit_eq hl hc hty 1 (takeLoop l h body same)).trans ?_
  unfold takeLoop
  simp only [creditMgmt_gotFlits, linkOf_gotFlits]
  simp only [gotFlits, setLink_setLink]
  rfl

end

theorem coreKept_setAtl (a : Atlas) (s : State) : CoreKept s (setAtl a s) := ⟨rfl, rfl, rfl, rfl, rfl, rfl, rfl, rfl, rfl⟩

theorem coreKept_chooseTm (sender tm epoch : Nat) (s : State) : CoreKept s (chooseTm sender tm epoch s) := by
  unfold chooseTm
  dsimp only
  split
  · exact .refl s
  split
  · exact coreKept_setAtl ..
  split
  · exact coreKept_setAtl ..
  split
  · exact coreKept_setAtl ..
  · exact .refl s

theorem coreKept_takeFree (s : State) : CoreKept s (takeFree s).2 := ⟨rfl, rfl, rfl, rfl, rfl, rfl, rfl, rfl, rfl⟩

theorem coreKept_steer (sent delay recv sender : Nat) (s : State) : CoreKept s (steer sent delay recv sender s) := by
  have hirq (b : Bool) : CoreKept s (if b then irqSet atlPage 1 s else s) := by
    split
    · exact coreKept_irqSet ..
    · exact .refl s
  unfold steer
  dsimp only
  refine CoreKept.trans ?_ (coreKept_setAtl _ _)
  split
  · exact hirq _
  · exact ((hirq _).trans (coreKept_takeFree _)).trans (coreKept_takeFree _)

theorem coreKept_takeHb (l : Nat) (body : List Byte) (frac : Nat) (s : State) : CoreKept s (takeHb l body frac s) := by
  unfold takeHb
  dsimp only
  split
  · exact ((((coreKept_setLink ..).trans (coreKept_setAtl ..)).trans (coreKept_chooseTm ..)).trans
      (coreKept_setAtl ..)).trans (coreKept_steer ..)
  · exact (((coreKept_setLink ..).trans (coreKept_setAtl ..)).trans (coreKept_chooseTm ..)).trans (coreKept_setAtl ..)

/-- The buses' onward copies of an AUDIO flit (R319). -/
def forwardAudio (e : BusEntry) (m : List Flit) (d : Domain) (s : State) : State :=
  if e.txv = false ∧ d.active = true then e.links.foldl (fun t k => sendOn k m t) s else s

section
variable {s : State} {h : W32} {body : List Byte}

/-- An AUDIO flit is ignored, accepted or late, and then goes on. -/
theorem takeAudio_eq : takeAudio h body s =
    (let b := fld h 16 12
     let e := busOf s b
     forwardAudio e [{ header := h, payload := body }] (domOf s e.dom) (
      if (!e.rxv || ((busRxOf s b).cut && !(busRxOf s b).ending)) = true then s
      else if tagCurrent s e (fld h 8 8) then acceptAudio b (fld h 8 8) (fld h 0 8) e (padBytes 56 body) s
      else lateAudio b (fld h 8 8) s)) := by
  unfold takeAudio forwardAudio
  simp only [Bool.and_eq_true, Bool.not_eq_true']

theorem tagCurrent_iff (e : BusEntry) (tag : Nat) : tagCurrent s e tag = true ↔
    (domOf s e.dom).active = true ∧ (domOf s e.dom).begun = true ∧
      (tag = (domOf s e.dom).tide % 256 ∨ ((domOf s e.dom).tide ≠ 0 ∧ tag = ((domOf s e.dom).tide - 1) % 256)) := by
  simp [tagCurrent, and_assoc]

theorem takeAudio_of_not_rxv (hr : (busOf s (fld h 16 12)).rxv = false) : takeAudio h body s =
    forwardAudio (busOf s (fld h 16 12)) [{ header := h, payload := body }] (domOf s (busOf s (fld h 16 12)).dom) s := by
  rw [takeAudio_eq]
  dsimp only
  rw [hr]
  rfl

theorem takeAudio_of_rxv (hr : (busOf s (fld h 16 12)).rxv = true) (hcut : (busRxOf s (fld h 16 12)).cut = false) :
    takeAudio h body s = forwardAudio (busOf s (fld h 16 12)) [{ header := h, payload := body }]
      (domOf s (busOf s (fld h 16 12)).dom)
      (if tagCurrent s (busOf s (fld h 16 12)) (fld h 8 8) then
        acceptAudio (fld h 16 12) (fld h 8 8) (fld h 0 8) (busOf s (fld h 16 12)) (padBytes 56 body) s
      else lateAudio (fld h 16 12) (fld h 8 8) s) := by
  rw [takeAudio_eq]
  dsimp only
  rw [hr, hcut]
  rfl

end

/-! ### Buses -/

/-- A commit is refused for a bus of both directions, a range outside the reed, or a link that the topology does not name. -/
theorem busCommit_eq (ag : Nat) (v : W32) (s : State) :
    let e : BusEntry := { w0 := s.atl.busW0.getD (busOf s s.atl.busSel).w0, w1 := v &&& 0xFDFFFFFF#32 }
    let bad := (e.txv = true ∧ e.rxv = true) ∨ 0xFFFF < e.off + 2 * e.ch - 1 ∨
      ∃ k ∈ e.links, neighbour s.atl.cfg s.glb.sheet k = none
    busCommit ag v s = if bad then glbErr 5 (agentOf ag) (0x1D0078 / 4) s else
      { s with atl := { s.atl with next := Tab.set s.atl.next s.atl.busSel (some e), busW0 := none } } := by
  intro e bad
  have hbad : ((e.txv && e.rxv) || decide (0xFFFF < e.off + 2 * e.ch - 1) || e.links.any fun l => !linkUsed s l) = true ↔ bad := by
    simp [bad, linkUsed, or_assoc]
  exact if_congr hbad rfl rfl

/-- Settles O51: each TYPE's row is what its header's target and the link's own state make of an accepted flit. -/
theorem flitsAreTaken : Obligations.FlitsAreTaken := by
  unfold Obligations.FlitsAreTaken
  refine ⟨?_, fun s l => ⟨_, rfl, linksOnly_acknowledge l s⟩, fun s ag v => writes_of rfl (busCommit_eq ag v s)⟩
  intro s l h body body2 hl hc x ty src tgt here first second got goesOn
  refine ⟨?_, ?_, ?_, ?_, ?_, ?_, ?_, ?_⟩
  · intro hty pre post f hu hf hpre
    exact (onFlit_eq hl hc hty 1 (takeCtrl l h body)).trans (acknowledged_congr (takeCtrl_gotFlits hu hf hpre))
  · intro hty u
    have hx := exec_memrdFlit (body := body) hl hc hty
    refine ⟨fun ht hr => ?_, fun ht hr => ?_, fun ht ha => ?_, fun ht a ha hs => ?_⟩
    · obtain ⟨k, hk⟩ := Option.isSome_iff_exists.1 hr
      refine hx.trans (acknowledged_congr ((if_neg ht).trans ?_))
      have hg : goesOn [first] u = sendOn k [first] u := by simp only [goesOn, hk]
      rw [hg, show routeTo (gotFlits l 1 ((linkOf s l).owesMem 1) s) (fld h 0 6) = some k from hk]
      rfl
    · refine hx.trans (acknowledged_congr ((if_neg ht).trans ?_))
      rw [show routeTo (gotFlits l 1 ((linkOf s l).owesMem 1) s) (fld h 0 6) = none from hr]
      rfl
    · exact hx.trans (acknowledged_congr ((if_pos ht).trans (serveRead_none ha)))
    · exact hx.trans (acknowledged_congr ((if_pos ht).trans (serveRead_some ha hs)))
  · intro hty u
    have hx := exec_memrspFlit (body := body) (body2 := body2) hl hc hty
    refine ⟨fun ht => ?_, fun ht hq => ?_, ?_⟩
    · exact hx.trans (acknowledged_congr (if_pos ht))
    · have hnone : s.atl.reads.find? (fun q => q.tag == fld h 16 12) = none :=
        List.find?_eq_none.2 fun q hm => by simpa using hq q hm
      refine hx.trans (acknowledged_congr ((if_neg (not_not_intro ht)).trans ?_))
      rw [hnone]
      rfl
    · intro ht q rest hr hq status line
      have hsome : s.atl.reads.find? (fun q => q.tag == fld h 16 12) = some q := by
        rw [hr]
        exact List.find?_cons_of_pos (by simpa using hq)
      refine hx.trans (acknowledged_congr ((if_neg (not_not_intro ht)).trans ?_))
      rw [hsome]
      rfl
  · intro hty u
    have hx := exec_memwrFlit (body := body) (body2 := body2) hl hc hty
    refine ⟨fun ht => ?_, fun ht ha => ?_, fun ht a ha _ hs => ?_⟩
    · exact hx.trans (acknowledged_congr (if_pos ht))
    · refine hx.trans (acknowledged_congr ((if_neg (not_not_intro ht)).trans ?_))
      rw [ha]
      rfl
    · dsimp only at hx
      rw [if_neg (not_not_intro ht), ha] at hx
      refine ⟨_, hx, (linksOnly_acknowledge l _).core.mem.trans ?_⟩
      refine (deviceWrite_mem_of_unsnooped fun p hp => ?_).trans rfl
      obtain ⟨k, hk, hpk⟩ := place_of_mem_maskedWords hp
      exact hpk ▸ hs k hk
  · intro hty len n u
    have hx := exec_mgmtFlit (body := body) (body2 := body2) hl hc hty
    exact ⟨fun ht => hx.trans (acknowledged_congr (if_pos ht)),
      fun ht => hx.trans (acknowledged_congr (if_neg (not_not_intro ht)))⟩
  · intro hty same
    have hx := exec_loopFlit (body := body) hl hc hty same
    exact ⟨fun hd => hx.trans (acknowledged_congr (if_pos hd)), fun hd => hx.trans (acknowledged_congr (if_neg hd))⟩
  · intro hty frac
    have hk := (coreKept_takeHb l body frac (gotFlits l 1 x s)).trans (linksOnly_acknowledge l _).core
    exact ⟨_, onFlit_eq hl hc hty 1 (takeHb l body frac), hk.mem, hk.mer, hk.reeds⟩
  · intro hty b tag e d y u present forward
    have hx : exec (.audioFlit l h body) s = .next (acknowledge l (takeAudio h body u)) :=
      onFlit_eq hl hc hty 1 (takeAudio h body)
    refine ⟨fun hr hcut hp => ?_, fun hr hcut hp => ?_, fun hr => ?_⟩
    · exact hx.trans (acknowledged_congr ((takeAudio_of_rxv (s := u) hr hcut).trans
        (congrArg forward (if_pos ((tagCurrent_iff ..).2 hp)))))
    · exact hx.trans (acknowledged_congr ((takeAudio_of_rxv (s := u) hr hcut).trans
        (congrArg forward (if_neg fun hc => hp ((tagCurrent_iff ..).1 hc)))))
    · exact hx.trans (acknowledged_congr (takeAudio_of_not_rxv (s := u) hr))

end Sys2Proof.Machine
end

section
/-! Obligation `AtlasKeepsTimeAndMaster` (O52): joining and leaving, heartbeats, partition, promotion and rejoin (R308, R310, R322,
R325 to R329). -/

namespace Sys2Proof.Machine

/-- What every element's step establishes and no step undoes holds of all elements after the fold. -/
theorem foldl_establishes {β σ : Type} {P : β → σ → Prop} {g : σ → β → σ} (hown : ∀ t b, P b (g t b))
    (hkeep : ∀ t b c, P c t → P c (g t b)) {l : List β} {b : β} (hb : b ∈ l) (s : σ) : P b (l.foldl g s) := by
  induction l generalizing s with
  | nil => exact absurd hb List.not_mem_nil
  | cons c l ih =>
    rcases List.mem_cons.1 hb with rfl | hb
    · exact foldl_preserves (P b) g (fun t c => hkeep t c b) l _ (hown s b)
    · exact ih hb _

/-! ### Links that go down -/

section
variable {s : State} {l k : Nat}

theorem linkOf_irqSet (pg : Nat) (m : W32) : linkOf (irqSet pg m s) k = linkOf s k := by simp only [linkOf, irqSet_links]

/-- Whether it is reported or not, a link that goes down is the only one that changes. -/
theorem linkOf_linkDown (reason : Nat) : linkOf (linkDown l reason s) k =
    linkOf (setLink l { (linkOf s l).clearLayer with state := .down, lanes := 0, since := now s } s) k := by
  unfold linkDown
  dsimp only
  split
  · exact linkOf_irqSet ..
  · rfl

theorem linkDown_state (reason : Nat) : (linkOf (linkDown l reason s) l).state = .down := by
  rw [linkOf_linkDown, linkOf_setLink]

theorem linkDown_atl (reason : Nat) : (linkDown l reason s).atl = s.atl := by
  unfold linkDown
  dsimp only
  split
  · exact irqSet_atl ..
  · rfl

end

/-- A link is taken down unless it is down already (R308). -/
def downUnlessDown (t : State) (l : Nat) : State := if (linkOf t l).state = .down then t else linkDown l 4 t

theorem downUnlessDown_own (t : State) (l : Nat) : (linkOf (downUnlessDown t l) l).state = .down := by
  unfold downUnlessDown
  split
  · assumption
  · exact linkDown_state 4

theorem downUnlessDown_keeps (t : State) (l k : Nat) (h : (linkOf t k).state = .down) :
    (linkOf (downUnlessDown t l) k).state = .down := by
  by_cases hk : k = l
  · exact hk ▸ downUnlessDown_own t k
  · unfold downUnlessDown
    split
    · exact h
    · rwa [linkOf_linkDown, linkOf_setLink_other _ _ _ _ hk]

theorem coreKept_downUnlessDown (t : State) (l : Nat) : CoreKept t (downUnlessDown t l) := by
  unfold downUnlessDown
  split
  · exact .refl t
  · exact coreKept_linkDown ..

theorem downUnlessDown_atl (t : State) (l : Nat) : (downUnlessDown t l).atl = t.atl := by
  unfold downUnlessDown
  split
  · rfl
  · exact linkDown_atl 4

/-- Leaving the atlas takes every link down and clears what the atlas had brought (R308). -/
theorem leaveAtlas_eq {s : State} (h : s.atl.en = true) :
    let s1 := (List.range 16).foldl downUnlessDown s
    leaveAtlas s = setAtl { s1.atl with
      en := false, tmaster := false, curTm := none, locked := false, holdover := false
      partition := false, slewing := false, hops := 0, ageAt := [], lost := []
      rx := s1.atl.rx.map fun r => (r.1, { r.2 with cut := false, subst := 0, ending := false }) } s1 := by
  have hstep : (fun (t : State) l => if (linkOf t l).state = .down then t else linkDown l 4 t) = downUnlessDown := rfl
  unfold leaveAtlas
  rw [if_neg (by simp [h]), hstep]

/-! ### Heartbeats -/

/-- Two states of a link hold the same heartbeat for the echo. -/
def SameEcho (x y : Link) : Prop := y.hbSent = x.hbSent ∧ y.hbTime = x.hbTime ∧ y.delay = x.delay

theorem SameEcho.refl (x : Link) : SameEcho x x := ⟨rfl, rfl, rfl⟩

theorem SameEcho.trans {x y z : Link} (h : SameEcho x y) (k : SameEcho y z) : SameEcho x z :=
  ⟨k.1.trans h.1, k.2.1.trans h.2.1, k.2.2.trans h.2.2⟩

theorem sameEcho_emitMsgs (l t : Nat) (m : List Flit) (acc : Link × List Out) :
    SameEcho acc.1 (m.foldl (emitMsg l t) acc).1 :=
  foldl_preserves (fun a => SameEcho acc.1 a.1) (emitMsg l t) (fun _ _ h => h.trans ⟨rfl, rfl, rfl⟩) m acc (.refl _)

section
variable {s : State} {l : Nat}

theorem sameEcho_sendOne : SameEcho (linkOf s l) (linkOf (sendOne l s) l) := by
  unfold sendOne
  dsimp only
  split
  case h_1 m _ =>
    change SameEcho _ (linkOf (setLink l _ s) l)
    rw [linkOf_setLink]
    exact sameEcho_emitMsgs l (now s) m ({ linkOf s l with waiting := dropFirst m (linkOf s l).waiting }, [])
  case h_2 => exact .refl _

theorem sameEcho_pump : SameEcho (linkOf s l) (linkOf (pump l s) l) :=
  foldl_preserves (fun t => SameEcho (linkOf s l) (linkOf t l)) (fun t _ => sendOne l t) (fun _ _ h => h.trans sameEcho_sendOne) _ _ (.refl _)

theorem sameEcho_sendOn (m : List Flit) : SameEcho (linkOf s l) (linkOf (sendOn l m s) l) := by
  unfold sendOn
  dsimp only
  split
  · refine SameEcho.trans ?_ sameEcho_pump
    rw [linkOf_setLink]
    exact ⟨rfl, rfl, rfl⟩
  · exact .refl _

theorem sameEcho_acknowledge : SameEcho (linkOf s l) (linkOf (acknowledge l s) l) := by
  unfold acknowledge sendCtrl
  dsimp only
  split
  · refine SameEcho.trans ?_ (sameEcho_sendOn _)
    rw [linkOf_setLink]
    exact ⟨rfl, rfl, rfl⟩
  · exact .refl _

end

theorem chooseTm_links (sender tm epoch : Nat) (s : State) : (chooseTm sender tm epoch s).links = s.links := by
  unfold chooseTm
  dsimp only
  split
  · rfl
  split
  · rfl
  split
  · rfl
  split <;> rfl

theorem steer_links (sent delay recv sender : Nat) (s : State) : (steer sent delay recv sender s).links = s.links := by
  have hirq (b : Bool) : (if b then irqSet atlPage 1 s else s).links = s.links := by
    split
    · exact irqSet_links ..
    · rfl
  unfold steer
  dsimp only
  rw [setAtl_links]
  split
  · exact hirq _
  · exact hirq _

/-- The link keeps the heartbeat that it took, and the delay that its echo shows (R322, R325). -/
theorem linkOf_takeHb (l : Nat) (body : List Byte) (frac : Nat) (s : State) :
    let b := padBytes 56 body
    let stamp := fun (i : Nat) => leValue ((b.drop i).take 8) * 65536 + leValue ((b.drop (i + 8)).take 2)
    let recv := now s * 65536 + frac % 65536
    linkOf (takeHb l body frac s) l = { linkOf s l with
      hbSent := stamp 6, hbTime := recv
      delay := BitVec.ofNat 32 ((hbDelay recv (stamp 6) (stamp 16) (stamp 26)).getD (linkOf s l).delay.toNat) } := by
  intro b stamp recv
  have hlinks : (takeHb l body frac s).links = (setLink l { linkOf s l with
      hbSent := stamp 6, hbTime := recv
      delay := BitVec.ofNat 32 ((hbDelay recv (stamp 6) (stamp 16) (stamp 26)).getD (linkOf s l).delay.toNat) } s).links := by
    unfold takeHb
    dsimp only
    split
    · rw [steer_links, setAtl_links, chooseTm_links, setAtl_links]
    · rw [setAtl_links, chooseTm_links, setAtl_links]
  unfold linkOf at hlinks ⊢
  rw [hlinks]
  exact linkOf_setLink l _ s

theorem hbDelay_ofNat (recv sent echoSent echoRecv : Nat) (d : W32) :
    BitVec.ofNat 32 ((hbDelay recv sent echoSent echoRecv).getD d.toNat) =
      if echoSent = 0 then d else BitVec.ofNat 32 ((recv - echoSent - (sent - echoRecv)) / 2) := by
  unfold hbDelay
  split
  · exact (BitVec.ofNat_toNat ..).trans (BitVec.setWidth_eq _)
  · rfl

/-! ### Partition, promotion and rejoin -/

section
variable {s : State} {b : Nat}

/-- The receiving side of a bus whose sender lies in the other part, at the beginning of a partition (R328). -/
def BusRx.severed (x : BusRx) : BusRx := { x with cut := true, subst := 0, ending := false }

theorem BusRx.severed_severed (x : BusRx) : x.severed.severed = x.severed := rfl

/-- A bus that receives is severed. -/
def cutBus (t : State) (b : Nat) : State := if (busOf t b).rxv then setBusRx b (busRxOf t b).severed t else t

/-- Cutting buses reaches their receiving sides alone. -/
theorem foldl_cutBus_eq (cut : List Nat) (s : State) :
    cut.foldl cutBus s = setAtl { s.atl with rx := (cut.foldl cutBus s).atl.rx } s :=
  foldl_preserves (fun t => t = setAtl { s.atl with rx := t.atl.rx } s) cutBus (fun t b ht => by
    unfold cutBus
    split
    · rw [setBusRx, ht]
      rfl
    · exact ht) cut s rfl

theorem busRxOf_cutBus (t : State) (c : Nat) : busRxOf (cutBus t c) b =
    if b = c ∧ (busOf t b).rxv = true then (busRxOf t b).severed else busRxOf t b := by
  have hset (y : BusRx) : busRxOf (setBusRx c y t) b = if b = c then y else busRxOf t b := Tab.get_set ..
  unfold cutBus
  by_cases hb : b = c
  · subst hb
    by_cases h : (busOf t b).rxv = true
    · simp [h, hset]
    · simp [h]
  · by_cases h : (busOf t c).rxv = true
    · simp [h, hset, hb]
    · simp [h, hb]

theorem busOf_cutBus (t : State) (c : Nat) : busOf (cutBus t c) b = busOf t b := by
  unfold cutBus
  split <;> rfl

/-- The receiving side of a bus after a partition that cuts some. -/
theorem busRxOf_foldl_cutBus (cut : List Nat) (s : State) : busRxOf (cut.foldl cutBus s) b =
    if b ∈ cut ∧ (busOf s b).rxv = true then (busRxOf s b).severed else busRxOf s b := by
  induction cut generalizing s with
  | nil => exact (if_neg fun hn => List.not_mem_nil hn.1).symm
  | cons c cut ih =>
    rw [List.foldl_cons, ih, busOf_cutBus, busRxOf_cutBus]
    by_cases hr : (busOf s b).rxv = true
    · by_cases hc : b = c
      · subst hc
        simp [hr, BusRx.severed_severed]
      · simp [hr, hc]
    · simp [hr]

theorem takePartition_eq (cut : List Nat) (s : State) :
    let u := cut.foldl cutBus (setAtl { s.atl with partition := true, holdover := true } s)
    takePartition cut s = fbRaise 0x0813 (payload s.glb.sheet 0)
      (fbRaise 0x0810 (payload s.glb.sheet (curTmOf s)) (irqSet 0x1D0 6 u)) := by
  intro u
  have hstep : (fun (t : State) b => if (busOf t b).rxv then
      setBusRx b { busRxOf t b with cut := true, subst := 0, ending := false } t else t) = cutBus := rfl
  unfold takePartition atlPayload atlPage
  rw [hstep]

end

/-- This sheet's rank is the first that names it. -/
theorem ownRank_eq {s : State} {k : Nat} (hk : k < 8) (h : successor s.atl k = some s.glb.sheet)
    (hfirst : ∀ j, j < k → successor s.atl j ≠ some s.glb.sheet) : ownRank s = some k := by
  rw [ownRank, List.find?_range_eq_some]
  exact ⟨beq_iff_eq.2 h, List.mem_range.2 hk, fun j hj => by simpa using hfirst j hj⟩

theorem outranked_iff (s : State) (k : Nat) : outranked s k = true ↔
    ∀ j, j < k → ∀ sh, successor s.atl j = some sh → ∀ age, ageOf s (j + 1) = some age → silentTicks s ≤ age := by
  unfold outranked
  simp only [List.all_eq_true, List.mem_range]
  refine forall₂_congr fun j _ => ?_
  cases successor s.atl j with
  | none => simp
  | some sh => cases ageOf s (j + 1) <;> simp

/-! ### The commands -/

section
variable {s : State}

/-- A heartbeat goes out on every link that carries flits, once its time has come (R325). -/
theorem exec_hbSend (s : State) : exec .hbSend s = if s.atl.en = true ∧ s.atl.hbAt + hbTicks s ≤ now s then
    .next ((List.range 16).foldl (fun t l => if (linkOf t l).carries then sendOn l [mkFlit 2 0 (hbPayload t (linkOf t l))] t else t)
      (setAtl { s.atl with hbAt := now s } s)) else .next s :=
  if_congr (by simp) rfl rfl

theorem exec_promotion {k : Nat} (hr : ownRank s = some k) (hp : s.atl.partition = true) (ht : s.atl.tmaster = false)
    (hs : s.atl.slewing = false) : exec .promotion s =
      if outranked s k then
        let e := (s.atl.epoch + 1) % 2 ^ 16
        .next (fbRaise 0x0811 (payload s.glb.sheet e) (irqSet 0x1D0 8
          (setAtl { s.atl with epoch := e, tmaster := true, curTm := some s.glb.sheet, hops := 0 } s)))
      else .next s := by
  show execPromotion s = _
  rw [execPromotion, hr]
  simp only [hp, ht, hs, Bool.not_false, Bool.and_self, Bool.true_and]
  rfl

theorem exec_partition {age : Nat} (cut : List Nat) (he : s.atl.en = true) (ht : s.atl.tmaster = false)
    (hp : s.atl.partition = false) (ha : ageOf s 0 = some age) :
    exec (.partition cut) s = if silentTicks s ≤ age then .next (takePartition cut s) else .next s := by
  show execPartition cut s = _
  simp only [execPartition, partitionDue, he, ht, hp, ha, Bool.not_false, Bool.and_self, Bool.true_and, decide_eq_true_eq]

theorem exec_successorUnreachable {k sheet age : Nat} (hk : k < 8) (he : s.atl.en = true) (hp : s.atl.partition = false)
    (hl : k ∉ s.atl.lost) (hs : successor s.atl k = some sheet) (ha : ageOf s (k + 1) = some age) (h : silentTicks s < age) :
    exec (.successorUnreachable k) s =
      .next (fbRaise 0x0817 (payload s.glb.sheet sheet) (setAtl { s.atl with lost := insertNat k s.atl.lost } s)) := by
  show execSuccessorUnreachable k s = _
  rw [execSuccessorUnreachable, hs, ha]
  exact if_pos ⟨hk, he, by simp [hp], by simp [hl], h⟩

/-- A rejoin is refused outside a part's lead or beyond MAXERR, else the part follows the other tidemaster (R329). -/
theorem rejoin_eq (tm err : Nat) (s : State) :
    rejoin tm err s =
      if ¬(s.atl.tmaster = true ∧ s.atl.partition = true) then irqSet 0x1D0 16 (setAtl { s.atl with result := 3 } s)
      else if s.atl.maxErr < err then
        fbRaise 0x0816 (payload s.glb.sheet tm) (irqSet 0x1D0 16 (setAtl { s.atl with result := 2 } s))
      else fbRaise 0x0814 (payload s.glb.sheet tm) (setAtl
        { s.atl with tmaster := false, curTm := some tm, slewing := true, joining := tm, locked := false
                     ageAt := s.atl.ageAt.filter (·.1 != 0), hops := hopsBetween s.atl.cfg s.glb.sheet tm } s) := by
  have hlead : (!s.atl.tmaster || !s.atl.partition) = true ↔ ¬(s.atl.tmaster = true ∧ s.atl.partition = true) := by
    simp only [Bool.or_eq_true, Bool.not_eq_true', not_and_or, Bool.not_eq_true]
  exact if_congr hlead rfl rfl

theorem exec_rejoinComplete (h : s.atl.slewing = true) : exec .rejoinComplete s =
    .next (fbRaise 0x0815 (payload s.glb.sheet s.atl.joining) (irqSet 0x1D0 16 (setAtl { s.atl with
      partition := false, holdover := false, slewing := false, result := 1
      rx := s.atl.rx.map fun r => (r.1, { r.2 with ending := r.2.cut }) } s))) :=
  if_pos h

theorem busRxOf_congr {t u : State} (h : t.atl = u.atl) (b : Nat) : busRxOf t b = busRxOf u b := by
  rw [busRxOf, busRxOf, h]

end

/-- Settles O52: each row's condition decides between its effect and none; links and buses change one by one over the lists. -/
theorem atlasKeepsTimeAndMaster : Obligations.AtlasKeepsTimeAndMaster := by
  unfold Obligations.AtlasKeepsTimeAndMaster
  intro s a put pay us8 us1
  refine ⟨fun ag => writes_of rfl rfl, fun ag he => writes_of rfl (if_pos (by rw [show s.atl.en = false from he]; rfl)),
    fun ag he hr => ?_, fun he ht => (exec_hbSend s).trans (if_pos ⟨he, ht⟩), fun hn => (exec_hbSend s).trans (if_neg hn),
    fun l h body frac hl hc hty => ?_, fun cut age he ht hp ha => ⟨fun h => ?_, fun h => ?_⟩,
    fun k sheet age hk he hp hl hs ha h => exec_successorUnreachable hk he hp hl hs ha h,
    fun k hk hs hf hp ht hsl => ⟨fun h => ?_, fun j sh age hj hsh ha h => ?_⟩,
    fun ag tm err htm => rejoin_eq tm err s ▸ writes_unit (rejoin tm err) rfl (Nat.not_le.2 htm) rfl,
    fun h => if_neg (Bool.eq_false_iff.1 h), fun h => ⟨_, exec_rejoinComplete h, ?_⟩⟩
  · have hx : exec (.atlasLeave ag) s = .next (leaveAtlas s) := congrArg _ (atPage_responds hr)
    have hcore := CoreKept.foldl coreKept_downUnlessDown (List.range 16) s
    have hatl : ((List.range 16).foldl downUnlessDown s).atl = s.atl := foldl_keeps (·.atl) _ downUnlessDown_atl _ s
    have hdown (l : Nat) (hl : l < 16) : (linkOf ((List.range 16).foldl downUnlessDown s) l).state = .down :=
      foldl_establishes (P := fun l t => (linkOf t l).state = .down) downUnlessDown_own downUnlessDown_keeps
        (List.mem_range.2 hl) s
    rw [leaveAtlas_eq he] at hx
    generalize (List.range 16).foldl downUnlessDown s = s1 at hx hcore hatl hdown
    exact ⟨_, hx, hdown, rfl, rfl, rfl, rfl, rfl, rfl, (congrArg Atlas.buses hatl : s1.atl.buses = s.atl.buses),
      hcore.mem, hcore.reeds, hcore.mer⟩
  · intro x b stamp recv sent round
    refine ⟨_, onFlit_eq hl hc hty 1 (takeHb l body frac), ?_⟩
    have hy := sameEcho_acknowledge (s := takeHb l body frac (gotFlits l 1 x s)) (l := l)
    rw [linkOf_takeHb, linkOf_gotFlits] at hy
    obtain ⟨hsent, htime, hdelay⟩ := hy
    exact ⟨hsent, htime, hdelay.trans (hbDelay_ofNat ..)⟩
  · exact (exec_partition cut he ht hp ha).trans (if_neg (Nat.not_le.2 h))
  · refine ⟨_, (exec_partition cut he ht hp ha).trans (if_pos h), ?_⟩
    rw [takePartition_eq]
    have hu := foldl_cutBus_eq cut (setAtl { s.atl with partition := true, holdover := true } s)
    have hb (b : Nat) := busRxOf_foldl_cutBus (b := b) cut (setAtl { s.atl with partition := true, holdover := true } s)
    generalize cut.foldl cutBus (setAtl { s.atl with partition := true, holdover := true } s) = u at hu hb
    have hatl : (fbRaise 0x0813 (pay 0) (fbRaise 0x0810 (pay (curTmOf s)) (irqSet 0x1D0 6 u))).atl = u.atl := irqSet_atl ..
    have hput : u = put u.atl := hu.trans (by rw [congrArg State.atl hu]; rfl)
    refine ⟨?_, fun b => ?_, ?_⟩
    · rw [hatl]
      exact congrArg State.atl hu
    · exact (busRxOf_congr hatl b).trans (hb b)
    · rw [hatl, ← hput]
      rfl
  · exact (exec_promotion (ownRank_eq hk hs hf) hp ht hsl).trans (if_pos ((outranked_iff s k).2 h))
  · refine (exec_promotion (ownRank_eq hk hs hf) hp ht hsl).trans (if_neg fun ho => ?_)
    exact absurd ((outranked_iff s k).1 ho j hj sh hsh age ha) (Nat.not_le.2 h)
  · have hatl (b : Atlas) : (fbRaise 0x0815 (pay a.joining) (irqSet 0x1D0 16 (setAtl b s))).atl = b := irqSet_atl ..
    refine ⟨?_, ?_, ?_, ?_, fun b => ?_, ?_⟩
    · rw [hatl]
    · rw [hatl]
    · rw [hatl]
    · rw [hatl]
    · refine (congrArg BusRx.ending (busRxOf_congr (u := setAtl _ s) (hatl _) b)).trans ?_
      exact congrArg BusRx.ending (Tab.get_map (f := fun x : BusRx => { x with ending := x.cut }) rfl s.atl.rx b)
    · rw [hatl]
      rfl

end Sys2Proof.Machine
end

section
/-! Obligation `LinksTrainReplayAndDegrade` (O50): Causeway links train, replay, change lanes and go down, and their loop-backs
(R309, R310, R313, R314, R331, R333). -/

namespace Sys2Proof.Machine

section
variable {s : State} {l : Nat}

/-! ### Training and going down -/

/-- The conditions on the device and its atlas under which an enabled link trains (R9, R309, R310). -/
abbrev MayTrain (s : State) (l : Nat) : Prop :=
  s.atl.en = true ∧ (neighbour s.atl.cfg s.glb.sheet l).isSome = true ∧ s.glb.state ≠ .dormant ∧ s.glb.state ≠ .off

theorem startTraining_eq : startTraining l s =
    if (linkOf s l).en = true ∧ MayTrain s l then
      setLink l { (linkOf s l).clearLayer with state := .train, since := now s } s
    else s := by
  refine if_congr ?_ rfl rfl
  simp [MayTrain, linkUsed, and_assoc]

/-- Training of a link that has just been written. -/
theorem startTraining_setLink (y : Link) : startTraining l (setLink l y s) =
    setLink l (if y.en = true ∧ MayTrain s l then { y.clearLayer with state := .train, since := now s } else y) s := by
  have h : startTraining l (setLink l y s) = if y.en = true ∧ MayTrain s l then
      setLink l { y.clearLayer with state := .train, since := now s } s else setLink l y s := by
    refine if_congr ?_ ?_ rfl
    · simp [MayTrain, linkUsed, and_assoc]
    · rw [linkOf_setLink, setLink_setLink]
      rfl
  rw [h]
  split <;> rfl

/-- Going down of a link that has just been written. -/
theorem linkDown_setLink (reason : Nat) (y : Link) : linkDown l reason (setLink l y s) =
    if y.carries then
      fbRaise 0x0802 (payload s.glb.sheet (l * 2 ^ 32 + reason)) (irqSet (0x1C0 + l) 1
        (setLink l { y.clearLayer with state := .down, lanes := 0, since := now s } s))
    else setLink l { y.clearLayer with state := .down, lanes := 0, since := now s } s := by
  unfold linkDown
  simp only [linkOf_setLink, setLink_setLink]
  rfl

theorem enableLink_eq : enableLink l s =
    if (linkOf s l).en then s else
      let y := { linkOf s l with en := true }
      setLink l (if y.en = true ∧ MayTrain s l then { y.clearLayer with state := .train, since := now s } else y) s := by
  unfold enableLink
  simp only [startTraining_setLink]

theorem disableLink_eq : disableLink l s =
    if (linkOf s l).en then
      let y := { linkOf s l with en := false }
      if y.carries then
        fbRaise 0x0802 (payload s.glb.sheet (l * 2 ^ 32 + 4)) (irqSet (0x1C0 + l) 1
          (setLink l { y.clearLayer with state := .down, lanes := 0, since := now s } s))
      else setLink l { y.clearLayer with state := .down, lanes := 0, since := now s } s
    else s := by
  unfold disableLink
  simp only [linkDown_setLink]

theorem exec_cwlTrained (hl : l < 16) (cfg : W32) (psheet plink : Nat) :
    exec (.cwlTrained l cfg psheet plink) s = .next (linkTrained l cfg psheet plink s) :=
  if_neg (Nat.not_le.2 hl)

theorem exec_miswiredRetry (hl : l < 16) (h : (linkOf s l).state = .miswired) (ht : (linkOf s l).since + msTicks s ≤ now s) :
    exec (.miswiredRetry l) s = .next (startTraining l s) :=
  (if_neg (Nat.not_le.2 hl)).trans (if_pos ⟨h, ht⟩)

/-! ### Replay (R313) -/

/-- The flits as they are resent. -/
def resent (fs : List SentFlit) : List SentFlit := fs.map fun g => { g with replays := g.replays + 1 }

/-- A replay of the flits `fs` in order, by itself: counted, and recorded with the first one's number. -/
def replayed (l : Nat) (fs : List SentFlit) (first : Nat) (t : State) : State :=
  fbRaise 0x0806 (cwlPayload t l first)
    { setLink l { linkOf t l with
        unacked := resent fs, cntReplay := satInc 0xFFFFFFFF (linkOf t l).cntReplay, ackSince := now t } t with
      out := t.out ++ (resent fs).map fun g => .flit l (g.flit.bytes g.seq) }

theorem any_resent_iff (fs : List SentFlit) :
    ((resent fs).any fun g => decide (8 ≤ g.replays)) = true ↔ ∃ g ∈ fs, 7 ≤ g.replays := by
  simp [resent]

/-- No flit is kept back where every flit without an acknowledgement is resent. -/
theorem filter_resent_eq_nil (fs : List SentFlit) : (fs.filter fun g => !fs.any (·.seq == g.seq)) = [] := by
  rw [List.filter_eq_nil_iff]
  intro g hg
  simp only [Bool.not_eq_true', Bool.not_eq_false, List.any_eq_true, beq_iff_eq]
  exact ⟨g, hg, rfl⟩

theorem replay_eq {f : SentFlit} {post : List SentFlit} (hu : (linkOf s l).unacked = f :: post) :
    replay l (f :: post) s =
      if ∃ g ∈ f :: post, 7 ≤ g.replays then linkRetrain l 1 (replayed l (f :: post) f.seq s)
      else replayed l (f :: post) f.seq s := by
  have hkeep : ((linkOf s l).unacked.filter fun g => !(f :: post).any (·.seq == g.seq)) = [] := by
    rw [hu, filter_resent_eq_nil]
  unfold replay
  dsimp only
  rw [hkeep, List.nil_append]
  exact if_congr (any_resent_iff _) rfl rfl

theorem replay_nil : replay l [] s = s := rfl

/-- A NAK drops what it acknowledges and resends the rest. -/
theorem takeNak_eq {pre post : List SentFlit} {f : SentFlit} (hu : (linkOf s l).unacked = pre ++ f :: post)
    (hpre : ∀ g ∈ pre, g.seq ≠ f.seq) :
    takeNak l f.seq s = replay l (f :: post) (setLink l { linkOf s l with unacked := f :: post } s) := by
  have hdrop : (linkOf s l).unacked.dropWhile (·.seq != f.seq) = f :: post := by
    rw [hu, List.dropWhile_append_of_pos (by simpa using hpre), List.dropWhile_cons_of_neg (by simp)]
  unfold takeNak
  dsimp only
  rw [hdrop]
  rfl

/-- What a replay leaves does not depend on what the link held without an acknowledgement. -/
theorem replayed_setLink_unacked (fs us : List SentFlit) (first : Nat) :
    replayed l fs first (setLink l { linkOf s l with unacked := us } s) = replayed l fs first s := by
  unfold replayed
  simp only [linkOf_setLink, setLink_setLink]
  rfl

theorem exec_nakFlit {h : W32} {body : List Byte} (hl : l < 16) (hc : (linkOf s l).carries = true) (hty : fld h 28 4 = 1)
    (hb : body.length ≤ 56) :
    exec (.nakFlit l h body) s = .next (acknowledge l (takeNak l (fld h 0 10) (gotFlits l 1 (linkOf s l) s))) :=
  (onFlit_eq hl hc hty 1 _).trans (acknowledged_congr (if_pos hb))

theorem exec_replayTimeout {fs : List SentFlit} (hl : l < 16) (hc : (linkOf s l).carries = true)
    (hu : (linkOf s l).unacked = fs) (hne : fs ≠ []) (ht : (linkOf s l).ackSince + ackTicks s ≤ now s) :
    exec (.replayTimeout l) s = .next (replay l fs s) := by
  subst hu
  exact (if_neg (Nat.not_le.2 hl)).trans (if_pos (by simp [hc, ht, hne]))

theorem exec_cwlBadFlit (hl : l < 16) (hc : (linkOf s l).carries = true) (reserved : Bool) :
    exec (.cwlBadFlit l reserved) s = .next (badFlit l reserved s) :=
  (if_neg (Nat.not_le.2 hl)).trans (if_pos hc)

/-! ### Lanes (R314) -/

/-- The spare in the place of the physical lane of logical lane `i`, on a link that has just been written. -/
theorem substituteLane_setLink (lane i : Nat) (sudden : Bool) (y : Link) :
    let m := putFld (putFld y.lmap (3 * i) 3 (spareLane y.lmap)) 15 3 7
    substituteLane l lane i sudden (setLink l y s) =
      fbRaise 0x0803 (payload s.glb.sheet (l * 2 ^ 32 + (lane * 2 ^ 8 + sudden.toNat)))
        (irqSet (0x1C0 + l) 4 (setLink l { y with lmap := m, lanes := mappedLanes m 4 } s)) := by
  unfold substituteLane
  simp only [linkOf_setLink, setLink_setLink]
  rfl

theorem exec_laneMarginLow {lane i : Nat} (hl : l < 16) (hlane : lane < 5) (hi : logicalLane (linkOf s l).lmap lane = some i)
    (hup : (linkOf s l).state = .up) (hsp : spareLane (linkOf s l).lmap ≠ 7) :
    exec (.laneMarginLow l lane) s = .next (substituteLane l lane i false s) := by
  show execLaneMarginLow l lane s = _
  unfold execLaneMarginLow
  rw [if_neg (by omega)]
  dsimp only
  rw [hi]
  exact if_pos (by simp [hup, hsp])

theorem exec_laneLoss {lane : Nat} (hl : l < 16) (hlane : lane < 5) (hc : (linkOf s l).carries = true) :
    exec (.laneLoss l lane) s = .next (loseLane l lane s) :=
  (if_neg (by omega)).trans (if_pos hc)

/-- The loss of a lane that carries a logical one, by whether the link is DEGRADED already and has its spare. -/
theorem loseLane_eq {lane i : Nat} (hi : logicalLane (linkOf s l).lmap lane = some i)
    (hsp : lane ≠ spareLane (linkOf s l).lmap) :
    let y := { linkOf s l with failed := insertNat lane (linkOf s l).failed }
    loseLane l lane s =
      if (linkOf s l).state = .degraded then
        if bitAt (linkOf s l).lanes lane then linkRetrain l 3 (setLink l y s) else setLink l y s
      else if spareLane (linkOf s l).lmap ≠ 7 then
        let u := substituteLane l lane i true (setLink l y s)
        replay l (linkOf u l).unacked u
      else degradeLink l lane (setLink l y s) := by
  unfold loseLane
  dsimp only
  rw [if_neg hsp, hi]

/-- The link is DEGRADED on the lanes that still run, where it has no spare. -/
theorem degradeLink_setLink (lane : Nat) (y : Link) : ∃ m, degradeLink l lane (setLink l y s) =
    fbRaise 0x0804 (payload s.glb.sheet (l * 2 ^ 32 + 0)) (irqSet (0x1C0 + l) 8
      (setLink l { y with state := .degraded, lmap := m, lanes := mappedLanes m 2, since := now s } s)) := by
  unfold degradeLink
  simp only [linkOf_setLink, setLink_setLink]
  exact ⟨_, rfl⟩

/-- A lane's substitution keeps what waits for an acknowledgement. -/
theorem linkOf_substituted (code : Nat) (p : W64) (pg : Nat) (m : W32) (y : Link) :
    linkOf (fbRaise code p (irqSet pg m (setLink l y s))) l = y :=
  (linkOf_irqSet pg m).trans (linkOf_setLink l y s)

/-- A replay after a report and an interrupt. -/
theorem replayed_report (fs : List SentFlit) (first code : Nat) (p : W64) (pg : Nat) (m : W32) :
    let u := fbRaise code p (irqSet pg m s)
    replayed l fs first u = fbRaise 0x0806 (cwlPayload s l first)
      { setLink l { linkOf u l with
          unacked := resent fs, cntReplay := satInc 0xFFFFFFFF (linkOf u l).cntReplay, ackSince := now s } u with
        out := u.out ++ (resent fs).map fun g => .flit l (g.flit.bytes g.seq) } := by
  intro u
  have hp : cwlPayload u l first = cwlPayload s l first := congrArg (fun g : Glb => payload g.sheet _) (irqSet_glb pg m s)
  have hnow : now u = now s := congrArg Mer.ticks (irqSet_mer pg m s)
  rw [replayed, hp, hnow]

/-! ### Loop-backs (R331) -/

theorem bitOf_loopDone_done (v : W32) (errs : Nat) (formed : Bool) : bitOf (loopDone v errs formed) 31 = true := by
  simp [loopDone, bitOf_putFld, bitOf_putBit]

theorem bitOf_loopDone_fail (v : W32) (errs : Nat) (formed : Bool) :
    bitOf (loopDone v errs formed) 30 = (decide (errs ≠ 0) || !formed) := by
  simp [loopDone, bitOf_putFld, bitOf_putBit]

theorem fld_loopDone_depth (v : W32) (errs : Nat) (formed : Bool) : fld (loopDone v errs formed) 0 3 = 0 :=
  fld_putFld_same (by omega) _ 0

theorem fld_loopDone_errs (v : W32) (errs : Nat) (formed : Bool) : fld (loopDone v errs formed) 16 8 = min errs 255 := by
  unfold loopDone
  rw [fld_putFld_other (by omega) (by omega), fld_putFld_same (by omega), Nat.mod_eq_of_lt (by omega)]

/-- A loop-back that has run its duration: its result stands in LOOP_CTRL, and a link that it took from service trains. -/
theorem exec_cwlLoopbackEnd {errs : Nat} {formed : Bool} (hl : l < 16) (hd : fld (linkOf s l).loop 0 3 ≠ 0)
    (ht : (linkOf s l).loopEnd ≤ now s) :
    let x := linkOf s l
    let w := loopDone x.loop (errs + fld x.loop 16 8) formed
    exec (.cwlLoopbackEnd l errs formed) s = .next (
      if fld x.loop 0 3 ≤ 3 then startTraining l (setLink l { x with loop := w, state := .down } s)
      else setLink l { x with loop := w } s) := by
  intro x w
  refine (if_neg (Nat.not_le.2 hl)).trans ((if_neg (by omega)).trans ?_)
  simp only [linkOf_setLink, setLink_setLink]
  rfl

end

/-- Settles O50: every row's effect is a change of one link, of which the records and interrupts report. -/
theorem linksTrainReplayAndDegrade : Obligations.LinksTrainReplayAndDegrade := by
  unfold Obligations.LinksTrainReplayAndDegrade
  intro s l hl x st page pay named training train downed down resent' replayed' accepted swapped
  have hnot : ¬16 ≤ l := Nat.not_le.2 hl
  refine ⟨fun ag => ?_, fun ag => ?_, fun ag hx => ?_, fun ag hx hr => ?_, fun cfg psheet plink => ⟨fun hx => ?_, fun hx => ?_⟩,
    fun hx ht => ?_, fun hc pre post f hu hpre => ?_, fun hc reserved => ?_, fun lane i hlane hi hsp => ?_, fun ag v => ?_,
    fun errs formed => ?_⟩
  · exact enableLink_eq (s := s) (l := l) ▸ writes_unit (enableLink l) rfl hnot rfl
  · exact disableLink_eq (s := s) (l := l) ▸ writes_unit (disableLink l) rfl hnot rfl
  · have ht : retrainLink l s = startTraining l s := if_pos hx
    exact (ht.trans startTraining_eq) ▸ writes_unit (retrainLink l) rfl hnot rfl
  · exact ⟨(takeFree s).1.toNat % 256, Nat.mod_lt _ (by norm_num),
      (if_neg hnot).trans (congrArg _ ((atPage_responds hr).trans (if_neg hx)))⟩
  · exact (exec_cwlTrained hl ..).trans (congrArg _ (if_pos hx))
  · exact (exec_cwlTrained hl ..).trans (congrArg _ (if_neg (not_not_intro hx)))
  · exact (exec_miswiredRetry hl hx ht).trans (congrArg _ startTraining_eq)
  · intro fs final
    refine ⟨fun h body hty hseq hb => ?_, fun hnil ht => ?_⟩
    · have hu' : (linkOf (gotFlits l 1 x s) l).unacked = pre ++ f :: post := by rw [linkOf_gotFlits]; exact hu
      refine (exec_nakFlit hl hc hty hb).trans (acknowledged_congr ?_)
      rw [hseq, takeNak_eq hu' hpre, replay_eq (by rw [linkOf_setLink]), replayed_setLink_unacked]
      rfl
    · subst hnil
      exact (exec_replayTimeout hl hc (hu.trans (List.nil_append _)) (List.cons_ne_nil _ _) ht).trans (congrArg _ (replay_eq hu))
  · exact (exec_cwlBadFlit hl hc reserved)
  · refine ⟨fun hup hs7 => ?_, fun hc => ?_⟩
    · exact (exec_laneMarginLow hl hlane hi hup hs7).trans rfl
    · intro y
      have hloss := (exec_laneLoss hl hlane hc).trans (congrArg _ (loseLane_eq hi hsp))
      have hu : substituteLane l lane i true (setLink l y s) = swapped lane i 1 y :=
        substituteLane_setLink lane i true y
      have hlink : (linkOf (substituteLane l lane i true (setLink l y s)) l).unacked = x.unacked := by
        rw [substituteLane_setLink, linkOf_substituted]
      refine ⟨fun hdeg hs7 hnil => ?_, fun hdeg hs7 f post hfs _ hfew => ?_, fun hdeg hs7 => ?_, fun hdeg => ?_⟩
      · refine hloss.trans (congrArg _ ((if_neg hdeg).trans ((if_pos hs7).trans ?_)))
        exact (congrArg (fun fs => replay l fs _) (hlink.trans hnil)).trans hu
      · refine hloss.trans (congrArg _ ((if_neg hdeg).trans ((if_pos hs7).trans ?_)))
        have hnone : ¬∃ g ∈ f :: post, 7 ≤ g.replays := by
          rintro ⟨g, hg, h7⟩
          exact absurd (hfew g (hfs ▸ hg)) (Nat.not_lt.2 h7)
        exact (congrArg (fun fs => replay l fs _) (hlink.trans hfs)).trans ((replay_eq (hlink.trans hfs)).trans
          ((if_neg hnone).trans ((congrArg (replayed l _ _) hu).trans (replayed_report ..))))
      · obtain ⟨m, hm⟩ := degradeLink_setLink (s := s) (l := l) lane y
        refine ⟨_, hloss.trans (congrArg _ ((if_neg hdeg).trans ((if_neg (not_not_intro hs7)).trans hm))), ?_⟩
        dsimp only
        rw [linkOf_substituted]
        exact ⟨rfl, rfl, rfl⟩
      · exact hloss.trans (congrArg _ (if_pos hdeg))
  · intro d ctl stop
    refine ⟨fun h5 => ?_, fun h1 h4 htest hserv => ?_, fun h1 h3 htest => ?_, fun h4 hst hr => ?_⟩
    · have h : startCwlLoop ag l v s = glbErr 5 (agentOf ag) (cwlOff l 0x28 / 4) s := if_pos h5
      exact h ▸ writes_unit (startCwlLoop ag l v) rfl hnot rfl
    · have hok : (!(s.glb.state == .test || (s.glb.state == .service && d == 4))) = true := by
        simpa using ⟨htest, not_and_or.1 hserv⟩
      have h : startCwlLoop ag l v s = glbErr 4 (agentOf ag) (cwlOff l 0x28 / 4) s :=
        (if_neg (by omega)).trans ((if_neg (by omega)).trans (if_pos hok))
      exact h ▸ writes_unit (startCwlLoop ag l v) rfl hnot rfl
    · have hok : ¬(!(s.glb.state == .test || (s.glb.state == .service && d == 4))) = true := by
        simp [show s.glb.state = .test from htest]
      have h : startCwlLoop ag l v s = setLink l { x.clearLayer with
          loop := ctl, loopEnd := stop, state := .test, lanes := 0, since := now s } s :=
        (if_neg (by omega)).trans ((if_neg (by omega)).trans ((if_neg hok).trans (if_pos h3)))
      exact h ▸ writes_unit (startCwlLoop ag l v) rfl hnot rfl
    · have hok : ¬(!(s.glb.state == .test || (s.glb.state == .service && d == 4))) = true := by
        rcases hst with hst | hst
        · simp [show s.glb.state = .test from hst]
        · simp [show s.glb.state = .service from hst, h4]
      have h : startCwlLoop ag l v s = sendOn l [mkFlit 8 0 (leBytes 4 (takeFree s).1.toNat)]
          { setLink l { x with loop := ctl, loopEnd := stop } s with fresh := s.fresh + 1 } :=
        (if_neg (by omega)).trans ((if_neg (by omega)).trans ((if_neg hok).trans (if_neg (by omega))))
      exact ⟨(takeFree s).1, (if_neg hnot).trans (congrArg _ ((atPage_responds hr).trans h))⟩
  · intro d n
    refine ⟨fun h => (if_neg hnot).trans (if_pos h), fun hd ht => ⟨_, exec_cwlLoopbackEnd hl hd ht, ?_⟩⟩
    by_cases h3 : d ≤ 3
    · rw [if_pos h3, startTraining_setLink]
      dsimp only
      rw [linkOf_setLink]
      by_cases ht : x.en = true ∧ MayTrain s l
      · have hz : train { x with state := .down } = training { x with state := .down } := if_pos ht
        rw [if_pos ht, hz]
        exact ⟨bitOf_loopDone_done .., bitOf_loopDone_fail .., fld_loopDone_errs .., fld_loopDone_depth .., rfl,
          fun h => absurd h3 (Nat.not_le.2 h), fun _ => rfl⟩
      · have hz : train { x with state := .down } = { x with state := .down } := if_neg ht
        rw [if_neg ht, hz]
        exact ⟨bitOf_loopDone_done .., bitOf_loopDone_fail .., fld_loopDone_errs .., fld_loopDone_depth .., rfl,
          fun h => absurd h3 (Nat.not_le.2 h), fun _ => rfl⟩
    · rw [if_neg h3]
      dsimp only
      rw [linkOf_setLink]
      exact ⟨bitOf_loopDone_done .., bitOf_loopDone_fail .., fld_loopDone_errs .., fld_loopDone_depth .., rfl, fun _ => rfl,
        fun h => absurd h h3⟩

end Sys2Proof.Machine
end

section
/-! Obligation `SensorPortsScan` (O39): the sensor scan ports' records, steps, passes and MIDI frames (R242 to R251, R263). -/

namespace Sys2Proof.Machine

section
variable {s : State} {n : Nat}

/-! ### Records (R243) -/

theorem sampleRecord_discarded {i : Nat} (h : bitOf (Tab.get 0 (sspOf s n).smap i) 31 = false) (v : W16) (tick : Nat) :
    sampleRecord n i v tick s = s :=
  if_neg (by rw [h]; exact Bool.false_ne_true)

/-- A record of a sensor whose reed exists: its ring words are written and its number goes on. -/
theorem sampleRecord_written {i r : Nat} (h : bitOf (Tab.get 0 (sspOf s n).smap i) 31 = true)
    (hr : physOf s (fld (Tab.get 0 (sspOf s n).smap i) 16 9) = some r) (v : W16) (tick : Nat) :
    let p := sspOf s n
    let m := Tab.get 0 p.nextRec i
    sampleRecord n i v tick s = deviceWrite (ringWords (Tab.get 0 p.smap i) r m v tick)
      (setSsp n { p with nextRec := Tab.set p.nextRec i ((m + 1) % 2 ^ 16) } s) := by
  intro p m
  refine (if_pos h).trans ?_
  rw [hr]

theorem ringWords_outside_hbm {e : W32} {r m : Nat} {v : W16} {tick : Nat} :
    ∀ w ∈ ringWords e r m v tick, ∀ a, w.1 ≠ .hbm a := by
  simp [ringWords]

theorem sspOf_deviceWrite (ws : List PlacedWord) : sspOf (deviceWrite ws s) n = sspOf s n := by
  rw [sspOf, sspOf, deviceWrite_ssp]

/-! ### Enabling and the map -/

theorem sspEnable_of_idle (h : (sspOf s n).en = false) (ag : Nat) : sspEnable ag n s =
    if sspCheck s (sspOf s n) ≠ 0 then
      refuseReg 5 ag (sspOff n 8) (setSsp n { sspOf s n with enerr := sspCheck s (sspOf s n) } s)
    else setSsp n { (sspOf s n).idle with en := true, enerr := 0, since := now s } s :=
  if_neg (by rw [h]; exact Bool.false_ne_true)

/-! ### Scanning -/

/-- A port runs in a mode (R245). -/
theorem runs_iff (p : Ssp) (m : Nat) :
    p.runs s m = true ↔ p.en = true ∧ p.mode = m ∧ s.glb.state = .service ∧ p.since + 64 ≤ now s := by
  simp [Ssp.runs, and_assoc]

theorem exec_sspMatrixStep (hn : n < 32) (hr : (sspOf s n).runs s 0 = true) (ht : (sspOf s n).nextStart ≤ now s)
    (hs : (sspOf s n).toSample = false) : exec (.sspMatrixStep n) s =
      let p := sspOf s n
      .next (setSsp n { p with t0 := some (p.t0.getD (now s)), steps := p.steps + 1
                               row := some (p.scanRow (p.steps % (p.nscan + 1))), toSample := true, loopNow := p.loop } s) :=
  (if_neg (Nat.not_le.2 hn)).trans (if_pos ⟨hr, ht, by rw [hs]; rfl⟩)

theorem exec_sspMatrixSample {r : Nat} (hn : n < 32) (hr : (sspOf s n).runs s 0 = true) (hrow : (sspOf s n).row = some r)
    (hs : (sspOf s n).toSample = true) (hnone : (sspOf s n).sample = none)
    (ht : (sspOf s n).thisStart + (sspOf s n).settle ≤ now s) (vals : List Nat) : exec (.sspMatrixSample n vals) s =
      let p := sspOf s n
      .next (setSsp n { p with
        toSample := false
        sample := some { row := r, tick := p.thisStart + p.settle
                         values := (List.range 16).map fun c => matrixValue p r c (vals.getD c 0) } } s) := by
  show execSspMatrixSample n vals s = _
  simp only [execSspMatrixSample, if_neg (Nat.not_le.2 hn), hrow]
  exact if_pos ⟨hr, hs, by rw [hnone]; rfl, ht⟩

theorem exec_sspConversionComplete {m : MatrixSample} (hn : n < 32) (hr : (sspOf s n).runs s 0 = true)
    (hm : (sspOf s n).sample = some m) (ht : m.tick + 256 ≤ now s) : exec (.sspConversionComplete n) s =
      .next ((List.range 16).foldl (fun t c => sampleRecord n (16 * m.row + c) (m.values.getD c 0) m.tick t)
        (setSsp n { sspOf s n with sample := none } s)) := by
  show execSspConversionComplete n s = _
  simp only [execSspConversionComplete, if_neg (Nat.not_le.2 hn), hm]
  exact if_pos ⟨hr, ht⟩

theorem exec_sspAdcPass (hn : n < 32) (hr : (sspOf s n).runs s 1 = true) (ht : (sspOf s n).nextStart ≤ now s)
    (h0 : (sspOf s n).toRead = 0) : exec (.sspAdcPass n) s =
      let p := sspOf s n
      .next (setSsp n { p with t0 := some (p.t0.getD (now s)), steps := p.steps + 1, toRead := p.words
                               loopNow := p.loop } s) :=
  (if_neg (Nat.not_le.2 hn)).trans (if_pos ⟨hr, ht, h0⟩)

theorem exec_sspAdcWord (hn : n < 32) (hr : (sspOf s n).runs s 1 = true) (h0 : (sspOf s n).toRead ≠ 0)
    (ht : (sspOf s n).wordTick (sspOf s n).thisStart ((sspOf s n).words - (sspOf s n).toRead) ≤ now s) (v : Nat) :
    exec (.sspAdcWord n v) s =
      let p := sspOf s n
      .next (sampleRecord n (p.words - p.toRead) (adcValue p (p.words - p.toRead) v) p.thisStart
        (setSsp n { p with toRead := p.toRead - 1 } s)) :=
  (if_neg (Nat.not_le.2 hn)).trans (if_pos ⟨hr, h0, ht⟩)

/-! ### MIDI (R248, R249) -/

/-- A frame that comes in from the pin. -/
theorem exec_midiRxFrame_pin {tick : Nat} (hn : n < 32) (hr : (sspOf s n).runs s 2 = true) (ht : tick ≤ now s)
    (hs : (sspOf s n).since + 64 ≤ tick) (hl : (sspOf s n).loop = 0) (b : Byte) (stop : Bool) :
    exec (.midiRxFrame n b stop tick) s =
      .next (midiReceive n b stop tick (setSsp n { sspOf s n with loopNow := (sspOf s n).loop } s)) :=
  (if_neg (Nat.not_le.2 hn)).trans ((if_pos ⟨hr, ht, hs⟩).trans (if_pos hl))

/-- A frame that comes back from the transmitter. -/
theorem exec_midiRxFrame_loop {tick : Nat} {x : Byte} (hn : n < 32) (hr : (sspOf s n).runs s 2 = true) (ht : tick ≤ now s)
    (hs : (sspOf s n).since + 64 ≤ tick) (hl : (sspOf s n).loop ≠ 0) (hx : (sspOf s n).shifting = some x) (b : Byte)
    (stop : Bool) : exec (.midiRxFrame n b stop tick) s =
      .next (midiReceive n x true tick (setSsp n { sspOf s n with loopNow := (sspOf s n).loop } s)) := by
  refine (if_neg (Nat.not_le.2 hn)).trans ((if_pos ⟨hr, ht, hs⟩).trans ((if_neg hl).trans ?_))
  dsimp only
  rw [hx]

theorem midiReceive_good (b : Byte) (tick : Nat) :
    midiReceive n b true tick s = sampleRecord n 0 (b.setWidth 16) tick s := by
  simp [midiReceive]

theorem midiReceive_bad (b : Byte) (tick : Nat) (q : Ssp) : midiReceive n b false tick (setSsp n q s) =
    sampleRecord n 0 (b.setWidth 16 ||| 0x100#16) tick
      (fbRaise 0x0B11 (BitVec.ofNat 64 (n * 2 ^ 48 + b.toNat * 2 ^ 32 + tick % 2 ^ 32))
        (irqSet (0x180 + n) 1 (setSsp n { q with fe := satInc 0xFFFF q.fe } s))) := by
  simp [midiReceive, sspPage]

theorem midiStart_busy {b : Byte} (h : (sspOf s n).shifting = some b) : midiStart n s = s := by
  rw [midiStart, h]

theorem midiStart_empty (h : (sspOf s n).fifo = []) : midiStart n s = s := by
  unfold midiStart
  dsimp only
  rw [h]
  cases (sspOf s n).shifting <;> rfl

theorem midiStart_free {b : Byte} {rest : List Byte} (hf : (sspOf s n).fifo = b :: rest) (hs : (sspOf s n).shifting = none)
    (hr : (sspOf s n).runs s 2 = true) :
    midiStart n s = setSsp n { sspOf s n with shifting := some b, fifo := rest, loopNow := (sspOf s n).loop } s := by
  unfold midiStart
  dsimp only
  rw [hf, hs]
  exact if_pos hr

theorem writeMidiTx_eq (b : Byte) : writeMidiTx n b s =
    if 64 ≤ (sspOf s n).fifo.length then
      irqSet (0x180 + n) 4 (setSsp n { sspOf s n with txovf := satInc 0xFFFF (sspOf s n).txovf } s)
    else midiStart n (setSsp n { sspOf s n with fifo := (sspOf s n).fifo ++ [b] } s) := by
  unfold writeMidiTx sspPage
  by_cases h : 64 ≤ (sspOf s n).fifo.length
  · rw [if_pos h]
    exact if_neg (Nat.not_lt.2 h)
  · rw [if_neg h]
    exact if_pos (Nat.not_le.1 h)

/-- A frame's stop bit has gone out: on TXD, but for the PORT depth (R251). -/
def midiSent (n : Nat) (b : Byte) (s : State) : State :=
  let t := setSsp n { sspOf s n with shifting := none } s
  if (sspOf s n).loopNow = 2 then t else send (.midi n b) t

theorem sspOf_midiSent (b : Byte) : sspOf (midiSent n b s) n = { sspOf s n with shifting := none } := by
  unfold midiSent
  dsimp only
  split
  · exact sspOf_setSsp ..
  · exact sspOf_setSsp n _ s

/-- The next byte starts, or TXEMPTY is raised (R249). -/
theorem exec_midiTxFrameSent {b : Byte} (hn : n < 32) (hr : (sspOf s n).runs s 2 = true)
    (hb : (sspOf s n).shifting = some b) : exec (.midiTxFrameSent n) s =
      let u := midiStart n (midiSent n b s)
      .next (if (sspOf u n).shifting.isNone then irqSet (0x180 + n) 2 u else u) := by
  have hput : setSsp n { sspOf s n with shifting := none } (if (sspOf s n).loopNow = 2 then s else send (.midi n b) s) =
      midiSent n b s := by
    unfold midiSent
    split <;> rfl
  show execMidiTxFrameSent n s = _
  unfold execMidiTxFrameSent
  rw [if_neg (Nat.not_le.2 hn), midiStart_busy hb]
  dsimp only
  rw [hb]
  dsimp only
  rw [if_pos hr, hput]
  rfl

end

/-- Settles O39: a port in service takes each step as its ticks come; the records and frames are writes of one port. -/
theorem sensorPortsScan : Obligations.SensorPortsScan := by
  unfold Obligations.SensorPortsScan
  intro s n hn p put off idled runs
  have hnot : ¬32 ≤ n := Nat.not_le.2 hn
  have hruns {m : Nat} (h : runs m) : p.runs s m = true := (runs_iff p m).2 h
  refine ⟨fun u i v tick => ⟨fun h => sampleRecord_discarded h v tick, fun r h hr => ⟨?_, ?_⟩⟩, fun ag he => ?_, fun ag => ?_,
    fun ag i v hi => ?_, fun hr ht hs => exec_sspMatrixStep hn (hruns hr) ht hs,
    fun vals r hr hrow hs hnone ht => exec_sspMatrixSample hn (hruns hr) hrow hs hnone ht vals,
    fun m hr hm ht => exec_sspConversionComplete hn (hruns hr) hm ht,
    fun hr ht h0 => exec_sspAdcPass hn (hruns hr) ht h0, fun v hr h0 ht => exec_sspAdcWord hn (hruns hr) h0 ht v,
    fun b stop tick hr ht hs => ⟨fun hl => ?_, fun x hl hx => ?_⟩, fun ag b => ?_, fun b hr hb => ?_, fun ag depth hd => ?_⟩
  · rw [sampleRecord_written h hr]
    exact deviceWrite_mem _ _ ringWords_outside_hbm
  · rw [sampleRecord_written h hr, sspOf_deviceWrite, sspOf_setSsp]
  · exact sspEnable_of_idle he ag ▸ writes_unit (sspEnable ag n) rfl hnot rfl
  · exact writes_unit (fun t => setSsp n { (sspOf t n).idle with en := false } t) rfl hnot rfl
  · intro w set
    have ho : sspOff n (0x400 + 4 * i) = off + 0x400 + 4 * i := by
      unfold sspOff
      omega
    have h : writeSmap ag n i v s = if smapOk w then set w
        else glbErr 5 (agentOf ag) ((off + 0x400 + 4 * i) / 4) (set (putBit w 31 false)) := by
      rw [writeSmap, ho]
      rfl
    exact h ▸ writes_unit (p := 32 ≤ n ∨ 256 ≤ i) (writeSmap ag n i v) rfl (by omega) ho
  · refine (exec_midiRxFrame_pin hn (hruns hr) ht hs hl b stop).trans (congrArg _ ?_)
    cases stop with
    | true => exact midiReceive_good b tick
    | false => exact midiReceive_bad b tick _
  · exact (exec_midiRxFrame_loop hn (hruns hr) ht hs hl hx b stop).trans (congrArg _ (midiReceive_good x tick))
  · exact writeMidiTx_eq (s := s) (n := n) b ▸ writes_unit (writeMidiTx n b) rfl hnot rfl
  · intro sent
    refine (exec_midiTxFrameSent hn (hruns hr) hb).trans (congrArg _ ?_)
    have hp := sspOf_midiSent (s := s) (n := n) b
    cases hf : p.fifo with
    | nil =>
      rw [midiStart_empty (by rw [hp]; exact hf), hp]
      exact if_pos rfl
    | cons x rest =>
      have hrun : (sspOf (midiSent n b s) n).runs (midiSent n b s) 2 = true := by
        rw [hp]
        unfold midiSent
        split <;> exact hruns hr
      rw [midiStart_free (by rw [hp]; exact hf) (by rw [hp]) hrun, hp, sspOf_setSsp]
      exact if_neg Bool.false_ne_true
  · have h : writeSspLoop ag n depth s =
        if depth = 3 then refuseReg 5 ag (sspOff n 0x28) s else setSsp n { p with loop := depth } s := by
      rw [writeSspLoop, Nat.mod_eq_of_lt hd]
    exact h ▸ writes_unit (writeSspLoop ag n depth) rfl hnot rfl

end Sys2Proof.Machine
end

section
/-! Obligation `QueuesMoveAndSignal` (O41): QCMD, doorbells, moderation and MSI-X (R265 to R274). -/

namespace Sys2Proof.Machine

section
variable {s : State}

/-! ### QCMD (R267) -/

theorem qmgCommit_eq (ag : Nat) (s : State) :
    let e := commitError (queueOf s s.qmg.qsel) s.qmg.staged
    qmgCommit ag s =
      if e = 0 then setQueue s.qmg.qsel
        { s.qmg.staged with armed := s.qmg.staged.v && s.qmg.staged.ien, err := (queueOf s s.qmg.qsel).err } s
      else qcmdRefuse ag e s :=
  ite_not ..

theorem satInc_eq_min {m n : Nat} (h : n ≤ m) : satInc m n = min m (n + 1) := by
  unfold satInc
  split <;> omega

/-- Discarded records are counted up to DROP's bound, and nothing else of the queues or the memory changes. -/
theorem foldl_dropRecord {α : Type} (q : Nat) (l : List α) (s : State) (h : s.qmg.drop ≤ 0xFFFFFFFF) :
    let t := l.foldl (fun t _ => dropRecord q t) s
    t.mem = s.mem ∧ t.qmg.drop = min 0xFFFFFFFF (s.qmg.drop + l.length) ∧ t.qmg.queues = s.qmg.queues := by
  induction l generalizing s with
  | nil => exact ⟨rfl, (Nat.min_eq_right h).symm, rfl⟩
  | cons a l ih =>
    have hd : (dropRecord q s).qmg.drop = min 0xFFFFFFFF (s.qmg.drop + 1) := satInc_eq_min h
    obtain ⟨hmem, hdrop, hq⟩ := ih (dropRecord q s) (by omega)
    refine ⟨hmem, hdrop.trans ?_, hq⟩
    rw [hd, List.length_cons]
    omega

/-- An advance of the device's index, by who produces into the queue (R267, R268). -/
theorem qmgAdvance_eq (ag : Nat) (s : State) :
    let x := queueOf s s.qmg.qsel
    let pi : W32 := Tab.get 0 s.qmg.qdata 6
    let ci : W32 := Tab.get 0 s.qmg.qdata 7
    let ok := if x.hostProduces then (ci - x.ci).toNat ≤ x.used else (pi - x.pi).toNat ≤ x.n - x.used
    let y := if x.hostProduces then { x with ci := ci }
      else (List.range (pi - x.pi).toNat).foldl (fun y _ => Queue.noteRecord (now s) y) { x with pi := pi }
    qmgAdvance ag s =
      if ag = 0 then refuseReg 5 ag qcmdOff s
      else if x.v = true ∧ ok then writeShadow s.qmg.qsel (setQueue s.qmg.qsel y s)
      else qcmdRefuse ag 7 s := by
  intro x pi ci ok y
  unfold qmgAdvance
  dsimp only
  by_cases hag : ag = 0
  · rw [if_pos hag, if_pos hag]
  rw [if_neg hag, if_neg hag]
  by_cases hv : x.v = true
  case neg => rw [if_pos (by simpa using hv), if_neg fun h => hv h.1]
  rw [if_neg (by simpa using hv)]
  by_cases hp : x.hostProduces = true
  · have hy : y = { x with ci := ci } := if_pos hp
    have hok : ok ↔ (ci - x.ci).toNat ≤ x.used := iff_of_eq (if_pos hp)
    rw [if_pos hp, hy]
    exact if_congr ⟨fun h => ⟨hv, hok.2 (of_decide_eq_true h)⟩, fun h => decide_eq_true (hok.1 h.2)⟩ rfl rfl
  · have hy : y = (List.range (pi - x.pi).toNat).foldl (fun y _ => Queue.noteRecord (now s) y) { x with pi := pi } := if_neg hp
    have hok : ok ↔ (pi - x.pi).toNat ≤ x.n - x.used := iff_of_eq (if_neg hp)
    rw [if_neg hp, hy]
    exact if_congr ⟨fun h => ⟨hv, hok.2 (of_decide_eq_true h)⟩, fun h => decide_eq_true (hok.1 h.2)⟩ rfl rfl

/-! ### Doorbells (R269) -/

section
variable {n : Nat} {v : W32}

theorem exec_doorbellWrite (hn : n < 16384) (hon : s.glb.state ≠ .off) :
    exec (.doorbellWrite n v) s = .next (doorbell n v s) :=
  (if_neg (Nat.not_le.2 hn)).trans (congrArg _ (if_neg hon))

theorem doorbell_invalid (h : (queueOf s n).v = false) : doorbell n v s = doorbellRefused n v s :=
  if_pos (by rw [h]; rfl)

theorem doorbell_producer (hv : (queueOf s n).v = true) (hp : (queueOf s n).hostProduces = true) : doorbell n v s =
    if (v - (queueOf s n).pi).toNat ≤ (queueOf s n).n - (queueOf s n).used then producerDoorbell n v s
    else doorbellRefused n v s := by
  unfold doorbell
  dsimp only
  rw [if_neg (by simp [hv]), if_pos hp]
  exact if_congr decide_eq_true_iff rfl rfl

theorem doorbell_consumer (hv : (queueOf s n).v = true) (hp : (queueOf s n).hostProduces = false) : doorbell n v s =
    if (v - (queueOf s n).ci).toNat ≤ (queueOf s n).used then consumerDoorbell n v s else doorbellRefused n v s := by
  unfold doorbell
  dsimp only
  rw [if_neg (by simp [hv]), if_neg (by simp [hp])]
  exact if_congr decide_eq_true_iff rfl rfl

/-- A producer's doorbell fires the queue's source where it moves the index (R271). -/
theorem producerDoorbell_eq (n : Nat) (v : W32) (s : State) :
    let y := queueOf s n
    let put := setQueue n { y with pi := v, err := false } s
    producerDoorbell n v s = if y.sen = true ∧ v ≠ y.pi then fireSource y.source put else put :=
  if_congr (by simp) rfl rfl

/-- A consumer's doorbell re-arms the queue, with a window for what its ring still holds (R272). -/
theorem consumerDoorbell_eq (n : Nat) (v : W32) (s : State) :
    let y := queueOf s n
    let t := flushHeld n (setQueue n { y with ci := v, err := false, armed := false, window := none } s)
    let z := queueOf t n
    consumerDoorbell n v s = setQueue n { z with
      armed := y.ien, window := if y.ien = true ∧ z.used ≠ 0 then some { since := now s, count := z.used } else none } t := by
  intro y t z
  have hw : (if (y.ien && z.used != 0) = true then some ({ since := now s, count := z.used } : Window) else none) =
      if y.ien = true ∧ z.used ≠ 0 then some { since := now s, count := z.used } else none := if_congr (by simp) rfl rfl
  exact congrArg (fun w => setQueue n { z with armed := y.ien, window := w } t) hw

end

/-! ### Moderation (R272) -/

theorem exec_moderationExpiry {n : Nat} {w : Window} (hn : n < 16384) (hw : (queueOf s n).window = some w)
    (h : max 1 (queueOf s n).modCnt ≤ w.count ∨ w.since + (queueOf s n).modTime * 256 ≤ now s) :
    exec (.moderationExpiry n) s =
      .next (signalHost (queueOf s n).msiv (setQueue n { queueOf s n with armed := false, window := none } s)) := by
  have he : (queueOf s n).expired (now s) = true := by
    rw [Queue.expired, hw]
    simpa using h
  exact (if_neg (Nat.not_le.2 hn)).trans (if_pos he)

end

/-- Settles O41: a QCMD, a doorbell or an expiry acts on one queue, as its checks decide. -/
theorem queuesMoveAndSignal : Obligations.QueuesMoveAndSignal := by
  unfold Obligations.QueuesMoveAndSignal
  intro s m q x off refuse
  refine ⟨fun ag => writes_of rfl (qmgCommit_eq ag s), fun ag hd => ?_, fun ag => writes_of rfl rfl,
    fun ag => writes_of rfl (qmgAdvance_eq ag s), fun n v hn hon => ?_, fun n hn => if_neg (Nat.not_le.2 hn), rfl, rfl⟩
  · exact ⟨_, writes_of rfl rfl, foldl_dropRecord q x.held
      (setQueue q { x with q0 := putBit x.q0 31 false, held := [], fullHold := false, shadowDue := false } s) hd⟩
  · intro y bad put
    have hx : exec (.doorbellWrite n v) s = .next (doorbell n v s) := exec_doorbellWrite hn hon
    refine ⟨fun hv hp h => ?_, fun hv hp h => ?_, ?_, fun w hw h => ?_⟩
    · rw [hx, doorbell_producer hv hp, if_pos h]
      exact congrArg _ (producerDoorbell_eq n v s)
    · rw [hx, doorbell_consumer hv hp, if_pos h]
      exact congrArg _ (consumerDoorbell_eq n v s)
    · intro h
      cases hv : y.v with
      | false => exact hx.trans (congrArg _ (doorbell_invalid hv))
      | true =>
        refine hx.trans (congrArg _ ?_)
        cases hp : y.hostProduces with
        | true =>
          rw [doorbell_producer hv hp, if_neg]
          · rfl
          · simp only [hv, hp] at h
            simpa using h
        | false =>
          rw [doorbell_consumer hv hp, if_neg]
          · rfl
          · simp only [hv, hp] at h
            simpa using h
    · exact exec_moderationExpiry hn hw h

end Sys2Proof.Machine
end

section
/-! Obligation `MailboxesAndScanAnswer` (O48): the mailbox services and boundary scan (R265, R349, R351, R352, R381). -/

namespace Sys2Proof.Machine

section
variable {s : State} {q op : Nat} {tag : W32}

theorem exec_mailboxInfo_info (h : mailboxOpen s = true) : exec (.mailboxInfo q 1 tag) s =
    .next (mailboxEntry q 1 1 tag 0 ((infoPayload s).drop 48) (mailboxEntry q 1 1 tag 0 ((infoPayload s).take 48) s)) :=
  if_neg (by rw [h]; exact Bool.false_ne_true)

theorem exec_mailboxInfo_unknown (h : mailboxOpen s = true) (hop : op ≠ 1) : exec (.mailboxInfo q op tag) s =
    .next (mailboxEntry q 1 op tag 2 [] s) :=
  (if_neg (by rw [h]; exact Bool.false_ne_true)).trans (if_neg hop)

theorem mailboxEntry_eq (service op status : Nat) (body : List Byte) (s : State) :
    mailboxEntry q service op tag status body s =
      let bytes := leBytes 2 service ++ leBytes 2 op ++ leBytes 4 tag.toNat ++ leBytes 4 body.length ++ leBytes 4 status ++
        padBytes 48 body
      if (queueOf s q).v = true ∧ (queueOf s q).typ = 3 ∧ (queueOf s q).dir = true
      then postRecord q ((List.range 16).map fun k => BitVec.ofNat 32 (leValue ((bytes.drop (4 * k)).take 4))) s else s :=
  if_congr (by simp [and_assoc]) rfl rfl

/-- An image that is loaded, and what the load leaves in the registers (R349, R352). -/
def loadImage (l c p : Nat) (i : Image) (bytes : List Byte) (s : State) : State :=
  let t := extendE l c bytes (putImage i p c s)
  { t with spr := { t.spr with images := Tab.set t.spr.images (8 * l + c) i } }

section
variable {l c imOff : Nat} {cfg : W32} {entry : W16} {parcels : List W128} {im : List W32} {bytes : List Byte}

/-- A load answers its status, and is done where that is 0 and the reed exists. -/
theorem exec_mailboxLoadImage (hl : l < 512) (hc : c < 8) (h : mailboxOpen s = true) :
    exec (.mailboxLoadImage q op tag l c cfg entry parcels imOff im bytes) s =
      .next (mailboxEntry q 2 op tag (loadStatus s l) [] (
        match loadStatus s l, physOf s l with
        | 0, some p => loadImage l c p { cfg := cfg, entry := entry, parcels := parcels, imOff := imOff, im := im } bytes s
        | _, _ => s)) :=
  (if_neg (by omega)).trans (if_neg (by rw [h]; exact Bool.false_ne_true))

theorem exec_mailboxLoadImage_refused (hl : l < 512) (hc : c < 8) (h : mailboxOpen s = true)
    (hst : loadStatus s l ≠ 0 ∨ physOf s l = none) :
    exec (.mailboxLoadImage q op tag l c cfg entry parcels imOff im bytes) s =
      .next (mailboxEntry q 2 op tag (loadStatus s l) [] s) := by
  rw [exec_mailboxLoadImage hl hc h]
  split
  case h_1 p h0 hp => exact hst.elim (fun hn => absurd h0 hn) (fun hn => nomatch hn.symm.trans hp)
  case h_2 => rfl

theorem exec_mailboxLoadImage_taken {p : Nat} (hl : l < 512) (hc : c < 8) (h : mailboxOpen s = true)
    (hst : loadStatus s l = 0) (hp : physOf s l = some p) :
    exec (.mailboxLoadImage q op tag l c cfg entry parcels imOff im bytes) s =
      .next (mailboxEntry q 2 op tag 0 []
        (loadImage l c p { cfg := cfg, entry := entry, parcels := parcels, imOff := imOff, im := im } bytes s)) := by
  rw [exec_mailboxLoadImage hl hc h, hst, hp]
  rfl

end

end

/-! ### IDCODE (R381) -/

/-- IDCODE with its 11 manufacturer bits. -/
def idCode (m : Nat) : W32 := BitVec.ofNat 32 (2 ^ 28 + 0x9144 * 2 ^ 12 + m % 2 ^ 11 * 2 + 1)

theorem idCode_toNat (m : Nat) : (idCode m).toNat = 2 ^ 28 + 0x9144 * 2 ^ 12 + m % 2 ^ 11 * 2 + 1 := by
  have hm : m % 2 ^ 11 < 2 ^ 11 := Nat.mod_lt _ (by norm_num)
  rw [idCode, BitVec.toNat_ofNat]
  omega

theorem fld_idCode_version (m : Nat) : fld (idCode m) 28 4 = 1 := by
  have hm : m % 2 ^ 11 < 2 ^ 11 := Nat.mod_lt _ (by norm_num)
  rw [fld, field, idCode_toNat, Nat.shiftRight_eq_div_pow]
  omega

theorem fld_idCode_part (m : Nat) : fld (idCode m) 12 16 = 0x9144 := by
  have hm : m % 2 ^ 11 < 2 ^ 11 := Nat.mod_lt _ (by norm_num)
  rw [fld, field, idCode_toNat, Nat.shiftRight_eq_div_pow]
  omega

theorem bitOf_idCode_zero (m : Nat) : bitOf (idCode m) 0 = true := by
  rw [bitOf_eq_getLsbD, BitVec.getLsbD, idCode_toNat, Nat.testBit_zero]
  simp
  omega

/-- Settles O48: every request is answered by one entry of its status, or by the two of the information; scan reads. -/
theorem mailboxesAndScanAnswer : Obligations.MailboxesAndScanAnswer := by
  unfold Obligations.MailboxesAndScanAnswer
  intro s q tag opens answer first info
  refine ⟨fun ho => ?_, fun hon => ?_⟩
  · have hopen : mailboxOpen s = true := by
      obtain ⟨hfw, hd, ht⟩ := ho
      simp [mailboxOpen, hfw, hd, ht]
    refine ⟨?_, fun op hop => ?_, fun service op => ?_, fun op l c cfg entry parcels imOff im bytes hl hc => ?_⟩
    · rw [exec_mailboxInfo_info hopen, mailboxEntry_eq, mailboxEntry_eq]
      rfl
    · rw [exec_mailboxInfo_unknown hopen hop, mailboxEntry_eq]
    · exact (if_pos hopen).trans (congrArg _ (mailboxEntry_eq ..))
    · intro load st i
      exact ⟨fun h => (exec_mailboxLoadImage_refused hl hc hopen h).trans (congrArg _ (mailboxEntry_eq ..)),
        fun p h0 hp => (exec_mailboxLoadImage_taken hl hc hopen h0 hp).trans (congrArg _ (mailboxEntry_eq ..))⟩
  · refine ⟨fun a => ⟨_, if_neg hon, idCode (takeFree s).1.toNat, rfl, fld_idCode_version _, fld_idCode_part _,
      bitOf_idCode_zero _⟩, fun a => if_neg hon, fun a w hd hw => ?_, fun a hd => ?_⟩
    · show execBoundaryScan 2 a s = _
      unfold execBoundaryScan
      rw [if_neg hon]
      dsimp only
      rw [if_pos hd, hw]
      rfl
    · exact (if_neg hon).trans (if_neg (by rw [hd]; exact Bool.false_ne_true))

end Sys2Proof.Machine
end

section
/-! Obligation `HostLinkTrainsSleepsAndResets` (O43): the host link's training and power states, the function's D-states and the
resets (R287, R299 to R303). -/

namespace Sys2Proof.Machine

/-! ### What wakes the host leaves of the interface -/

/-- From `c` to `d` no more happens than that the link leaves L1, a vector waits, or the host is woken (R273, R301, R302). -/
structure CxlWoken (c d : Cxl) : Prop where
  link : c.link ≠ .l1 → d.link = c.link
  rest : d = { c with link := d.link, pendingVec := d.pendingVec, wake := d.wake, pmeStatus := d.pmeStatus }

theorem CxlWoken.refl (c : Cxl) : CxlWoken c c := ⟨fun _ => rfl, rfl⟩

theorem CxlWoken.of_eq {c d : Cxl} (h : d = c) : CxlWoken c d := h ▸ .refl c

theorem CxlWoken.trans {c d e : Cxl} (h : CxlWoken c d) (k : CxlWoken d e) : CxlWoken c e := by
  refine ⟨fun hc => ?_, ?_⟩
  · have hd := h.link hc
    rw [k.link (hd ▸ hc), hd]
  · have hr := h.rest
    have kr := k.rest
    rw [hr] at kr
    exact kr

theorem cxlWoken_wakeLink (c : Cxl) : CxlWoken c c.wakeLink := by
  unfold Cxl.wakeLink
  split
  case isTrue h => exact ⟨fun hn => absurd h hn, rfl⟩
  case isFalse => exact .refl c

section
variable (s : State)

theorem cxlWoken_issueMsix (v : Nat) : CxlWoken s.cxl (issueMsix v s).cxl := by
  unfold issueMsix
  split
  · exact cxlWoken_wakeLink s.cxl
  · exact ⟨fun _ => rfl, rfl⟩

theorem cxlWoken_signalWake : CxlWoken s.cxl (signalWake s).cxl := by
  unfold signalWake
  split
  · exact .refl _
  split
  · unfold assertWake
    split
    · exact .refl _
    · exact ⟨fun _ => rfl, rfl⟩
  split
  · exact (cxlWoken_wakeLink s.cxl).trans ⟨fun _ => rfl, rfl⟩
  · exact .refl _

theorem cxlWoken_dormantWake (x : Source) : CxlWoken s.cxl (dormantWake x s).cxl := by
  unfold dormantWake
  split
  · split
    · exact cxlWoken_issueMsix ..
    · exact cxlWoken_signalWake s
  · exact .refl _

theorem cxlWoken_fireSource (n : Nat) : CxlWoken s.cxl (fireSource n s).cxl := by
  have h := cxlWoken_dormantWake { s with srcs := Tab.set s.srcs n (fireCount (Tab.get {} s.srcs n)).1 }
    (fireCount (Tab.get {} s.srcs n)).1
  unfold fireSource
  dsimp only
  split
  · exact h
  · exact h

theorem cxlWoken_noteUe (pl : Place) : CxlWoken s.cxl (noteUe pl s).cxl := by
  cases pl with
  | hbm a =>
    rcases noteUe_hbm_cases a s with h | h <;> rw [h]
    · exact cxlWoken_fireSource (hbmErrorCounted a s) _
    · exact .of_eq (retirePage_cxl ..)
  | bank w | im w =>
    simp only [noteUe, Place.unit]
    split
    · exact .of_eq (retireReed_cxl ..)
    · exact .refl _
  | _ => exact .refl _

theorem cxlWoken_deviceLine (line : Nat) : CxlWoken s.cxl (deviceLine line s).2.cxl := by
  unfold deviceLine
  dsimp only
  split
  · exact cxlWoken_noteUe ..
  · exact .refl _

end

/-- A message on its way to another sheet reaches the links alone. -/
theorem linksOnly_forwardMsg (t : Nat) (m : List Flit) (s : State) : LinksOnly s (forwardMsg t m s) := by
  unfold forwardMsg
  split
  · exact linksOnly_sendOn ..
  · exact .refl s

/-- What a line read for another sheet reaches of the host's side: errors are counted, and the host may be woken. -/
theorem serveLine_host (sheet tag a : Nat) (s : State) :
    OnlyUeCounted s (serveLine sheet tag a s) ∧ CxlWoken s.cxl (serveLine sheet tag a s).cxl := by
  have hline := (deviceLine_state ((hbmBase + a) / 32) s).2
  have hcxl := cxlWoken_deviceLine s ((hbmBase + a) / 32)
  have hsent (line : List Byte) (status : Nat) (t : State) :=
    (linksOnly_forwardMsg sheet (memRspFlits t sheet tag line status) t)
  unfold serveLine
  dsimp only
  split
  · exact ⟨hline.trans (.of_hbm ((hsent ..).kept (·.hbm) fun _ _ _ => rfl)),
      hcxl.trans (.of_eq ((hsent ..).kept (·.cxl) fun _ _ _ => rfl))⟩
  · exact ⟨hline.trans (.of_hbm ((hsent ..).kept (·.hbm) fun _ _ _ => rfl)),
      hcxl.trans (.of_eq ((hsent ..).kept (·.cxl) fun _ _ _ => rfl))⟩

/-- The emptied filter, and what the reads that go on then leave of the interface. -/
theorem emptyFilter_host (t : State) :
    (emptyFilter t).hbm.filter = [] ∧ (emptyFilter t).hbm.snoops = [] ∧ CxlWoken t.cxl (emptyFilter t).cxl := by
  unfold emptyFilter
  dsimp only
  refine foldl_preserves (fun u : State => u.hbm.filter = [] ∧ u.hbm.snoops = [] ∧ CxlWoken t.cxl u.cxl) _ (fun u w h => ?_) _ _
    ⟨rfl, rfl, .refl _⟩
  obtain ⟨hf, hs, hc⟩ := h
  obtain ⟨hue, hwoken⟩ := serveLine_host w.sheet w.tag w.addr u
  exact ⟨hue.filter.trans hf, hue.snoops.trans hs, hc.trans hwoken⟩

/-! ### The host's reach (R299) -/

section
variable {s : State}

/-- The host loses what it had, or gains what waited. -/
theorem reachChange_lost {was : Bool} (h : hostReachable s = false) :
    reachChange was s = if was = true then endRequests (fun _ => true) s else s := by
  unfold reachChange
  rw [h]
  cases was <;> rfl

theorem reachChange_gained {was : Bool} (h : was = true → hostReachable s = true) :
    reachChange was s = if was = false ∧ hostReachable s = true then sendPending (flushHost s) else s := by
  unfold reachChange hostReturns
  cases was with
  | false => cases hostReachable s <;> rfl
  | true => rw [h rfl]; rfl

theorem reachChange_same : reachChange (hostReachable s) s = s := by
  unfold reachChange
  cases hostReachable s <;> rfl

theorem hostReachable_of_down (h : s.cxl.linkUp = false) : hostReachable s = false := by
  rw [hostReachable, h]
  rfl

theorem hostReachable_of_dstate (h : s.cxl.dstate ≠ .d0) : hostReachable s = false := by
  simp [hostReachable, h]

theorem hostReachable_of_cacheEn (h : s.cxl.cacheEn = false) : hostReachable s = false := by
  simp [hostReachable, h]

/-- The state in which the function has changed its D-state, with Field Book 0x0703 (R300, R304). -/
def inDState (d : DState) (s : State) : State :=
  { fbRaise 0x0703 (BitVec.ofNat 64 d.code) s with cxl := { s.cxl with dstate := d } }

theorem setDState_same {d : DState} (h : s.cxl.dstate = d) : setDState d s = s := if_pos h

theorem setDState_other {d : DState} (h : s.cxl.dstate ≠ d) : setDState d s = reachChange (hostReachable s) (inDState d s) :=
  if_neg h

/-- A change of D-state while the host is not reached before or after it. -/
theorem setDState_unreached {d : DState} (h : s.cxl.cacheEn = false ∨ s.cxl.linkUp = false) :
    setDState d s = if s.cxl.dstate = d then s else inDState d s := by
  have hs : hostReachable s = false := h.elim hostReachable_of_cacheEn hostReachable_of_down
  have hd : hostReachable (inDState d s) = false := h.elim (hostReachable_of_cacheEn (s := inDState d s)) (hostReachable_of_down (s := inDState d s))
  split
  case isTrue hn => exact setDState_same hn
  case isFalse hn => exact (setDState_other hn).trans ((reachChange_lost hd).trans (if_neg (by rw [hs]; exact Bool.false_ne_true)))

/-- A reset of the host interface leaves the host out of reach (R303). -/
theorem hostReset_unreached (reason : Nat) (l : LinkState) (s : State) : (hostReset reason l s).cxl.cacheEn = false := by
  unfold hostReset
  have h := (emptyFilter_host { endRequests (fun _ => true) (noteLinkDown reason s) with
    cxl := { (endRequests (fun _ => true) (noteLinkDown reason s)).cxl.resetIo.resetCxl with
      link := l, session := false, ide := [] } }).2.2.rest
  exact congrArg Cxl.cacheEn h

/-- Training brings the link to L0 and tells what it offers (R287). -/
theorem linkTrainedHost_eq (w rate : Nat) (alt : Bool) (s : State) :
    let only := alt = false ∨ rate < 8
    let x := { s.cxl with width := w, trained := w, rate := rate, ioOnly := decide only, link := .l0 }
    let t := fbRaise 0x0702 (BitVec.ofNat 64 (w % 256 * 256 + rate % 256)) { s with cxl := x }
    let u := if only then fbRaise 0x0706 (BitVec.ofNat 64 (rate % 256)) t else t
    linkTrainedHost w rate alt s = if hostReachable s = false ∧ hostReachable u = true then sendPending (flushHost u) else u := by
  intro only x t u
  have hio : (!alt || decide (rate < 8)) = decide only := by simp [only]
  have hgain (v : State) (hv : hostReachable s = true → hostReachable v = true) :
      reachChange (hostReachable s) v = if hostReachable s = false ∧ hostReachable v = true then sendPending (flushHost v) else v :=
    reachChange_gained hv
  have hkeep (v : State) (hv : v.cxl = x) (h : hostReachable s = true) : hostReachable v = true := by
    simp only [hostReachable, Bool.and_eq_true] at h ⊢
    rw [hv]
    exact ⟨⟨rfl, h.1.2⟩, h.2⟩
  unfold linkTrainedHost hostChange
  rw [hio]
  dsimp only
  by_cases ho : only
  · have hu : u = fbRaise 0x0706 (BitVec.ofNat 64 (rate % 256)) t := if_pos ho
    rw [hu, if_pos (decide_eq_true ho)]
    exact hgain _ (hkeep _ rfl)
  · have hu : u = t := if_neg ho
    rw [hu, if_neg (fun hd => ho (of_decide_eq_true hd))]
    exact hgain _ (hkeep _ rfl)

theorem exec_dStateChange {d : Nat} (hd : d = 0 ∨ d = 3) (hl : s.cxl.linkUp = true) (hc : s.cxl.dstate ≠ .d3cold) :
    exec (.dStateChange d) s = .next (setDState (if d = 0 then .d0 else .d3hot) s) := by
  refine (if_neg (by omega)).trans (if_pos ?_)
  simp [hl, hc]

theorem exec_perstAssert_l2 (h : s.cxl.link = .l2) : exec .perstAssert s =
    .next (setDState .d3cold (hostReset 1 .l2 { s with cxl := { s.cxl with perst := true } })) := by
  show execPerstAssert s = _
  simp only [execPerstAssert, decide_eq_true h, if_true]

theorem exec_perstAssert_other (h : s.cxl.link ≠ .l2) : exec .perstAssert s =
    .next (hostReset 1 .down { s with cxl := { s.cxl with perst := true } }) := by
  show execPerstAssert s = _
  simp only [execPerstAssert, decide_eq_false h, if_false, Bool.false_eq_true]

/-- CXL.io's registers do not decide whether the host is reached. -/
theorem hostChange_resetIo (s : State) : hostChange Cxl.resetIo s = { s with cxl := s.cxl.resetIo } :=
  reachChange_same (s := { s with cxl := s.cxl.resetIo })

end

/-- Settles O43: each row's change of the interface, and what the host's reach makes of it. -/
theorem hostLinkTrainsSleepsAndResets : Obligations.HostLinkTrainsSleepsAndResets := by
  unfold Obligations.HostLinkTrainsSleepsAndResets
  intro s c up code back lost down io mem all toD0
  have hup (h : up) : c.linkUp = true := (linkUp_iff c).2 h
  have hdown (t : State) (h : t.cxl.cacheEn = false ∨ t.cxl.linkUp = false) : setDState .d0 t = toD0 t := setDState_unreached h
  refine ⟨fun w rate alt hon hp => ?_, fun w h => if_pos (by simpa using h), fun h ha hr => if_pos ?_, fun h => ?_, fun h hd => ?_,
    fun h hd => ?_, ⟨fun h => ?_, fun h => ?_⟩, fun h => ?_, congrArg _ (hdown _ (.inl (hostReset_unreached 3 .down s))),
    congrArg _ (hdown _ (.inl (hostReset_unreached 2 .down s))), ?_, ?_, fun t => ?_⟩
  · exact (if_neg (by simpa [c] using ⟨hon, hp⟩)).trans (congrArg _ (linkTrainedHost_eq w rate alt s))
  · simp only [Bool.and_eq_true, Bool.or_eq_true, beq_iff_eq, List.isEmpty_iff]
    exact ⟨⟨h, ha⟩, hr⟩
  · exact (if_pos (hup h)).trans (congrArg _ (reachChange_lost (hostReachable_of_down rfl)))
  · have hd3 : s.cxl.dstate ≠ .d3hot ∧ s.cxl.dstate ≠ .d3cold := by rw [show s.cxl.dstate = .d0 from hd]; decide
    have hlost : hostReachable (inDState .d3hot s) = false := hostReachable_of_dstate (nofun)
    exact (exec_dStateChange (.inr rfl) (hup h) hd3.2).trans
      (congrArg _ ((setDState_other hd3.1).trans (reachChange_lost hlost)))
  · have hd0 : s.cxl.dstate ≠ .d0 ∧ s.cxl.dstate ≠ .d3cold := by rw [show s.cxl.dstate = .d3hot from hd]; decide
    have hwas : hostReachable s = true → hostReachable (inDState .d0 s) = true := by
      rw [hostReachable_of_dstate hd0.1]
      nofun
    exact (exec_dStateChange (.inl rfl) (hup h) hd0.2).trans
      (congrArg _ ((setDState_other hd0.1).trans (reachChange_gained hwas)))
  · exact exec_perstAssert_other h
  · exact (exec_perstAssert_l2 h).trans (congrArg _ (setDState_unreached (.inl (hostReset_unreached ..))))
  · exact (if_pos h).trans (congrArg _ (hdown _ (.inr rfl)))
  · intro t u
    have hx : exec .flr s = .next (setDState .d0 u) := congrArg (fun v => Host.Outcome.next (setDState .d0 v)) (hostChange_resetIo t)
    refine hx.trans (congrArg _ ?_)
    by_cases hd : u.cxl.dstate = .d0
    · rw [setDState_same hd, if_pos hd]
    · have hwas := hostReachable_of_dstate hd
      rw [setDState_other hd, if_neg hd, hwas, reachChange_gained (was := false) (fun h => nomatch h)]
      exact if_congr (and_iff_right rfl) rfl rfl
  · intro t u
    have hu : hostReachable u = false := hostReachable_of_cacheEn rfl
    exact congrArg (fun v => Host.Outcome.next (emptyFilter v)) (reachChange_lost hu)
  · obtain ⟨hf, hs, hc⟩ := emptyFilter_host t
    exact ⟨hf, hs, hc.link, hc.rest⟩

end Sys2Proof.Machine
end

section
/-! Obligation `SessionsKeysAndLoopBacks` (O45): DOE, SPDM, IDE and the host's loop-backs (R295, R296, R307, R348, R350). -/

namespace Sys2Proof.Machine

section
variable {s : State}

/-! ### DOE, SPDM and the LKEK (R295, R348, R350) -/

theorem exec_doeRequest {i : Nat} (hi : i < 2) (hon : s.glb.state ≠ .off) (ty : W32) : exec (.doeRequest i ty) s =
    let f := takeFree s
    let d := Tab.get {} f.2.cxl.doe i
    .next (send (.doeAnswer i ty f.1) { f.2 with cxl := { f.2.cxl with
      doe := Tab.set f.2.cxl.doe i { d with answers := d.answers ++ [[ty, f.1]] } } }) :=
  (if_neg (Nat.not_le.2 hi)).trans (if_neg (by simpa using hon))

theorem exec_spdmRequest_busy {code : Nat} (hv : s.sec.verified = 0) (h1 : code ≠ 0x84) (h2 : code ≠ 0xE1) :
    exec (.spdmRequest code) s = .next (spdmAnswer (BitVec.ofNat 32 (0x13 + code % 256 * 256)) 0x00037F13#32 s) :=
  if_pos ⟨by simp [spdmBusy, hv], h1, h2⟩

theorem exec_spdmRequest_answered {code : Nat} (h : s.sec.verified ≠ 0 ∨ code = 0x84 ∨ code = 0xE1) :
    exec (.spdmRequest code) s =
      let f := takeFree s
      .next (spdmAnswer (BitVec.ofNat 32 (0x13 + code % 256 * 256)) f.1 { f.2 with cxl := { f.2.cxl with
        session := if code = 0xE5 then true else if code = 0xEC then false else s.cxl.session } }) := by
  refine if_neg fun hb => ?_
  obtain ⟨hbusy, h1, h2⟩ := hb
  have hv : s.sec.verified = 0 := by simpa [spdmBusy] using hbusy
  rcases h with h | h | h
  · exact h hv
  · exact h1 h
  · exact h2 h

theorem exec_lkekInstall (key : BitVec 256) (gen : W32) : exec (.lkekInstall key gen) s =
    if s.cxl.session = true ∧ s.sec.verified ≠ 0 then
      .next (fbRaise 0x0206 (BitVec.ofNat 64 gen.toNat)
        (spdmAnswer 0 gen { s with sec := { s.sec with lkek := some key, lkekGen := gen.toNat } }))
    else .next s :=
  if_congr (by simp [spdmBusy]) rfl rfl

/-! ### IDE (R296) -/

theorem ideStream_of {n : Nat} (h : n ≤ 4 ∨ n = 8) : ¬(!ideStream n) = true := by
  rcases h with h | h <;> simp [ideStream, h]

theorem exec_ideKmKey {n : Nat} (h : n ≤ 4 ∨ n = 8) : exec (.ideKmKey n) s =
    .next (if s.cxl.session then { s with cxl := { s.cxl with ide := Tab.set s.cxl.ide n .secure } } else s) :=
  (if_neg (ideStream_of h)).trans (apply_ite Host.Outcome.next ..).symm

theorem exec_ideIntegrityFail {n : Nat} (h : n ≤ 4 ∨ n = 8) : exec (.ideIntegrityFail n) s =
    .next (if Tab.get .off s.cxl.ide n = .secure then
      irqSet 5 1 (fbRaise 0x0210 (BitVec.ofNat 64 (if n = 8 then 264 else n))
        { s with cxl := { s.cxl with ide := Tab.set s.cxl.ide n .insecure } }) else s) := by
  have hcode : (if n = 8 then 256 else 0) + n = if n = 8 then 264 else n := by split <;> omega
  refine (if_neg (ideStream_of h)).trans ?_
  rw [hcode]
  exact (apply_ite Host.Outcome.next ..).symm

/-! ### Loop-backs (R307) -/

/-- The link enters loop-back, and a host that was reached is not any more. -/
theorem loopBack_eq (t : State) : hostChange (fun c => { c with link := .loopback }) t =
    if hostReachable t = true then endRequests (fun _ => true) { t with cxl := { t.cxl with link := .loopback } }
    else { t with cxl := { t.cxl with link := .loopback } } :=
  reachChange_lost (hostReachable_of_down rfl)

theorem startHostLoop_eq (ag : Nat) (v : W32) (s : State) :
    let d := fld v 0 3
    let ran := fld s.cxl.loop 0 3
    let x := { s.cxl with loop := v &&& 0xFF07#32, loopEnd := now s + max 1 (fld v 8 8) * 2 ^ 20 }
    let u : State := { s with cxl := x }
    let w : State := { fbRaise 0x0701 6 u with cxl := { x with link := .loopback } }
    startHostLoop ag v s =
      if 5 ≤ d then refuseReg 5 ag 0x1028 s
      else if d = 0 then { s with cxl := { s.cxl with
        loop := (s.cxl.loop &&& 0xC0FF0000#32) ||| (v &&& 0xFF00#32), link := if ran = 0 ∨ ran = 4 then s.cxl.link else .down } }
      else if s.glb.state ≠ .test then refuseReg 4 ag 0x1028 s
      else if d = 4 then { u with cxl := { x with loopMem := [] } }
      else if hostReachable s = true then endRequests (fun _ => true) w else w := by
  intro d ran x u w
  have hw : hostChange (fun c => { c with link := .loopback }) (noteLinkDown 6 u) =
      if hostReachable s = true then endRequests (fun _ => true) w else w := loopBack_eq (noteLinkDown 6 u)
  rw [← hw]
  rfl

theorem fld_loopDone_duration (v : W32) (errs : Nat) (formed : Bool) : fld (loopDone v errs formed) 8 8 = fld v 8 8 := by
  unfold loopDone
  rw [fld_putFld_other (by omega) (by omega), fld_putFld_other (by omega) (by omega), putBit,
    fld_putFld_other (by omega) (by omega), putBit, fld_putFld_other (by omega) (by omega)]

end

/-- Settles O45: an answer, a key or a loop-back is a change of one register of the interface, by the session and the state. -/
theorem sessionsKeysAndLoopBacks : Obligations.SessionsKeysAndLoopBacks := by
  unfold Obligations.SessionsKeysAndLoopBacks
  intro s c free one up looped said
  refine ⟨fun i ty hi hon => exec_doeRequest hi hon ty, fun i hi => ⟨_, if_neg (Nat.not_le.2 hi), ?_, fun j hj => ?_, rfl⟩,
    fun code => ⟨fun hv h1 h2 => exec_spdmRequest_busy hv h1 h2, fun h => exec_spdmRequest_answered h⟩,
    fun key gen hs hv => (exec_lkekInstall key gen).trans (if_pos ⟨hs, hv⟩),
    fun key gen h => (exec_lkekInstall key gen).trans (if_neg ?_), fun n hn => ⟨exec_ideKmKey hn, exec_ideIntegrityFail hn⟩,
    fun ag v => writes_of rfl (startHostLoop_eq ag v s), fun errs formed hd ht => ?_, fun h => ?_⟩
  · exact Tab.get_set_same ..
  · exact Tab.get_set_other _ _ _ _ _ hj
  · rintro ⟨hs, hv⟩
    exact h.elim (fun hn => by rw [show s.cxl.session = false from hn] at hs; cases hs) hv
  · have hrun : ¬(fld s.cxl.loop 0 3 = 0 ∨ now s < s.cxl.loopEnd) := not_or.2 ⟨hd, Nat.not_lt.2 ht⟩
    refine ⟨_, if_neg hrun, rfl, fld_loopDone_depth .., bitOf_loopDone_done .., ?_, fld_loopDone_errs ..,
      fld_loopDone_duration ..⟩
    dsimp only
    rw [bitOf_loopDone_fail]
    simp only [Bool.or_eq_true, decide_eq_true_eq, Bool.not_eq_true', Nat.pos_iff_ne_zero]
    rfl
  · exact (if_pos ((linkUp_iff c).2 h)).trans (congrArg _ (loopBack_eq _))

end Sys2Proof.Machine
end


section
/-! Obligation O46: a step of a start is an equation of its own under what it needs; the copies of a stage fail, are taken, or await
a push through `tryCopy`, and step 6 is an invariant over the pages it trains and returns. -/

namespace Sys2Proof.Machine

/-! ### A start that fails -/

/-- A failed start is one trigger after its record (R343). -/
theorem startFail_eq (reason : Nat) (s : State) : startFail reason s =
    let u := fbRaise 0x0103 (BitVec.ofNat 64 reason) { s with sec := { s.sec with
      lastFail := reason, starting := false, waitPush := 0, push := .idle } }
    trigger (if s.sec.otp.threshold ≤ s.sec.count then .tussock reason else .reset) u := by
  unfold startFail
  dsimp only
  by_cases h : s.sec.otp.threshold ≤ s.sec.count
  · rw [if_pos h, if_pos h]
    rfl
  · rw [if_neg h, if_neg h]
    rfl

theorem exec_startSequence {s : State} (h : startOpen s = true) (step : Nat) (args : List Nat) (image : Option (List Byte)) :
    exec (.startSequence step args image) s = .next (startStep step args image s) :=
  congrArg Host.Outcome.next (if_pos h)

theorem exec_startupWatchdog {s : State} (h : startOpen s = true) (hdue : s.sec.since + 2 ^ 33 ≤ now s) :
    exec .startupWatchdog s = .next (startFail 5 s) :=
  congrArg Host.Outcome.next (if_pos (by rw [h, decide_eq_true hdue]; rfl))

/-! ### Steps 2 to 4 -/

theorem startStep_early {s : State} {step : Nat} (hstep : step = 2 ∨ step = 3 ∨ step = 4) (h : s.sec.step + 1 = step) (args : List Nat)
    (image : Option (List Byte)) : startStep step args image s = startEarly step (args.getD 0 0) s := by
  obtain rfl | rfl | rfl := hstep <;> exact if_pos ⟨by decide, h⟩

/-! ### The copies of a stage -/

theorem startStep_stage1 {s : State} (h : s.sec.step = 4 ∨ s.sec.step = 5 ∧ s.sec.verified = 0 ∧ s.sec.waitPush = 0) (args : List Nat)
    (image : Option (List Byte)) : startStep 5 args image s = tryCopy 1 image { s with sec := { s.sec with step := 5 } } :=
  if_pos h

theorem startStep_stage2 {s : State} (h : s.sec.step = 6 ∨ s.sec.step = 7 ∧ s.sec.verified = 1 ∧ s.sec.waitPush = 0) (args : List Nat)
    (image : Option (List Byte)) :
    startStep 7 args image s = tryCopy 2 image (fixMeas4 { s with sec := { s.sec with step := 7 } }) :=
  if_pos h

/-- What step 5 or 7 leaves of a start's own registers: nothing but the step and the measurements differ. -/
structure StageKept (s t : State) : Prop where
  otp : t.sec.otp = s.sec.otp
  forceHost : t.sec.forceHost = s.sec.forceHost
  tried : t.sec.tried = s.sec.tried

theorem stageKept_step (n : Nat) (s : State) : StageKept s { s with sec := { s.sec with step := n } } := ⟨rfl, rfl, rfl⟩

theorem stageKept_fixMeas4 (n : Nat) (s : State) : StageKept s (fixMeas4 { s with sec := { s.sec with step := n } }) :=
  ⟨rfl, rfl, rfl⟩

/-- Verification of an image depends on the OTP alone. -/
theorem verifyImage_congr {x y : Sec} (h : x.otp = y.otp) (stage : Nat) (bs : List Byte) :
    verifyImage x stage bs = verifyImage y stage bs := by
  unfold verifyImage keySlot svnFloor
  rw [h]

theorem StageKept.bootSource {s t : State} (h : StageKept s t) : bootSource t.sec = bootSource s.sec := by
  unfold Machine.bootSource
  rw [h.otp, h.forceHost]

theorem StageKept.verifyImage {s t : State} (h : StageKept s t) (stage : Nat) (bs : List Byte) :
    verifyImage t.sec stage bs = verifyImage s.sec stage bs := verifyImage_congr h.otp stage bs

/-- What follows a copy of a stage that is not taken (R337): copy B after copy A, then the end of the copies. -/
def copyFailed (x : Sec) (stage : Nat) (here : Bool) (u : State) : State :=
  let v : State := { u with sec := { u.sec with tried := (x.tried.1 + 1, x.tried.2 || here) } }
  if x.tried.1 = 0 then v
  else if bootSource x = 2 then startFail (if x.tried.2 || here then 1 else 2) v
  else irqSet 5 4 { v with sec := { v.sec with waitPush := stage } }

/-- The end of the copies asks for the boot source, which a copy leaves alone. -/
theorem copiesDone_eq {s t : State} (h : StageKept s t) (stage : Nat) (here : Bool) (u : State)
    (hu : bootSource u.sec = bootSource t.sec) :
    (let t1 : State := { u with sec := { u.sec with tried := (t.sec.tried.1 + 1, t.sec.tried.2 || here) } }
     if t.sec.tried.1 = 0 then t1 else copiesDone stage (t.sec.tried.2 || here) t1) = copyFailed s.sec stage here u := by
  have hsrc : bootSource { u.sec with tried := (s.sec.tried.1 + 1, s.sec.tried.2 || here) } = bootSource s.sec :=
    hu.trans h.bootSource
  unfold copyFailed copiesDone
  dsimp only
  rw [h.tried, hsrc]
  rfl

theorem tryCopy_host {s t : State} (h : StageKept s t) (hsrc : bootSource s.sec = 1) (stage : Nat) (image : Option (List Byte)) :
    tryCopy stage image t = irqSet 5 4 { t with sec := { t.sec with waitPush := stage } } :=
  if_pos (h.bootSource.trans hsrc)

theorem tryCopy_none {s t : State} (h : StageKept s t) (hsrc : bootSource s.sec ≠ 1) (stage : Nat) :
    tryCopy stage none t = copyFailed s.sec stage false t :=
  (if_neg (h.bootSource ▸ hsrc)).trans (copiesDone_eq h stage false t rfl)

theorem tryCopy_absent {s t : State} (h : StageKept s t) (hsrc : bootSource s.sec ≠ 1) {bs : List Byte} (hbs : imagePresent bs = false)
    (stage : Nat) : tryCopy stage (some bs) t = copyFailed s.sec stage false t :=
  (if_neg (h.bootSource ▸ hsrc)).trans ((if_neg (Bool.eq_false_iff.1 hbs)).trans (copiesDone_eq h stage false t rfl))

theorem tryCopy_present {s t : State} (h : StageKept s t) (hsrc : bootSource s.sec ≠ 1) {bs : List Byte} (hbs : imagePresent bs = true)
    (stage : Nat) : tryCopy stage (some bs) t =
      if verifyImage s.sec stage bs = 0 then acceptStage stage s.sec.tried.1 bs t
      else copyFailed s.sec stage true (rejectImage stage s.sec.tried.1 (verifyImage s.sec stage bs) bs t) := by
  refine (if_neg (h.bootSource ▸ hsrc)).trans ((if_pos hbs).trans ?_)
  rw [h.verifyImage, h.tried, ← h.tried]
  exact if_congr Iff.rfl rfl (copiesDone_eq h stage true _ rfl)

/-! ### Step 6 -/

theorem startStep_six {s : State} (h : s.sec.step = 5) (hv : s.sec.verified = 1) (mask hbm map : Nat) (pages : List Nat)
    (image : Option (List Byte)) :
    startStep 6 (mask :: hbm :: map :: pages) image s = startStep6 mask (hbm == 1) (map == 1) pages s :=
  if_pos ⟨h, hv⟩

/-- What step 6 has established before it returns the pages that training repaired. -/
structure BedsBound (binding : Tab (Option Nat)) (failed : List Nat) (t : State) : Prop where
  step : t.sec.step = 6
  binding : t.binding = binding
  failed : t.spr.failed = failed
  memReady : t.cxl.memReady = true
  trained : ∀ p, p < 64 → (hbmPageOf t p).trained = true

/-- A page returned touches HBM's backing and the Field Book alone. -/
theorem bedsBound_returnPage {binding : Tab (Option Nat)} {failed : List Nat} {t : State} (h : BedsBound binding failed t) (n : Nat) :
    BedsBound binding failed (returnPage n t) := by
  unfold returnPage
  split
  · exact ⟨h.step, h.binding, h.failed, h.memReady, h.trained⟩
  · exact h

/-- A channel of HBM is trained (R189). -/
def trainPage (u : State) (p : Nat) : State := setHbmPage p { hbmPageOf u p with trained := true } u

/-- A channel that is trained stays so, and keeps what the beds were bound to. -/
theorem bedsBound_trainAll {binding : Tab (Option Nat)} {failed : List Nat} {t : State} (hstep : t.sec.step = 6)
    (hbinding : t.binding = binding) (hfailed : t.spr.failed = failed) (hready : t.cxl.memReady = true)
    {l : List Nat} (hl : ∀ p, p < 64 → p ∈ l) : BedsBound binding failed (l.foldl trainPage t) where
  step := (foldl_keeps (·.sec.step) trainPage (fun _ _ => rfl) l t).trans hstep
  binding := (foldl_keeps (·.binding) trainPage (fun _ _ => rfl) l t).trans hbinding
  failed := (foldl_keeps (·.spr.failed) trainPage (fun _ _ => rfl) l t).trans hfailed
  memReady := (foldl_keeps (·.cxl.memReady) trainPage (fun _ _ => rfl) l t).trans hready
  trained p hp := by
    refine foldl_establishes (P := fun p u => (hbmPageOf u p).trained = true) (fun u q => ?_) (fun u q r h => ?_) (hl p hp) t
    · rw [trainPage, hbmPageOf_setHbmPage]
    · by_cases hq : r = q
      · rw [hq, trainPage, hbmPageOf_setHbmPage]
      · rw [trainPage, hbmPageOf_setHbmPage_other _ _ _ _ hq]
        exact h

/-- Step 6 fails without HBM, with too few reeds, or with a bad map, in that order. -/
theorem startStep6_fails (s : State) (mask : Nat) (pages : List Nat) (hbmOk mapOk : Bool) :
    let few := 544 - ((List.range 544).filter fun p => !bitAt mask p).length < 480
    let fails := fun reason => startStep6 mask hbmOk mapOk pages s = startFail reason { s with sec := { s.sec with step := 6 } }
    (hbmOk = false → fails 3) ∧ (hbmOk = true → few → fails 4) ∧ (hbmOk = true → ¬few → mapOk = false → fails 0xB) := by
  unfold startStep6 setSec
  refine ⟨fun hh => ?_, fun hh hf => ?_, fun hh hf hm => ?_⟩ <;> subst hh <;>
    simp only [Bool.not_true, Bool.not_false, Bool.false_eq_true, if_false, if_true]
  · exact if_pos hf
  · rw [if_neg hf, hm]
    rfl

theorem startStep6_ready {mask : Nat} {failed : List Nat} (hfailed : ((List.range 544).filter fun p => !bitAt mask p) = failed)
    (hfew : ¬544 - failed.length < 480) (pages : List Nat) (s : State) :
    BedsBound (bindingOf (bindReeds mask)) failed (startStep6 mask true true pages s) := by
  have hall (p : Nat) (hp : p < 64) : p ∈ List.range 64 := List.mem_range.2 hp
  -- What the table and the range hold does not matter here, and evaluating them is costly.
  unfold startStep6
  generalize List.range 64 = l at hall
  generalize bindingOf (bindReeds mask) = binding
  simp only [hfailed, Bool.not_true, Bool.false_eq_true, if_false, if_neg hfew]
  refine foldl_preserves (BedsBound binding failed) (fun u n => returnPage n u) (fun u n h => bedsBound_returnPage h n) _ _
    (bedsBound_trainAll ?_ ?_ ?_ ?_ hall) <;> rfl

/-- Settles O46: every step is its own equation once the start is open; the two stages share the lemmas about their copies. -/
theorem startRunsItsSteps : Obligations.StartRunsItsSteps := by
  intro s hstate htarget hstarting
  have hopen : startOpen s = true := by
    unfold startOpen
    rw [hstate, htarget, hstarting]
    rfl
  have run {step : Nat} {args : List Nat} {image : Option (List Byte)} {t : State} (h : startStep step args image s = t) :
      exec (.startSequence step args image) s = .next t := (exec_startSequence hopen step args image).trans (congrArg _ h)
  intro x at' _ fails source
  have hfails (reason : Nat) (t : State) : startFail reason t = fails reason t := startFail_eq reason t
  refine ⟨fun reason image hreason => run ((if_pos hreason).trans (hfails ..)),
    fun hdue => (exec_startupWatchdog hopen hdue).trans (congrArg _ (hfails ..)), fun mask image hx => ?_,
    fun args image hx => run (startStep_early (by decide) (by rw [hx]) args image),
    fun ok image hx => ?_, ?_, fun mask hbm map pages image hx hv => ?_, fun args image hx hv => run (if_pos ⟨hx, hv⟩)⟩
  · refine run ((startStep_early (by decide) (by rw [hx]) [mask] image).trans ?_)
    exact if_congr Iff.rfl (hfails ..) rfl
  · refine run ((startStep_early (by decide) (by rw [hx]) [ok] image).trans ?_)
    exact if_congr Iff.rfl rfl (hfails ..)
  · intro stage args hstage n t awaits tried
    have hcopy (here : Bool) (u : State) : copyFailed x stage here u = tried here u := by
      unfold copyFailed
      simp only [hfails]
      rfl
    have hkept : StageKept s t ∧ ∀ image, startStep n args image s = tryCopy stage image t := by
      rcases hstage with ⟨rfl, h⟩ | ⟨rfl, h⟩
      · exact ⟨stageKept_step 5 s, startStep_stage1 h args⟩
      · exact ⟨stageKept_fixMeas4 7 s, startStep_stage2 h args⟩
    obtain ⟨hkept, hstep⟩ := hkept
    refine ⟨fun image hsrc => run ((hstep _).trans (tryCopy_host hkept hsrc stage image)),
      fun hsrc => run ((hstep _).trans ((tryCopy_none hkept hsrc stage).trans (hcopy ..))),
      fun bs hsrc hbs => run ((hstep _).trans ((tryCopy_absent hkept hsrc hbs stage).trans (hcopy ..))),
      fun bs hsrc hbs => run ((hstep _).trans ((tryCopy_present hkept hsrc hbs stage).trans ?_))⟩
    exact if_congr Iff.rfl rfl (hcopy ..)
  · intro failed
    have hsix := startStep_six hx hv mask hbm map pages image
    obtain ⟨hhbm, hfew, hmap⟩ := startStep6_fails s mask pages (hbm == 1) (map == 1)
    refine ⟨fun h => run (hsix.trans ((hhbm (beq_false_of_ne h)).trans (hfails ..))),
      fun h hlt => run (hsix.trans ((hfew (beq_iff_eq.2 h) hlt).trans (hfails ..))),
      fun h hge hm => run (hsix.trans ((hmap (beq_iff_eq.2 h) (Nat.not_lt.2 hge) (beq_false_of_ne hm)).trans (hfails ..))),
      fun h hge hm => ⟨startStep6 mask true true pages s, run (hsix.trans (by rw [h, hm]; rfl)), ?_⟩⟩
    have h := startStep6_ready (mask := mask) (failed := failed) rfl (Nat.not_lt.2 hge) pages s
    exact ⟨h.step, h.binding, h.failed, h.memReady, h.trained⟩

end Sys2Proof.Machine
end


section
/-! Obligation O47: a push by its GO, its data and its end; a trust record by its type; the writes of SEC by their registers. -/

namespace Sys2Proof.Machine

/-! ### Pushes (R338) -/

theorem pushRefused_iff (s : State) (kind len : Nat) : pushRefused s kind len = true ↔
    kind = 0 ∨ s.sec.push ≠ .idle ∨ stageLimit kind < len ∨ len % 4 ≠ 0 ∨ len = 0 ∨
      (kind = 3 ∧ s.glb.state ≠ .service ∧ s.glb.state ≠ .tussock) ∨ (kind ≠ 3 ∧ s.sec.waitPush = 0) := by
  unfold pushRefused
  by_cases h : kind = 3 <;> simp [h, or_assoc]

/-- A GO takes its kind and length where no push is under way, whether or not it is refused. -/
theorem pushGo_eq (ag : Nat) (v : W32) (s : State) : pushGo ag v s =
    let kind := fld v 28 2
    let len := fld v 0 25
    let y := if s.sec.push = .idle then { s.sec with kind := kind, len := len } else s.sec
    if pushRefused s kind len then
      glbErr 5 (agentOf ag) ((0x5000 + 0x48) / 4) { s with sec := { y with err := true } }
    else { s with sec := { y with push := .filling, buffer := [], done := false, err := false } } := by
  unfold pushGo
  by_cases h : s.sec.push = .idle <;> simp only [h, if_true, if_false] <;> rfl

theorem exec_pushVerifyComplete {s : State} (h : s.sec.push = .verifying) : exec .pushVerifyComplete s =
    .next (if s.sec.kind = 3 then takeTrust s.sec.buffer s else takePushed s.sec.kind s.sec.buffer s) := if_pos h

/-! ### Trust records (R342) -/

/-- A trust record revokes a key, provisions one, or, of any other type, opens debug access. -/
theorem applyTrust_eq (signer : Nat) (body : List Byte) (s : State) : applyTrust signer body s =
    let x := s.sec
    let tgt := leField body 1 1
    let slot := fun (k : KeySlot) (lock : Bool) =>
      fixMeas4 { s with sec := { x with otp := { x.otp with slots := Tab.set x.otp.slots tgt k, custLock := lock } } }
    if leField body 0 1 = 1 then slot { keySlot x tgt with revoked := true } x.otp.custLock
    else if leField body 0 1 = 2 then slot { v := true, revoked := false, stages := leField body 2 2 % 4
                                             hash := BitVec.ofNat 512 (leField body 20 64) } true
    else fbRaise 0x0207 (BitVec.ofNat 64 signer)
      (fixMeas4 { zeroise s with sec := { (zeroise s).sec with dbgOpen := true } }) := by
  unfold applyTrust
  dsimp only
  split
  case h_1 h => exact (if_pos h).symm
  case h_2 h => exact ((if_neg (by omega)).trans (if_pos h)).symm
  case h_3 h1 h2 => exact ((if_neg h1).trans (if_neg h2)).symm

/-! ### Zeroisation (R350) -/

theorem engineOf_zeroise_keys (s : State) (b : Nat) : (engineOf (zeroise s) b).keys = [] :=
  congrArg Engine.keys (Tab.get_map (f := fun e : Engine => { e with keys := [] }) rfl s.slc b)

/-- Settles O47: each row is its own meaning at its page, and the end of a push is that of the image it carried. -/
theorem pushesAndTrustRecords : Obligations.PushesAndTrustRecords := by
  intro s x put wrong ends
  refine ⟨fun ag v => ?_, fun ag v => writes_of (off := 0x504C) rfl rfl, fun hpush hkind => ?_, fun hpush hkind => ?_,
    fun ag => writes_of (off := 0x104C) rfl rfl, fun ag => writes_of (off := 0x5008) rfl rfl,
    fun ag h => ⟨zeroise s, congrArg _ (atPage_responds h), rfl, engineOf_zeroise_keys s, rfl⟩,
    fun ag h => congrArg _ (atPage_closed h)⟩
  · intro kind len y refused
    exact writes_of rfl ((pushGo_eq ag v s).trans (if_congr (pushRefused_iff s kind len) rfl rfl))
  · refine (exec_pushVerifyComplete hpush).trans (congrArg _ ((if_neg hkind).trans ?_))
    exact if_congr (or_congr Iff.rfl (Bool.not_eq_true' _).to_iff) rfl rfl
  · intro bs body signer ty tgt pay e slot done
    have hdone : applyTrust signer body s = done := applyTrust_eq signer body s
    refine (exec_pushVerifyComplete hpush).trans (congrArg _ ((if_pos hkind).trans ?_))
    unfold takeTrust
    exact if_congr (Bool.not_eq_true' _).to_iff rfl (if_congr Iff.rfl rfl
      (if_congr Iff.rfl (congrArg (fun t => ends false (fbRaise 0x0204 pay t)) hdone) rfl))

end Sys2Proof.Machine
end


section
/-! Obligation O49: what an occurrence leaves alone of the Field Book, what a record put into its slot leaves alone of the others, and
each row by its cases. -/

namespace Sys2Proof.Machine

/-! ### What an occurrence keeps -/

/-- Between two Field Books nothing but occurrences has passed: the input queue, the buckets and the count of what was dropped. -/
def BookKept (f g : Fbk) : Prop := g = { f with queue := g.queue, buckets := g.buckets, dropped := g.dropped }

theorem BookKept.refl (f : Fbk) : BookKept f f := rfl

theorem BookKept.of_eq {f g : Fbk} (h : g = f) : BookKept f g := h ▸ .refl f

theorem BookKept.trans {f g h : Fbk} (a : BookKept f g) (b : BookKept g h) : BookKept f h := by
  unfold BookKept at *
  rw [b, a]

theorem BookKept.record {f g : Fbk} (h : BookKept f g) (m : Nat) : g.record m = f.record m := (congrArg (·.record m) h).trans rfl

theorem BookKept.restored {f g : Fbk} (h : BookKept f g) : g.restored = f.restored := (congrArg (·.restored) h).trans rfl

theorem BookKept.next {f g : Fbk} (h : BookKept f g) : g.next = f.next := (congrArg (·.next) h).trans rfl

theorem BookKept.onBackup {f g : Fbk} (h : BookKept f g) : g.onBackup = f.onBackup := (congrArg (·.onBackup) h).trans rfl

theorem BookKept.dead {f g : Fbk} (h : BookKept f g) : g.dead = f.dead := (congrArg (·.dead) h).trans rfl

theorem BookKept.mirq {f g : Fbk} (h : BookKept f g) : g.mirq = f.mirq := (congrArg (·.mirq) h).trans rfl

theorem BookKept.rowsUsed {f g : Fbk} (h : BookKept f g) : g.rowsUsed = f.rowsUsed := (congrArg (·.rowsUsed) h).trans rfl

theorem BookKept.main {f g : Fbk} (h : BookKept f g) : g.main = f.main := (congrArg (·.main) h).trans rfl

theorem BookKept.backup {f g : Fbk} (h : BookKept f g) : g.backup = f.backup := (congrArg (·.backup) h).trans rfl

theorem BookKept.repairing {f g : Fbk} (h : BookKept f g) : g.repairing = f.repairing := (congrArg (·.repairing) h).trans rfl

theorem bookKept_fbEnqueue (f : Fbk) (q : FbRequest) : BookKept f (fbEnqueue f q).1 := by
  unfold fbEnqueue
  split <;> rfl

theorem bookKept_fbOccur (f : Fbk) (tick code : Nat) (payload : W64) : BookKept f (fbOccur f tick code payload) := by
  unfold fbOccur
  split
  · rfl
  split
  · exact bookKept_fbEnqueue ..
  dsimp only
  split
  · rfl
  · exact (bookKept_fbEnqueue ..).trans rfl

theorem bookKept_signalWake (s : State) : BookKept s.fbk (signalWake s).fbk := by
  unfold signalWake assertWake sendPme
  split
  · rfl
  split
  · split
    · rfl
    · exact bookKept_fbOccur ..
  split
  · exact bookKept_fbOccur ..
  · rfl

theorem bookKept_dormantWake (x : Source) (s : State) : BookKept s.fbk (dormantWake x s).fbk := by
  unfold dormantWake
  split
  · split
    · exact .of_eq (issueMsix_fbk ..)
    · exact bookKept_signalWake s
  · rfl

theorem bookKept_fireSource (n : Nat) (s : State) : BookKept s.fbk (fireSource n s).fbk := by
  unfold fireSource
  dsimp only
  have h := bookKept_dormantWake (fireCount (Tab.get {} s.srcs n)).1
    { s with srcs := Tab.set s.srcs n (fireCount (Tab.get {} s.srcs n)).1 }
  split
  · exact h.trans (bookKept_fbOccur ..)
  · exact h

theorem bookKept_irqSet (pg : Nat) (mask : W32) (s : State) : BookKept s.fbk (irqSet pg mask s).fbk := by
  unfold irqSet setHdr
  refine foldl_preserves (fun t : State => BookKept s.fbk t.fbk) _ (fun t b h => ?_) _ _ (.refl _)
  split
  · exact h.trans (bookKept_fireSource ..)
  · exact h

/-! ### Records and their slots (R356) -/

/-- A record put into its slot is read there, and every other slot of the memory in use is as before. -/
theorem Fbk.record_put (f : Fbk) (r : FbRecord) (m : Nat) :
    (f.put r).record m = if m % f.window = r.seq % f.window then r else f.record m := by
  unfold Fbk.put Fbk.record Fbk.slot Fbk.window
  by_cases hb : f.onBackup = true <;> simp only [hb, if_true, if_false, Bool.false_eq_true]
  all_goals
    split
    case isTrue h => rw [h, Tab.get_set_same]
    case isFalse h => exact Tab.get_set_other _ _ _ _ _ h

theorem Fbk.record_put_same (f : Fbk) (r : FbRecord) : (f.put r).record r.seq = r := (f.record_put r r.seq).trans (if_pos rfl)

/-- A record put leaves everything but the two memories alone. -/
theorem Fbk.put_eq (f : Fbk) (r : FbRecord) : f.put r = { f with main := (f.put r).main, backup := (f.put r).backup } := by
  unfold Fbk.put
  split <;> rfl

/-! ### Commits (R356, R361) -/

theorem fbWrite_record (code count : Nat) (pay : W64) (s : State) (m : Nat) : (fbWrite code count pay s).fbk.record m =
    if m % s.fbk.window = s.fbk.next % s.fbk.window then
      { seq := s.fbk.next, code := code, count := count, tide := now s, wall := s.fbk.wall, epoch := s.fbk.epoch, payload := pay }
    else s.fbk.record m :=
  s.fbk.record_put _ m

/-- A request of a code that does not accumulate, or that has no record in the window, is written as a new record. -/
theorem fbCommit_write {q : FbRequest} {s : State} (h : fbAccumulates q.code = false ∨ s.fbk.latest q.code = none) :
    fbCommit q s = fbWrite q.code (if fbAccumulates q.code then 1 else q.count) q.payload s := by
  unfold fbCommit
  by_cases ha : fbAccumulates q.code = true
  · rw [if_pos ha, if_pos ha, h.resolve_left (by rw [ha]; decide)]
  · rw [if_neg ha, if_neg ha]

theorem fbCommit_update {q : FbRequest} {s : State} {r : FbRecord} (ha : fbAccumulates q.code = true)
    (hr : s.fbk.latest q.code = some r) : fbCommit q s = fbUpdate r q.payload s := by
  unfold fbCommit
  rw [if_pos ha, hr]

/-- The update of a record that the mirror has copied waits to be copied again. -/
theorem fbUpdate_mirrored {r : FbRecord} {s : State} (hr : r.seq < s.fbk.mirSeq) (hm : s.fbk.miren = true)
    (hroom : s.fbk.updates.length < 16) (pay : W64) : fbUpdate r pay s = setFbk { s.fbk.put { r with
      count := satInc 0xFFFF r.count, tide := now s, wall := s.fbk.wall, epoch := s.fbk.epoch, payload := pay } with
      updates := s.fbk.updates ++ [{ seq := r.seq }] } s :=
  (if_pos ⟨hm, hr⟩).trans (if_neg (by rw [List.length_append, List.length_singleton]; omega))

section Commit
variable {s : State} {q : FbRequest} {rest : List FbRequest} (hq : s.fbk.queue = q :: rest) (hon : s.glb.state ≠ .off)
include hq hon

theorem exec_fbCommit (ue : Bool) : exec (.fbCommit ue) s =
    (let s1 : State := { s with fbk := { s.fbk with queue := rest } }
     let s2 := if ue ∧ !s1.fbk.dead then fbFails (fbTouches s1.fbk q.code) s1 else s1
     if s2.fbk.dead then .next { s2 with fbk := { s2.fbk with dropped := satInc 0xFFFF s2.fbk.dropped } }
     else .next (fbCommit q s2)) := by
  show execFbCommit ue s = _
  unfold execFbCommit
  rw [hq]
  exact if_neg hon

theorem exec_fbCommit_dead (hdead : s.fbk.dead = true) (ue : Bool) : exec (.fbCommit ue) s =
    .next { s with fbk := { s.fbk with queue := rest, dropped := satInc 0xFFFF s.fbk.dropped } } := by
  have hno : ¬(ue = true ∧ (!s.fbk.dead) = true) := by simp [hdead]
  rw [exec_fbCommit hq hon]
  dsimp only
  rw [if_neg hno]
  exact if_pos hdead

theorem exec_fbCommit_sound (hdead : s.fbk.dead = false) : exec (.fbCommit false) s =
    .next (fbCommit q { s with fbk := { s.fbk with queue := rest } }) := by
  rw [exec_fbCommit hq hon]
  exact if_neg (Bool.eq_false_iff.1 hdead)

theorem exec_fbCommit_write (hdead : s.fbk.dead = false) (hnew : fbAccumulates q.code = false ∨ s.fbk.latest q.code = none) :
    exec (.fbCommit false) s = .next (fbWrite q.code (if fbAccumulates q.code then 1 else q.count) q.payload
      { s with fbk := { s.fbk with queue := rest } }) :=
  (exec_fbCommit_sound hq hon hdead).trans (congrArg _ (fbCommit_write hnew))

theorem exec_fbCommit_update (hdead : s.fbk.dead = false) (ha : fbAccumulates q.code = true) {r : FbRecord}
    (hr : s.fbk.latest q.code = some r) :
    exec (.fbCommit false) s = .next (fbUpdate r q.payload { s with fbk := { s.fbk with queue := rest } }) :=
  (exec_fbCommit_sound hq hon hdead).trans (congrArg _ (fbCommit_update ha hr))

theorem exec_fbCommit_mirrored (hdead : s.fbk.dead = false) (ha : fbAccumulates q.code = true) {r : FbRecord}
    (hr : s.fbk.latest q.code = some r) (hseq : r.seq < s.fbk.mirSeq) (hm : s.fbk.miren = true)
    (hroom : s.fbk.updates.length < 16) : exec (.fbCommit false) s =
      .next { s with fbk := { Fbk.put { s.fbk with queue := rest } { r with
        count := satInc 0xFFFF r.count, tide := now s, wall := s.fbk.wall, epoch := s.fbk.epoch, payload := q.payload } with
        updates := s.fbk.updates ++ [{ seq := r.seq }] } } :=
  (exec_fbCommit_update hq hon hdead ha hr).trans
    (congrArg _ (fbUpdate_mirrored (s := { s with fbk := { s.fbk with queue := rest } }) hseq hm hroom q.payload))

/-- An uncorrectable error of the backup SRAM ends recording, and the request is dropped. -/
theorem exec_fbCommit_fails (hdead : s.fbk.dead = false) (hb : s.fbk.onBackup = true) : exec (.fbCommit true) s =
    (let u := irqSet 4 2 { s with fbk := { s.fbk with queue := rest, dead := true } }
     .next { u with fbk := { u.fbk with dropped := satInc 0xFFFF u.fbk.dropped } }) := by
  have hfails (n : Nat) : fbFails n { s with fbk := { s.fbk with queue := rest } } =
      irqSet 4 2 { s with fbk := { s.fbk with queue := rest, dead := true } } := (if_pos hb).trans (if_pos hb)
  have hkept : (irqSet 4 2 { s with fbk := { s.fbk with queue := rest, dead := true } }).fbk.dead = true :=
    (bookKept_irqSet ..).dead
  have hue : true = true ∧ (!s.fbk.dead) = true := ⟨rfl, by rw [hdead]; rfl⟩
  rw [exec_fbCommit hq hon]
  dsimp only
  rw [if_pos hue, hfails]
  exact if_pos hkept

end Commit

/-! ### Flood control (R360) -/

theorem exec_fbRefill {s : State} {code : Nat} (hon : s.glb.state ≠ .off) (hheld : (bucketOf s.fbk code).held < s.fbk.burst)
    (hdue : (bucketOf s.fbk code).since + (bucketOf s.fbk code).len ≤ now s) (hdead : s.fbk.dead = false)
    (hroom : s.fbk.queue.length < 64) :
    let f := s.fbk
    let b := bucketOf f code
    let len := 1024 * max f.refill 1
    exec (.fbRefill code) s = .next { s with fbk := if b.held + 1 = f.burst ∧ 0 < b.suppressed then
        { f with queue := f.queue ++ [{ code := code, count := b.suppressed - 1, payload := b.last }]
                 buckets := Tab.set f.buckets code
                   { b with held := f.burst - 1, since := now s, len := len, suppressed := 0 } }
      else { f with buckets := Tab.set f.buckets code { b with held := b.held + 1, since := b.since + b.len, len := len } } } := by
  intro f b len
  refine (if_pos ⟨hon, hheld, hdue⟩).trans ?_
  by_cases hfull : b.held + 1 = f.burst ∧ 0 < b.suppressed
  · refine (if_pos hfull).trans ?_
    rw [if_pos hfull]
    unfold fbFlush fbEnqueue
    dsimp only
    rw [if_neg (Bool.eq_false_iff.1 hdead), if_pos hroom]
    rfl
  · refine (if_neg hfull).trans ?_
    rw [if_neg hfull]
    rfl

/-! ### Scrub and repair (R362) -/

theorem exec_fbScrub {s : State} (hon : s.glb.state ≠ .off) (hdue : s.fbk.scrubbed + 2 ^ 30 ≤ now s) (main backup : Option Nat) :
    exec (.fbScrub main backup) s = .next (
      let s1 : State := { s with fbk := { s.fbk with scrubbed := now s } }
      let s2 := match backup with
        | some n => if s1.fbk.dead then s1 else fbBackupFails n s1
        | none => s1
      match main with
      | some n => if s2.fbk.onBackup || s2.fbk.dead then s2 else fbMainFails n s2
      | none => s2) :=
  if_pos ⟨hon, hdue⟩

/-- The main SRAM fails over to the backup, whose first record says so. -/
theorem fbMainFails_over {s : State} (hb : s.fbk.onBackup = false) (hk : s.fbk.bkFail = false) (n : Nat) : fbMainFails n s =
    irqSet 4 1 (fbWrite 0x0D01 1 (BitVec.ofNat 64 (n % 8192)) { s with fbk := { s.fbk with onBackup := true, backup := [] } }) :=
  (if_neg (by rw [hb]; decide)).trans (if_neg (by rw [hk]; decide))

theorem fbBackupFails_spare {s : State} (hb : s.fbk.onBackup = false) (hk : s.fbk.bkFail = false) (n : Nat) : fbBackupFails n s =
    irqSet 4 8 (fbRaise 0x0D02 (BitVec.ofNat 64 (n % 64)) { s with fbk := { s.fbk with bkFail := true } }) :=
  (if_neg (by rw [hb]; decide)).trans (if_neg (by rw [hk]; decide))

theorem exec_fbRepairComplete {s : State} {mac row : Nat} (hmac : mac < 8) (hrow : row < 512) (hrep : s.fbk.repairing = true) :
    let used := Tab.get 0 s.fbk.rowsUsed mac
    (2 ≤ used → exec (.fbRepairComplete mac row) s =
      .next (fbRaise 0x0D04 (BitVec.ofNat 64 (0x0D00 + mac)) { s with fbk := { s.fbk with repairing := false } })) ∧
    (used < 2 → exec (.fbRepairComplete mac row) s = .next (
      let s1 := fbRaise 0x0508 (BitVec.ofNat 64 (0x0D00 + mac + row * 2 ^ 16))
        { s with fbk := { s.fbk with rowsUsed := Tab.set s.fbk.rowsUsed mac (used + 1) } }
      fbRaise 0x0D03 0 { s1 with fbk := { s1.fbk with
        main := s1.fbk.restored, backup := [], onBackup := false, repairing := false } })) := by
  have hunit : ¬(8 ≤ mac ∨ 512 ≤ row) := by omega
  have hbusy : ¬(!s.fbk.repairing) = true := by rw [hrep]; decide
  exact ⟨fun h => (if_neg hunit).trans ((if_neg hbusy).trans (if_pos h)),
    fun h => (if_neg hunit).trans ((if_neg hbusy).trans (if_neg (Nat.not_le.2 h)))⟩

/-- A repair between two occurrences: the backup's records are the main SRAM's, and the spare row is used. -/
theorem BookKept.repaired {f f1 t : Fbk} {rows : Tab Nat} (hnoted : BookKept { f with rowsUsed := rows } f1)
    (hended : BookKept { f1 with main := f1.restored, backup := [], onBackup := false, repairing := false } t) :
    t.onBackup = false ∧ t.backup = [] ∧ t.repairing = false ∧ t.main = f.restored ∧ t.next = f.next ∧ t.rowsUsed = rows :=
  ⟨hended.onBackup, hended.backup, hended.repairing, hended.main.trans hnoted.restored, hended.next.trans hnoted.next,
    hended.rowsUsed.trans hnoted.rowsUsed⟩

/-! ### Mirroring (R363) -/

theorem mirrorReady_v {s : State} (h : mirrorReady s = true) : (queueOf s s.fbk.mirq).v = true := by
  unfold mirrorReady at h
  simp only [Bool.and_eq_true] at h
  obtain ⟨⟨⟨⟨⟨⟨_, hv⟩, _⟩, _⟩, _⟩, _⟩, _⟩ := h
  exact hv

section Mirror
variable {s : State} (hm : s.fbk.miren = true) (hon : s.glb.state ≠ .off)
include hm hon

theorem exec_fbMirrorCopy : exec .fbMirrorCopy s =
    (let s1 := mirrorOvertaken s
     let f := s1.fbk
     if mirrorReady s1 then
      match f.updates with
      | u :: us => .next (postRecord f.mirq (f.record u.seq).words (setFbk { f with updates := us } s1))
      | [] =>
        if f.mirSeq < f.next then
          .next (postRecord f.mirq (f.record f.mirSeq).words (setFbk { f with mirSeq := f.mirSeq + 1 } s1))
        else .next s1
     else .next s1) :=
  if_pos (by simp [hm, hon])

theorem exec_fbMirrorCopy_update (hin : s.fbk.oldest ≤ s.fbk.mirSeq) (hready : mirrorReady s = true) {u : MirrorUpdate}
    {us : List MirrorUpdate} (hus : s.fbk.updates = u :: us) : exec .fbMirrorCopy s =
      .next (postRecord s.fbk.mirq (s.fbk.record u.seq).words { s with fbk := { s.fbk with updates := us } }) := by
  have hs : mirrorOvertaken s = s := if_neg (Nat.not_lt.2 hin)
  rw [exec_fbMirrorCopy hm hon]
  dsimp only
  rw [hs, if_pos hready, hus]
  rfl

theorem exec_fbMirrorCopy_next (hin : s.fbk.oldest ≤ s.fbk.mirSeq) (hready : mirrorReady s = true) (hus : s.fbk.updates = [])
    (hseq : s.fbk.mirSeq < s.fbk.next) : exec .fbMirrorCopy s =
      .next (postRecord s.fbk.mirq (s.fbk.record s.fbk.mirSeq).words
        { s with fbk := { s.fbk with mirSeq := s.fbk.mirSeq + 1 } }) := by
  have hs : mirrorOvertaken s = s := if_neg (Nat.not_lt.2 hin)
  rw [exec_fbMirrorCopy hm hon]
  dsimp only
  rw [hs, if_pos hready, hus]
  exact if_pos hseq

/-- What an overtaken mirror loses is counted; its queue stands as before. -/
theorem exec_fbMirrorCopy_overtaken (hout : s.fbk.mirSeq < s.fbk.oldest) (hv : (queueOf s s.fbk.mirq).v = false) :
    exec .fbMirrorCopy s = .next (
      let n := s.fbk.oldest - s.fbk.mirSeq
      fbRaise 0x0D05 (BitVec.ofNat 64 (n % 2 ^ 32)) (irqSet 4 4
        { s with fbk := { s.fbk with mirSeq := s.fbk.oldest, mirLost := min 0xFFFF (s.fbk.mirLost + n) } })) := by
  have hmirq : (mirrorOvertaken s).fbk.mirq = s.fbk.mirq := by
    rw [mirrorOvertaken, if_pos hout]
    exact (bookKept_fbOccur ..).mirq.trans (bookKept_irqSet ..).mirq
  have hqueues : (mirrorOvertaken s).qmg = s.qmg := by
    rw [mirrorOvertaken, if_pos hout]
    exact irqSet_qmg ..
  have hready : ¬mirrorReady (mirrorOvertaken s) = true := fun h => by
    have hset := mirrorReady_v h
    rw [queueOf, hmirq, hqueues] at hset
    exact absurd (hv.symm.trans hset) (by decide)
  rw [exec_fbMirrorCopy hm hon]
  dsimp only
  rw [if_neg hready, mirrorOvertaken, if_pos hout]
  rfl

end Mirror

/-- Settles O49: each row by its own equation, with the record it puts read back from its slot. -/
theorem fieldBookKeepsItsRecords : Obligations.FieldBookKeepsItsRecords := by
  intro s f put window stamp
  refine ⟨fun q rest hq hon => ⟨fun hdead ue => exec_fbCommit_dead hq hon hdead ue, fun hdead hnew => ?_,
      fun r hdead ha hr hseq hm hroom => ?_, fun hdead hb => exec_fbCommit_fails hq hon hdead hb⟩, ?_,
    fun ag => reads_of (off := 0x4050) rfl rfl rfl, fun ag hi hon => ?_, fun hon hdue => ?_,
    fun ag => writes_of (off := 0x4008) rfl ?_, fun mac row hmac hrow hrep => ?_, fun ag => writes_of (off := 0x4008) rfl rfl,
    fun hm hon => ⟨fun hin hready => ⟨fun u us hus => exec_fbMirrorCopy_update hm hon hin hready hus,
      fun hus hseq => exec_fbMirrorCopy_next hm hon hin hready hus hseq⟩,
      fun hout hv => exec_fbMirrorCopy_overtaken hm hon hout hv⟩⟩
  · exact ⟨_, exec_fbCommit_write hq hon hdead hnew, (fbWrite_record ..).trans (if_pos rfl), rfl,
      (congrArg Fbk.queue (Fbk.put_eq _ _)).trans rfl, fun m hm => (fbWrite_record ..).trans (if_neg hm), rfl⟩
  · exact ⟨_, exec_fbCommit_mirrored hq hon hdead ha hr hseq hm hroom, Fbk.record_put_same _ _, rfl,
      (congrArg Fbk.next (Fbk.put_eq _ _)).trans rfl, rfl⟩
  · intro code b len hon hheld hdue hdead hroom
    exact exec_fbRefill hon hheld hdue hdead hroom
  · exact writes_of (off := 0x4074) (if_neg hon) rfl
  · let u := put { f with scrubbed := now s }
    refine ⟨exec_fbScrub hon hdue none none, fun n hdead hb hk => ?_, fun n hdead hb hk => ?_⟩
    · have hlive : ¬(f.onBackup || f.dead) = true := by rw [hb, hdead]; decide
      have hkept := bookKept_irqSet 4 1 (fbWrite 0x0D01 1 (BitVec.ofNat 64 (n % 8192))
        (put { f with scrubbed := now s, onBackup := true, backup := [] }))
      exact ⟨_, (exec_fbScrub hon hdue (some n) none).trans (congrArg _ ((if_neg hlive).trans (fbMainFails_over (s := u) hb hk n))),
        hkept.onBackup.trans ((congrArg Fbk.onBackup (Fbk.put_eq _ _)).trans rfl), hkept.next,
        (hkept.record _).trans ((fbWrite_record ..).trans (if_pos rfl))⟩
    · exact (exec_fbScrub hon hdue none (some n)).trans
        (congrArg _ ((if_neg (Bool.eq_false_iff.1 hdead)).trans (fbBackupFails_spare (s := u) hb hk n)))
  · exact if_congr (and_congr Iff.rfl (Bool.not_eq_true' _).to_iff) rfl rfl
  · obtain ⟨hused, hfree⟩ := exec_fbRepairComplete hmac hrow hrep
    refine ⟨hused, fun h => ⟨_, hfree h, ?_⟩⟩
    obtain ⟨hon, hbackup, hidle, hmain, hnext, hrows⟩ := BookKept.repaired (bookKept_fbOccur
      { f with rowsUsed := Tab.set f.rowsUsed mac (Tab.get 0 f.rowsUsed mac + 1) } (now s) 0x0508
      (BitVec.ofNat 64 (0x0D00 + mac + row * 2 ^ 16))) (bookKept_fbOccur _ (now s) 0x0D03 0)
    exact ⟨hon, hbackup, hidle, hmain, hnext, (congrArg (Tab.get 0 · mac) hrows).trans (Tab.get_set_same ..), rfl⟩

end Sys2Proof.Machine
end

section
/-! SUPPORT. A bundle of one syllable that leaves results, flags and stores in the reed's own memories: what it leaves in its
context, with the results of latency 1 apart from those that await their beat (R41, R56, R57). -/

namespace Sys2Proof.Machine

/-- What a syllable does that raises no exception, transfers no control, issues no long operation and accesses no far region:
its results, those of latency 1 apart from those that await their beat, its flags and its accesses to the reed's memories. -/
structure Plain where
  /-- the results that await their beat -/
  late : List Res := []
  /-- the results that stand in their registers when the next bundle begins -/
  soon : List Res := []
  /-- the flags raised -/
  raised : Raised := {}
  /-- their latency -/
  rlat : Nat := 1
  /-- the Q register it reads -/
  readsQ : Option Nat := none
  /-- own-bank words it reads -/
  reads : List Nat := []
  /-- own-bank words it writes -/
  writes : List Nat := []
  /-- its multi-word groups -/
  groups : List (Nat × Nat) := []
  /-- a circular update takes the extra beat -/
  slow : Bool := false
  /-- it accesses the own IM -/
  im : Bool := false
  /-- the words it stores in the reed's own memories -/
  store : List StoreWord := []

/-- The effect so described. -/
def Plain.eff (p : Plain) : Eff :=
  { results := p.late ++ p.soon, raised := p.raised, rlat := p.rlat, readsQ := p.readsQ, reads := p.reads, writes := p.writes
    groups := p.groups, slow := p.slow, im := p.im, store := p.store }

/-- Its results have the latencies that it says, none is CTXCFG, its flags are due after it, and the Q register it reads is
valid. -/
structure Plain.Fits (p : Plain) (q : Run) : Prop where
  /-- the results that await their beat -/
  late : ∀ x ∈ p.late, 2 ≤ x.lat ∧ x.dest ≠ .cfg
  /-- the results for the next bundle -/
  soon : ∀ x ∈ p.soon, x.lat = 1 ∧ x.dest ≠ .cfg
  /-- the flags -/
  rlat : 1 ≤ p.rlat
  /-- the Q register -/
  valid : ∀ n, p.readsQ = some n → bitOf q.qValid n = true

/-- What such a syllable leaves in its context. -/
structure Plain.Done (p : Plain) (r c : Nat) (s t : State) : Prop where
  /-- what a bundle without control transfer leaves alone -/
  keeps : KeepsFlow (ctxAt s r c) (ctxAt t r c)
  /-- the registers: results and flags of latency 1 -/
  regs : (ctxAt t r c).regs = ((written p.soon (ctxAt s r c)).setFlags (if p.rlat ≤ 1 then p.raised else {})).regs
  /-- the other results -/
  awaits : ∀ x ∈ p.late, Awaits r c s t x.dest x.value x.lat
  /-- the other flags -/
  flags : p.raised ≠ {} → 2 ≤ p.rlat → AwaitsFlags r c s t p.raised p.rlat

section
variable {p : Plain} {r c : Nat} {w : W32} {s : State} (he : loneEff r c w s = p.eff) (hp : p.Fits (ctxAt s r c).run)
include he hp

theorem Plain.quiet : Quiet r c w s := by
  constructor
  case q => rw [he]; exact hp.valid
  case rlat => rw [he]; exact hp.rlat
  case lat =>
    rw [he]
    intro x hx
    rcases List.mem_append.1 hx with hx | hx
    · exact Nat.le_of_succ_le (hp.late x hx).1
    · exact (hp.soon x hx).1.ge
  all_goals simp [he, Plain.eff]

theorem Plain.done {t : State} (hctx : LoneCtx r c w s (ctxAt t r c)) : p.Done r c s t := by
  have hsoon : (p.late ++ p.soon).filter (fun x => decide (x.lat ≤ 1)) = p.soon := by
    have hlate : p.late.filter (fun x => decide (x.lat ≤ 1)) = [] := by
      rw [List.filter_eq_nil_iff]
      intro x hx
      simpa using Nat.lt_of_succ_le (hp.late x hx).1
    have hall : p.soon.filter (fun x => decide (x.lat ≤ 1)) = p.soon := by
      rw [List.filter_eq_self]
      intro x hx
      simpa using (hp.soon x hx).1.le
    rw [List.filter_append, hlate, hall, List.nil_append]
  refine ⟨hctx.keeps ?_, ?_, fun x hx => ?_, fun hf hn => ?_⟩
  · rw [he]
    intro x hx
    rcases List.mem_append.1 hx with hx | hx
    · exact (hp.late x hx).2
    · exact (hp.soon x hx).2
  · rw [hctx.regs, he]
    exact congrArg (fun rs => ((written rs _).setFlags _).regs) hsoon
  · exact hctx.awaits (by rw [he]; exact List.mem_append_left _ hx) (hp.late x hx).1
  · have hawaits := hctx.awaitsFlags
    rw [he] at hawaits
    exact hawaits hf hn

/-- Such a syllable that stores nothing changes nothing but its context. -/
theorem Plain.run {i : Instr} {o : SylOp} (hi : Spells i o r w) (h : Lone r c w s) (hs : p.store = []) :
    ∃ t, exec i s = .next t ∧ OnlyCtx r c s t ∧ p.Done r c s t := by
  obtain ⟨t, hexec, honly, hctx⟩ := exec_pure hi.1 hi.2 h (Plain.quiet he hp) (by rw [he]; exact hs)
  exact ⟨t, hexec, honly, Plain.done he hp hctx⟩

/-- Such a syllable that stores in the reed's own memories. -/
theorem Plain.run_store {i : Instr} {o : SylOp} {byte len val : Nat} (hi : Spells i o r w) (h : Lone r c w s)
    (hm : Memory.wf s.mem = true) (hs : p.store = storeWords byte len val) (hl : 0 < len) (hb : byte + len ≤ 0x80000) :
    ∃ t, exec i s = .next t ∧ StoredOwn r byte len val s t ∧ OtherCtxKept r c s t ∧ FarBlocksKept s t ∧
      p.Done r c s t := by
  obtain ⟨t, hexec, hstored, hother, hfar, hctx⟩ := exec_storeOwn hi h (Plain.quiet he hp) hm (by rw [he]; exact hs) hl hb
  exact ⟨t, hexec, hstored, hother, hfar, Plain.done he hp hctx⟩

end

/-- Flags that are not due at the next bundle leave FSW alone. -/
theorem Plain.Done.regs_no_flags {p : Plain} {r c : Nat} {s t : State} (h : p.Done r c s t) (hf : p.raised = {} ∨ 2 ≤ p.rlat) :
    (ctxAt t r c).regs = (written p.soon (ctxAt s r c)).regs := by
  have hnone : (if p.rlat ≤ 1 then p.raised else {}) = {} := by
    split
    next hn => exact hf.resolve_right (by omega)
    next => rfl
  rw [h.regs, hnone, setFlags_none]

/-- Nothing awaits its beat after a bundle whose results and flags all have latency 1. -/
theorem LoneCtx.shadow_nil {r c : Nat} {w : W32} {s : State} {k : Ctx} (h : LoneCtx r c w s k)
    (hr : ∀ x ∈ (loneEff r c w s).results, x.lat = 1) (hf : (loneEff r c w s).rlat = 1) : k.run.shadow = [] := by
  have hdue : (entriesOf (ctxAt s r c).run.level ((ctxAt s r c).run.countAt (ctxAt s r c).run.level) [w] [loneEff r c w s]).filter
      (fun e => !decide (e.due ≤ (ctxAt s r c).run.countAt (ctxAt s r c).run.level + 1)) = [] := by
    rw [entriesOf_lone, List.filter_eq_nil_iff]
    intro e he
    rcases List.mem_append.1 he with he | he
    · obtain ⟨x, hx, rfl⟩ := List.mem_map.1 he
      simp [hr x hx]
    · split at he
      · simp at he
      · rw [List.mem_singleton.1 he]
        simp [hf]
  rw [h.shadow, hdue]
  rfl

end Sys2Proof.Machine
end

section
/-! SUPPORT. Syllables that work on registers alone: S-ALU, S-MOV, M-ACC, V-FP and V-VEC (R73 to R75, R79 to R82). -/

namespace Sys2Proof.Machine

theorem Gr.dest_ne_cfg (x : Gr) : x.dest ≠ .cfg := by cases x <;> simp [Gr.dest]

/-- What an S-ALU syllable does of result `v` and overflow `ov` (R79, R98). -/
def aluPlain (d : Gr) (v : W32 × Bool) : Plain where
  soon := [{ dest := d.dest, value := v.1.toNat, lat := 1 }]
  raised := Raised.bit fswOV v.2

/-- Settles O1: the one result and the flag have latency 1, so that they stand in their registers and nothing awaits its
beat. -/
theorem aluWritesItsResult : Obligations.AluWritesItsResult := by
  intro i o r c w s hi h k im imm b a
  have he : loneEff r c w s = (aluPlain (grAt (fld w 12 6)) (aluResult o a b)).eff := by
    rw [loneEff_op h (decodeOp_of_wellFormed hi.1 hi.2).1]
    simp only [evalOp, evalAlu, loneView_g]
    rfl
  have hp : (aluPlain (grAt (fld w 12 6)) (aluResult o a b)).Fits k.run := by
    constructor <;> simp [aluPlain, Gr.dest_ne_cfg]
  obtain ⟨t, hexec, honly, hctx⟩ := exec_pure hi.1 hi.2 h (Plain.quiet he hp) (by rw [he]; rfl)
  have hdone := Plain.done he hp hctx
  exact ⟨t, hexec, honly, hdone.keeps, hctx.shadow_nil (by rw [he]; simp [aluPlain, Plain.eff]) (by rw [he]; rfl), hdone.regs⟩

/-- A guard overflow raises flags (R91). -/
theorem raised_ne_none {a : AccResult} {n : Nat} (h : a.overflow.isSome) : a.raised n ≠ {} := by
  obtain ⟨d, hd⟩ := Option.isSome_iff_exists.1 h
  simp [AccResult.raised, hd]

/-- A guard overflow that raises no AGV exception (R92). -/
theorem no_agv {a : AccResult} {fsw : W32} (h : a.overflow = none ∨ bitOf fsw fswAGE = false) :
    (a.overflow.isSome && bitOf fsw fswAGE) = false := by
  rcases h with h | h <;> simp [h]

/-- What a product of an M-ACC syllable does (R73). -/
def mulPlain (n : Nat) (v : W64) : Plain where
  late := [{ dest := .m n, value := v.toNat, lat := 3 }]

/-- What an accumulator operation of an M-ACC syllable does (R73, R90, R96). -/
def accPlain (n : Nat) (v : AccResult) : Plain where
  late := [{ dest := .a n, value := v.value.toNat, lat := 2 }]
  raised := v.raised n
  rlat := 2

theorem evalAcc_mul {v : View} {o : AccOp} {w : W32} (ho : o = .mul ∨ o = .mulu) :
    evalAcc v o w = (mulPlain (fld w 22 2) (mulResult o (v.g.sOf (fld w 15 3)) (v.g.sOf (fld w 12 3)))).eff := by
  rcases ho with rfl | rfl <;> rfl

theorem evalAcc_acc {v : View} {o : AccOp} {w : W32} {res : AccResult} (ho : ¬(o = .mul ∨ o = .mulu))
    (hres : res = accResult o (if o = .aadd ∨ o = .asub then accIn v.g v.q (fld w 22 2) else v.g.aOf (fld w 22 2))
      (v.g.mOf (fld w 22 2)) (v.g.sOf (fld w 15 3)) (v.g.sOf (fld w 12 3)) (fld w 11 7))
    (ha : res.overflow = none ∨ bitOf v.g.fsw fswAGE = false) : evalAcc v o w = (accPlain (fld w 22 2) res).eff := by
  have hagv := no_agv ha
  subst hres
  cases o
  case mul => exact absurd (.inl rfl) ho
  case mulu => exact absurd (.inr rfl) ho
  all_goals
    simp only [reduceCtorEq, or_self, or_true, true_or, if_true, if_false] at hagv ⊢
    simp only [evalAcc, hagv]
    rfl

/-- Settles O3: a product awaits Mn, every other result An with its guard flags. -/
theorem accResultAwaitsItsBeat : Obligations.AccResultAwaitsItsBeat := by
  intro i o r c w s hi h k n sa sb a res hagv
  have hop := loneEff_op h (decodeOp_of_wellFormed hi.1 hi.2).1
  by_cases ho : o = .mul ∨ o = .mulu
  · have he : loneEff r c w s = (mulPlain n (mulResult o sa sb)).eff := by
      rw [hop, evalOp, evalAcc_mul ho, loneView_g]
    obtain ⟨t, hexec, honly, hdone⟩ := Plain.run he (by constructor <;> simp [mulPlain]) hi h rfl
    refine ⟨t, hexec, honly, hdone.keeps, hdone.regs_no_flags (.inl rfl), ?_⟩
    rw [if_pos ho]
    exact hdone.awaits _ (List.mem_singleton_self _)
  · have he : loneEff r c w s = (accPlain n res).eff :=
      hop.trans (evalAcc_acc (res := res) ho (by rw [loneView_g, loneView_q]) (by rw [loneView_g]; exact hagv))
    obtain ⟨t, hexec, honly, hdone⟩ := Plain.run he (by constructor <;> simp [accPlain]) hi h rfl
    refine ⟨t, hexec, honly, hdone.keeps, hdone.regs_no_flags (.inr (Nat.le_refl _)), ?_⟩
    rw [if_neg ho]
    exact ⟨hdone.awaits _ (List.mem_singleton_self _), fun hov => hdone.flags (raised_ne_none hov) (Nat.le_refl _)⟩

/-- The latency of a floating-point result (R56, R74). -/
theorem two_le_fpLatency (o : FpOp) (pr : Bool) : 2 ≤ fpLatency o pr := by
  cases o <;> cases pr <;> decide

theorem fpDest_ne_cfg (o : FpOp) (fd : Nat) : fpDest o fd ≠ .cfg := by cases o <;> simp [fpDest]

/-- What a V-FP syllable does that does not trap (R74, R126). -/
def fpPlain (o : FpOp) (fd : Nat) (pr : Bool) (res : FRes) (rq : Option Nat) : Plain where
  late := [{ dest := fpDest o fd, value := res.bits, lat := fpLatency o pr }]
  raised := fpRaised res.fl
  rlat := fpLatency o pr
  readsQ := rq

/-- Settles O5: a result and flags that do not trap await their beat. -/
theorem fpResultAwaitsItsBeat : Obligations.FpResultAwaitsItsBeat := by
  intro i o r c w s hi h k g fa a res lat htrap hvalid
  have hlat := two_le_fpLatency o (bitOf w 17)
  have he : loneEff r c w s = (fpPlain o (fld w 12 5) (bitOf w 17) res (if o = .fmovq then some (fa % 8) else none)).eff := by
    have hnot : ¬fpTraps g res.fl = true := Bool.eq_false_iff.1 htrap
    rw [loneEff_op h (decodeOp_of_wellFormed hi.1 hi.2).1]
    simp only [evalOp, evalFp, loneView_g, loneView_q]
    exact if_neg hnot
  have hp : (fpPlain o (fld w 12 5) (bitOf w 17) res (if o = .fmovq then some (fa % 8) else none)).Fits k.run := by
    constructor
    case late => simp [fpPlain, fpDest_ne_cfg, hlat]
    case soon => simp [fpPlain]
    case rlat => exact Nat.le_of_succ_le hlat
    case valid =>
      intro n hn
      simp only [fpPlain] at hn
      split at hn
      next ho => cases hn; exact hvalid ho
      next => cases hn
  obtain ⟨t, hexec, honly, hdone⟩ := Plain.run he hp hi h rfl
  exact ⟨t, hexec, honly, hdone.keeps, hdone.regs_no_flags (.inr hlat), hdone.awaits _ (List.mem_singleton_self _),
    fun hf => hdone.flags hf hlat⟩

/-- What a V-VEC syllable does that does not trap (R75, R141). -/
def vecPlain (vd val fl : Nat) : Plain where
  late := vRes vd val 3
  raised := fpRaised fl
  rlat := 3

/-- Settles O6: both halves and the flags of all lanes await their beat. -/
theorem vecResultAwaitsItsBeat : Obligations.VecResultAwaitsItsBeat := by
  intro i o r c w s hi h k g vd res htrap
  have he : loneEff r c w s = (vecPlain vd res.1 res.2.1).eff := by
    have hnot : ¬fpTraps g res.2.1 = true := Bool.eq_false_iff.1 htrap
    rw [loneEff_op h (decodeOp_of_wellFormed hi.1 hi.2).1]
    simp only [evalOp, evalVec, loneView_g]
    exact if_neg hnot
  obtain ⟨t, hexec, honly, hdone⟩ := Plain.run he (by constructor <;> simp [vecPlain, vRes]) hi h rfl
  have hlat : 2 ≤ 3 := by decide
  exact ⟨t, hexec, honly, hdone.keeps, hdone.regs_no_flags (.inr hlat), hdone.awaits _ (List.mem_cons_self ..),
    hdone.awaits _ (List.mem_cons_of_mem _ (List.mem_singleton_self _)), fun hf => hdone.flags hf hlat⟩

/-- Every result of a WRSR stands in its register when the next bundle begins (R81). -/
theorem writeSr_lat {n : Nat} {x : W32} {y : Res} (h : y ∈ writeSr n x) : y.lat = 1 := by
  unfold writeSr at h
  split at h
  case h_9 =>
    obtain ⟨i, -, rfl⟩ := List.mem_map.1 h
    rfl
  all_goals rw [List.mem_singleton.1 h]

section
variable (v : View) (o : MovOp) (w : W32)

/-- An S-MOV syllable's results are there for the next bundle, but for the descriptor that WPD writes. -/
theorem evalMov_lat {x : Res} (h : x ∈ (evalMov v o w).results) : 1 ≤ x.lat ∧ (o ≠ .wpd → x.lat = 1) := by
  cases o
  case wrsr => exact ⟨(writeSr_lat h).ge, fun _ => writeSr_lat h⟩
  case wpd =>
    simp only [evalMov] at h
    split at h
    · rw [List.mem_singleton.1 h]
      simp
    · simp at h
  all_goals
    rw [List.mem_singleton.1 h]
    exact ⟨Nat.le_refl _, fun _ => rfl⟩

/-- What an S-MOV syllable writes for the next bundle: all its results, but none of WPD (R80 to R82). -/
theorem evalMov_soon : (evalMov v o w).results.filter (fun x => decide (x.lat ≤ 1)) =
    if o = .wpd then [] else (evalMov v o w).results := by
  split
  next ho =>
    subst ho
    simp only [evalMov]
    split <;> rfl
  next ho =>
    rw [List.filter_eq_self]
    intro x hx
    simp [(evalMov_lat v o w hx).2 ho]

/-- An S-MOV syllable waits for nothing but the Q register that MOVQ reads, and touches no memory. -/
theorem evalMov_eq : evalMov v o w =
    { results := (evalMov v o w).results, raised := (evalMov v o w).raised, staging := (evalMov v o w).staging
      readsQ := if o = .movq then some (fld w 13 3) else none } := by
  cases o <;> rfl

end

/-- Settles O2: each row's results, read off `evalMov`, are what a quiet bundle writes. -/
theorem movWritesItsResult : Obligations.MovWritesItsResult := by
  intro i o r c w s hi h k d toS out sr stage after hvalid
  have he : loneEff r c w s = evalMov (loneView r c w s) o w :=
    loneEff_op h (decodeOp_of_wellFormed hi.1 hi.2).1
  have hq : Quiet r c w s := by
    constructor
    case q =>
      intro n hn
      rw [he, evalMov_eq] at hn
      dsimp only at hn
      split at hn
      next ho => cases hn; exact hvalid ho
      next => cases hn
    case lat => exact fun x hx => (evalMov_lat _ o w (he ▸ hx)).1
    all_goals rw [he, evalMov_eq]
    case gate => exact fun a ha => absurd ha (by simp)
  have hsoon : (loneEff r c w s).results.filter (fun x => decide (x.lat ≤ 1)) =
      if o = .wpd then [] else (evalMov (loneView r c w s) o w).results := by rw [he, evalMov_soon]
  have hafter : (written (if o = .wpd then [] else (evalMov (loneView r c w s) o w).results) k).setFlags
      (evalMov (loneView r c w s) o w).raised = after := by
    cases o <;> simp only [evalMov, loneView_g, loneView_q, reduceCtorEq, if_true, if_false, setFlags_none, written,
      List.foldl_cons, List.foldl_nil] <;> rfl
  obtain ⟨t, hexec, honly, hctx⟩ := exec_pure hi.1 hi.2 h hq (by rw [he, evalMov_eq])
  refine ⟨t, hexec, honly, ?_, ⟨?_, hctx.image, hctx.slots, hctx.rsp, hctx.depth, hctx.frames, hctx.q, hctx.qValid, hctx.held⟩,
    ?_, fun ho => ?_, fun ho hqw => ?_⟩
  · have hrlat : (loneEff r c w s).rlat = 1 := by rw [he, evalMov_eq]
    rw [hctx.regs, hsoon, hrlat, he, ← hafter]
    rfl
  · rw [hctx.page, hsoon, ← hafter]
    rfl
  · rw [hctx.staging, he]
    cases o <;> simp [evalMov, stage, k, d]
  · subst ho
    rw [hctx.loops, hsoon]
    simp [evalMov, sr, k, d]
  · subst ho
    refine hctx.awaits (x := { dest := .pd (fld w 13 4), value := (pdStored (bitOf k.page.cfgNext 1) stage).toNat, lat := 2 })
      ?_ (Nat.le_refl _)
    rw [he]
    simp [evalMov, hqw, stage, k, d]

end Sys2Proof.Machine
end

section
/-! SUPPORT. Syllables that access the reed's own memories: M-MAC, V-MEM, S-MEM and S-SVY (R71, R72, R76, R78). -/

namespace Sys2Proof.Machine

/-- The update of a pointer stands in its register when the next bundle begins (R59, R70). -/
theorem mem_pointerRes {g : Regs} {y : Bool} {idx mode set p w : Nat} {x : Res} (h : x ∈ pointerRes g y idx mode set p w) :
    x.lat = 1 ∧ x.dest ≠ .cfg := by
  unfold pointerRes at h
  split at h
  · simp at h
  · rw [List.mem_singleton.1 h]
    exact ⟨rfl, by cases y <;> simp⟩

/-! ### M-MAC (R72, R89, R90) -/

/-- The updates of the two pointers of an M-MAC syllable (R72). -/
def macPointers (g : Regs) (w : W32) (width : Nat) : List Res :=
  pointerRes g false (fld w 22 2) (fld w 16 2) (fld w 14 2) (g.index g.x (fld w 22 2)) width ++
    pointerRes g true (fld w 22 2) (fld w 12 2) (fld w 10 2) (g.index g.y (fld w 22 2)) width

/-- What an M-MAC syllable does that reads its operands of `bytes` bytes at `xb` and `yb` and gets `res`. -/
def macPlain (g : Regs) (w : W32) (bytes width xb yb : Nat) (res : AccResult) : Plain where
  late := [{ dest := .a (fld w 22 2), value := res.value.toNat, lat := 2 }]
  soon := macPointers g w width
  raised := res.raised (fld w 22 2)
  rlat := 2
  reads := bankWords xb bytes ++ bankWords yb bytes
  groups := bankGroup xb bytes ++ bankGroup yb bytes
  slow := (postModify g (fld w 16 2) (fld w 14 2) (g.index g.x (fld w 22 2)) width).2 ||
    (postModify g (fld w 12 2) (fld w 10 2) (g.index g.y (fld w 22 2)) width).2

theorem macPlain_fits (g : Regs) (w : W32) (bytes width xb yb : Nat) (res : AccResult) (q : Run) :
    (macPlain g w bytes width xb yb res).Fits q := by
  constructor
  case soon =>
    intro x hx
    rcases List.mem_append.1 hx with hx | hx <;> exact mem_pointerRes hx
  all_goals simp [macPlain]

/-- Settles O4: both operands read, the sum of products awaits An, the pointers do not wait. -/
theorem macAccumulatesAndUpdatesPointers : Obligations.MacAccumulatesAndUpdatesPointers := by
  intro i o r c w s xa ya hi h k g n bytes width xp yp res hx hy hbx hby hov
  have hagv := no_agv hov
  have he : loneEff r c w s = (macPlain g w bytes width (g.byteOf xa) (g.byteOf ya) res).eff := by
    rw [loneEff_op h (decodeOp_of_wellFormed hi.1 hi.2).1]
    simp only [g, k, bytes, width, xp, yp, n, res, Regs.accessWidth] at hx hy hbx hby hagv
    simp only [evalOp, evalMac, loneView_g, loneView_s, loneView_r, loneView_q, indexCheck_fetched, firstBad_fetched,
      bytesAt_fetched, hx, hy, hbx, hby, hagv]
    rfl
  obtain ⟨t, hexec, honly, hdone⟩ := Plain.run he (macPlain_fits ..) hi h rfl
  have hlat : 2 ≤ 2 := Nat.le_refl _
  exact ⟨t, hexec, honly, hdone.keeps, hdone.regs_no_flags (.inr hlat), hdone.awaits _ (List.mem_singleton_self _),
    fun hsome => hdone.flags (raised_ne_none hsome) hlat⟩

/-! ### V-MEM (R76, R146, R147) -/

/-- The pointer of a V-MEM syllable. -/
def vmemPtr (g : Regs) (w : W32) : Nat := if bitOf w 14 then g.index g.y (fld w 12 2) else g.index g.x (fld w 12 2)

/-- What a V-MEM load does that reads its `n` words at `byte` and has the results `late`. -/
def vloadPlain (g : Regs) (w : W32) (n byte : Nat) (late : List Res) : Plain where
  late := late
  soon := pointerRes g (bitOf w 14) (fld w 12 2) (fld w 10 2) (fld w 8 2) (vmemPtr g w) n
  reads := bankWords byte (2 * n)
  groups := bankGroup byte (2 * n)
  slow := (postModify g (fld w 10 2) (fld w 8 2) (vmemPtr g w) n).2

/-- What a V-MEM store does that stores its `n` words of value `val` at `byte`. -/
def vstorePlain (g : Regs) (w : W32) (n byte val : Nat) : Plain where
  soon := pointerRes g (bitOf w 14) (fld w 12 2) (fld w 10 2) (fld w 8 2) (vmemPtr g w) n
  writes := bankWords byte (2 * n)
  groups := bankGroup byte (2 * n)
  slow := (postModify g (fld w 10 2) (fld w 8 2) (vmemPtr g w) n).2
  store := storeWords byte (2 * n) val

/-- The results of a V-MEM load of value `val` (R76, R146). -/
def vloadRes (o : VmemOp) (w : W32) (val : Nat) : List Res :=
  match o with
  | .fldW | .fldQ => [{ dest := .f (fld w 15 5), value := val, lat := 2 }]
  | .vld => vRes (fld w 15 5 % 16) val 2
  | _ => vRes (fld w 15 5 % 16) (fromLanes 32 ((contourDecode (valueWords 17 val) (fld w 6 2)).map (·.toNat))) 2

theorem mem_vloadRes {o : VmemOp} {w : W32} {val : Nat} {x : Res} (h : x ∈ vloadRes o w val) : 2 ≤ x.lat ∧ x.dest ≠ .cfg := by
  revert x
  cases o <;> simp [vloadRes, vRes]

/-- Settles O7: the words read, the value awaits its beat. -/
theorem vectorLoadAwaitsItsBeat : Obligations.VectorLoadAwaitsItsBeat := by
  intro i o r c w s a hi h k g y p n byte val fr dec ho hcheck hbad hcld
  have he : loneEff r c w s = (vloadPlain g w n byte (vloadRes o w val)).eff := by
    rw [loneEff_op h (decodeOp_of_wellFormed hi.1 hi.2).1]
    simp only [y, p, n, g, k] at hcheck
    simp only [byte, val, n, g, k] at hbad hcld
    rcases ho with rfl | rfl | rfl | rfl
    all_goals
      simp only [evalOp]
      unfold evalVmemLocal
      simp only [loneView_g, loneView_s, loneView_r, indexCheck_fetched, firstBad_fetched, bytesAt_fetched, hcheck, hbad,
        Bool.false_eq_true, if_false]
    case inr.inr.inr => exact if_pos (hcld rfl)
    all_goals rfl
  have hp : (vloadPlain g w n byte (vloadRes o w val)).Fits k.run := by
    constructor
    case late => exact fun x hx => mem_vloadRes hx
    case soon => exact fun x hx => mem_pointerRes hx
    all_goals simp [vloadPlain]
  obtain ⟨t, hexec, honly, hdone⟩ := Plain.run he hp hi h rfl
  have hvec : ∀ {v : Nat}, vloadRes o w val = vRes (fr % 16) v 2 →
      Awaits r c s t (.f (2 * (fr % 16))) (v % 2 ^ 64) 2 ∧ Awaits r c s t (.f (2 * (fr % 16) + 1)) (v / 2 ^ 64) 2 := by
    intro v hv
    have hall : ∀ x ∈ vRes (fr % 16) v 2, Awaits r c s t x.dest x.value x.lat := hv ▸ hdone.awaits
    exact ⟨hall _ (List.mem_cons_self ..), hall _ (List.mem_cons_of_mem _ (List.mem_singleton_self _))⟩
  refine ⟨t, hexec, honly, hdone.keeps, hdone.regs_no_flags (.inl rfl), fun hf => ?_, fun hv => ?_, fun hc => ?_⟩
  · rcases hf with rfl | rfl <;> exact hdone.awaits _ (List.mem_singleton_self _)
  · exact hvec (by rw [hv]; rfl)
  · exact hvec (by rw [hc]; rfl)

/-- Settles O8: the value is stored at the pointer's address. -/
theorem vectorStoreWritesItsBytes : Obligations.VectorStoreWritesItsBytes := by
  intro i o r c w s a hi h hm k g y p n byte fr val ho hcheck hown
  have he : loneEff r c w s = (vstorePlain g w n byte val).eff := by
    rw [loneEff_op h (decodeOp_of_wellFormed hi.1 hi.2).1]
    simp only [y, p, n, g, k] at hcheck
    rcases ho with rfl | rfl | rfl | rfl
    all_goals
      simp only [evalOp]
      unfold evalVmemLocal
      simp only [loneView_g, loneView_s, loneView_r, indexCheck_fetched, hcheck, if_true]
      rfl
  have hp : (vstorePlain g w n byte val).Fits k.run := by
    constructor
    case soon => exact fun x hx => mem_pointerRes hx
    all_goals simp [vstorePlain]
  have hn : 0 < 2 * n := by rcases ho with rfl | rfl | rfl | rfl <;> decide
  obtain ⟨t, hexec, hstored, hother, hfar, hdone⟩ := Plain.run_store he hp hi h hm rfl hn hown
  exact ⟨t, hexec, hstored, hother, hfar, hdone.keeps, hdone.regs_no_flags (.inl rfl)⟩

/-! ### Scalar accesses (R71, R78, R94, R95) -/

/-- What an S-slot access of a BANK or IM parcel does at byte address `byte`, its results and stores apart. -/
def accessPlain (g : Regs) (w : W32) (bytes byte : Nat) : Plain where
  soon := accessUpdate g w bytes
  groups := bankGroup byte bytes
  slow := !bitOf w 13 && (postModify g (fld w 8 2) (fld w 6 2) (accessPtr g w) (g.accessWidth bytes)).2
  im := pdTgt (g.pdOf (accessParcel w)) == 1 && g.survey

/-- What an S-slot load does. -/
def loadPlain (g : Regs) (w : W32) (bytes byte : Nat) (late : List Res) : Plain :=
  { accessPlain g w bytes byte with late := late, reads := bankWords byte bytes }

/-- What an S-slot store of value `val` does that raises flags `f`. -/
def storePlain (g : Regs) (w : W32) (bytes byte val : Nat) (f : Raised) : Plain :=
  { accessPlain g w bytes byte with raised := f, writes := bankWords byte bytes, store := storeWords byte bytes val }

theorem mem_accessUpdate {g : Regs} {w : W32} {bytes : Nat} {x : Res} (h : x ∈ accessUpdate g w bytes) :
    x.lat = 1 ∧ x.dest ≠ .cfg := by
  unfold accessUpdate at h
  split at h
  · simp at h
  · exact mem_pointerRes h

theorem loadPlain_fits {g : Regs} {w : W32} {bytes byte : Nat} {late : List Res} {q : Run}
    (h : ∀ x ∈ late, 2 ≤ x.lat ∧ x.dest ≠ .cfg) : (loadPlain g w bytes byte late).Fits q := by
  constructor
  case late => exact h
  case soon => exact fun x hx => mem_accessUpdate hx
  all_goals simp [loadPlain, accessPlain]

theorem storePlain_fits (g : Regs) (w : W32) (bytes byte val : Nat) (f : Raised) (q : Run) :
    (storePlain g w bytes byte val f).Fits q := by
  constructor
  case soon => exact fun x hx => mem_accessUpdate hx
  all_goals simp [storePlain, accessPlain]

section
variable {v : View} {w : W32} {bytes a val : Nat} {dests : Nat → Nat → List Res}
  (hown : pdTgt (v.g.pdOf (accessParcel w)) ≤ 1)
include hown

theorem evalAccess_load (hc : accessCheck v.s v.r v.g w bytes .read = .ok a)
    (hb : firstBad v.s v.r (touched (v.g.byteOf a) bytes) = none) :
    evalAccess v w bytes false val {} dests =
      (loadPlain v.g w bytes (v.g.byteOf a) (dests (bytesAt v.s v.r (v.g.byteOf a) bytes) 2)).eff := by
  unfold evalAccess
  simp only [hc, hown, hb, if_true, if_false, Bool.false_eq_true]
  rfl

theorem evalAccess_store (hc : accessCheck v.s v.r v.g w bytes .write = .ok a) (f : Raised) :
    evalAccess v w bytes true val { raised := f } dests = (storePlain v.g w bytes (v.g.byteOf a) val f).eff := by
  unfold evalAccess
  simp only [hc, hown, if_true]
  rfl

end

/-- Settles O10: a load of either personality is one access, and its results await their beat. -/
theorem scalarLoadAwaitsItsBeat : Obligations.ScalarLoadAwaitsItsBeat := by
  intro i o r c w s a hi h k g gr bytes byte val ho hc hown hb
  have hrun {late : List Res} (he : loneEff r c w s = (loadPlain g w bytes byte late).eff)
      (hl : ∀ x ∈ late, 2 ≤ x.lat ∧ x.dest ≠ .cfg) : ∃ t, exec i s = .next t ∧ OnlyCtx r c s t ∧
        KeepsFlow k (ctxAt t r c) ∧ (ctxAt t r c).regs = (written (accessUpdate g w bytes) k).regs ∧
        ∀ x ∈ late, Awaits r c s t x.dest x.value x.lat := by
    obtain ⟨t, hexec, honly, hdone⟩ := Plain.run he (loadPlain_fits hl) hi h rfl
    exact ⟨t, hexec, honly, hdone.keeps, hdone.regs_no_flags (.inl rfl), hdone.awaits⟩
  have heval {val' : Nat} {dests : Nat → Nat → List Res} : evalAccess (loneView r c w s) w bytes false val' {} dests =
      (loadPlain g w bytes byte (dests val 2)).eff := by
    rw [evalAccess_load (a := a)] <;> simp only [loneView_g, loneView_s, loneView_r, accessCheck_fetched, firstBad_fetched,
      bytesAt_fetched]
    · rfl
    · exact hown
    · exact hc
    · exact hb
  have hop := loneEff_op h (decodeOp_of_wellFormed hi.1 hi.2).1
  rcases ho with ⟨m, rfl, hm⟩ | ⟨m, rfl, hm⟩
  · have he : loneEff r c w s = (loadPlain g w bytes byte (loadRes m gr val 2)).eff := by
      rw [hop]
      cases m
      case ldS | ldSu | ldD | ldQ => exact heval
      all_goals cases hm
    obtain ⟨t, hexec, honly, hkeeps, hregs, hawaits⟩ := hrun he (by cases m <;> simp [loadRes, Gr.dest_ne_cfg])
    refine ⟨t, hexec, honly, hkeeps, hregs, ?_, ?_, ?_, nofun, nofun, nofun⟩
    · rintro ⟨⟩
      exact hawaits _ (List.mem_singleton_self _)
    · rintro (⟨⟨⟩⟩ | ⟨⟨⟩⟩) <;> exact hawaits _ (List.mem_singleton_self _)
    · rintro ⟨⟩
      exact ⟨hawaits _ (List.mem_cons_self ..), hawaits _ (List.mem_cons_of_mem _ (List.mem_singleton_self _))⟩
  · have he : loneEff r c w s = (loadPlain g w bytes byte [{ dest := .s gr, value := svyLoad m val, lat := 2 }]).eff := by
      rw [hop, evalOp, evalSvy, hm]
      exact heval
    obtain ⟨t, hexec, honly, hkeeps, hregs, hawaits⟩ := hrun he (by simp)
    have hval := hawaits _ (List.mem_singleton_self _)
    refine ⟨t, hexec, honly, hkeeps, hregs, nofun, nofun, nofun, ?_, ?_, ?_⟩
    · rintro ⟨⟩
      exact hval
    · rintro ⟨⟩
      exact hval
    · rintro (⟨⟨⟩⟩ | ⟨⟨⟩⟩ | ⟨⟨⟩⟩) <;> exact hval

/-- Settles O11: a store of either personality is one access that writes its bytes in the reed's own memories. -/
theorem scalarStoreWritesItsBytes : Obligations.ScalarStoreWritesItsBytes := by
  intro i o r c w s a hi h hwf k g gr bytes byte bits out sta val ho hc hown hfit
  have heval {x : Nat} {f : Raised} {dests : Nat → Nat → List Res} :
      evalAccess (loneView r c w s) w bytes true x { raised := f } dests = (storePlain g w bytes byte x f).eff := by
    rw [evalAccess_store (a := a)] <;> simp only [loneView_g, loneView_s, loneView_r, accessCheck_fetched]
    · rfl
    · exact hown
    · exact hc
  have he : loneEff r c w s = (storePlain g w bytes byte val (if sta then Raised.bit fswSAT out.2 else {})).eff := by
    rw [loneEff_op h (decodeOp_of_wellFormed hi.1 hi.2).1]
    rcases ho with ⟨m, rfl, hm⟩ | ⟨m, rfl, hm⟩
    · cases m
      case ldS | ldSu | ldD | ldQ => cases hm
      all_goals
        simp only [evalOp, evalSmem, loneView_g]
        exact heval
    · simp only [evalOp, evalSvy, hm, loneView_g]
      exact heval
  have hpos : 0 < bytes := by
    rcases ho with ⟨m, rfl, hm⟩ | ⟨m, rfl, hm⟩ <;> cases m <;> decide
  obtain ⟨t, hexec, hstored, hother, hfar, hdone⟩ := Plain.run_store he (storePlain_fits ..) hi h hwf rfl hpos hfit
  exact ⟨t, hexec, hstored, hother, hfar, hdone.keeps, hdone.regs⟩

end Sys2Proof.Machine
end

section
/-! SUPPORT. Every command that exists is answered, and every other is turned away by name (R64, R170, R186, R200, R312). -/

namespace Sys2Proof.Machine

/-! ### Outcomes by the command's existence -/

/-- A command that exists is answered with a next state, and one that does not is turned away by name (R64, R170, R186, R200,
R312). -/
def Judged (exist : Bool) (o : Out3) : Prop :=
  if exist then Safe o else o = .refused .noSuchUnit ∨ o = .refused .illFormed ∨ o = .fault .noSuchAddress

section
variable {o q : Out3} {p : Prop} [Decidable p]

theorem safe_next (t : State) : Safe (.next t) := ⟨t, rfl⟩

theorem Safe.ite (ho : Safe o) (hq : Safe q) : Safe (if p then o else q) := by
  split
  · exact ho
  · exact hq

/-- A command that exists always. -/
theorem judged_always (h : Safe o) : Judged true o := h

/-- A check that turns a command away, before what remains to be checked. -/
theorem judged_check {first rest : Bool} (hp : first = false ↔ p)
    (hq : q = .refused .noSuchUnit ∨ q = .refused .illFormed ∨ q = .fault .noSuchAddress) (ho : Judged rest o) :
    Judged (first && rest) (if p then q else o) := by
  cases hf : first
  · rw [if_pos (hp.1 hf)]
    exact hq
  · rw [if_neg fun h => by rw [hp.2 h] at hf; cases hf]
    exact ho

variable {n m k l i j : Nat}

/-- One unit is named, and the device has fewer than `m`. -/
theorem judged_unit (ho : Safe o) : Judged (decide (n < m)) (if m ≤ n then .refused .noSuchUnit else o) := by
  rw [← Bool.and_true (decide (n < m))]
  exact judged_check (by simp) (.inl rfl) ho

/-- Two units are named. -/
theorem judged_units (ho : Safe o) :
    Judged (decide (n < m) && decide (k < l)) (if m ≤ n ∨ l ≤ k then .refused .noSuchUnit else o) := by
  rw [← Bool.and_true (decide (n < m) && decide (k < l))]
  exact judged_check (by simp [-not_lt]; omega) (.inl rfl) ho

/-- Three units are named. -/
theorem judged_units3 (ho : Safe o) : Judged (decide (n < m) && decide (k < l) && decide (i < j))
    (if m ≤ n ∨ l ≤ k ∨ j ≤ i then .refused .noSuchUnit else o) := by
  rw [← Bool.and_true (decide (n < m) && decide (k < l) && decide (i < j))]
  exact judged_check (by simp [-not_lt]; omega) (.inl rfl) ho

/-- An address in the memory the device has (R186). -/
theorem judged_address (ho : Safe o) : Judged (decide (n < m)) (if m ≤ n then .fault .noSuchAddress else o) := by
  rw [← Bool.and_true (decide (n < m))]
  exact judged_check (by simp) (.inr (.inr rfl)) ho

end

/-! ### Rows of one kind -/

theorem judged_sylStep (op : Option SylOp) (r : Nat) (w : W32) (s : State) : Judged (sylFits op r w) (sylStep op r w s) := by
  rw [sylFits, ← Bool.and_true (decide (r < 544))]
  exact judged_check (by simp) (.inr (.inl rfl)) (judged_check (by simp) (.inl rfl) (safe_next _))

theorem judged_takeAs (op b : Nat) (entry : List W32) (f : Nat → State → State) (s : State) :
    Judged (isCmdFor op b entry) (takeAs op b entry f s) := by
  rw [isCmdFor, ← Bool.and_true (isCmd op entry)]
  exact judged_check (by simp) (.inl rfl) (judged_check (by simp) (.inr (.inl rfl)) (safe_next _))

theorem judged_onFlit (ty l : Nat) (header : W32) (n : Nat) (f : State → State) (s : State) :
    Judged (flitFits ty l header) (onFlit ty l header n f s) := by
  rw [flitFits, ← Bool.and_true (fld header 28 4 == ty)]
  exact judged_check (by simp) (.inl rfl) (judged_check (by simp) (.inr (.inl rfl)) (.ite (safe_next _) (safe_next _)))

/-! ### Rows whose units are not numbered, and that act only in some states -/

section
variable {s : State}

theorem safe_execStateTransitionComplete : Safe (execStateTransitionComplete s) := by
  unfold execStateTransitionComplete
  split <;> exact safe_next _

theorem safe_execTideBoundary : Safe (execTideBoundary s) := by
  unfold execTideBoundary
  split <;> exact safe_next _

theorem safe_execHostReadCompletion (k : Nat) (data : List Byte) (ok : Bool) : Safe (execHostReadCompletion k data ok s) := by
  unfold execHostReadCompletion
  split <;> exact safe_next _

theorem safe_execHostRequestTimeout (k : Nat) : Safe (execHostRequestTimeout k s) := by
  unfold execHostRequestTimeout
  split
  · exact .ite (safe_next _) (safe_next _)
  · exact safe_next _

theorem safe_execFailoverReloadComplete (l : Nat) : Safe (execFailoverReloadComplete l s) := by
  unfold execFailoverReloadComplete
  split <;> exact safe_next _

theorem safe_execTestProcEnd (first : Option Nat) : Safe (execTestProcEnd first s) := by
  unfold execTestProcEnd
  split <;> exact safe_next _

theorem safe_execEventCommit : Safe (execEventCommit s) := by
  refine .ite ?_ (safe_next _)
  split <;> exact safe_next _

theorem safe_execSuccessorUnreachable (k : Nat) : Safe (execSuccessorUnreachable k s) := by
  unfold execSuccessorUnreachable
  split
  · exact .ite (safe_next _) (safe_next _)
  · exact safe_next _

theorem safe_execPromotion : Safe (execPromotion s) := by
  unfold execPromotion
  split
  · exact .ite (safe_next _) (safe_next _)
  · exact safe_next _

theorem safe_execFbCommit (ue : Bool) : Safe (execFbCommit ue s) := by
  unfold execFbCommit
  split
  · exact safe_next _
  · exact .ite (safe_next _) (.ite (safe_next _) (safe_next _))

theorem safe_execFbMirrorCopy : Safe (execFbMirrorCopy s) := by
  refine .ite (.ite ?_ (safe_next _)) (safe_next _)
  split
  · exact safe_next _
  · exact .ite (safe_next _) (safe_next _)

theorem safe_execMigrationStart : Safe (execMigrationStart s) := by
  refine .ite (safe_next _) ?_
  split <;> exact safe_next _

theorem safe_execMigrationRetry : Safe (execMigrationRetry s) := by
  unfold execMigrationRetry
  split
  · exact .ite (safe_next _) (safe_next _)
  · exact safe_next _

theorem safe_execBoundaryScan (op addr : Nat) : Safe (execBoundaryScan op addr s) := by
  refine .ite (safe_next _) ?_
  split
  · exact safe_next _
  · refine .ite ?_ (safe_next _)
    split <;> exact safe_next _
  · exact safe_next _

end

/-! ### Checks of their own -/

section
variable {s : State}

/-- BADCMD takes an entry that is no command (R200). -/
theorem judged_execBadcmd (b : Nat) (entry : List W32) :
    Judged (decide (b < 32) && !cmdFits entry) (execBadcmd b entry s) := by
  rw [← Bool.and_true (!cmdFits entry)]
  exact judged_check (by simp) (.inl rfl) (judged_check (by simp) (.inr (.inl rfl)) (safe_next _))

/-- A D-state change names D0 or D3hot. -/
theorem judged_execDStateChange (d : Nat) : Judged (d == 0 || d == 3) (execDStateChange d s) := by
  rw [← Bool.and_true (d == 0 || d == 3)]
  exact judged_check (by simp) (.inl rfl) (.ite (safe_next _) (safe_next _))

/-- A row that names a stream of the integrity and data encryption. -/
theorem judged_stream {n : Nat} {o : Out3} (ho : Safe o) :
    Judged (ideStream n) (if !ideStream n then .refused .noSuchUnit else o) := by
  rw [← Bool.and_true (ideStream n)]
  exact judged_check (by simp) (.inl rfl) ho

/-- A mask is cleared of one vector that exists, or of all. -/
theorem judged_execMsixMaskClear (v : Option Nat) :
    Judged (v.all fun n => decide (n < 2048)) (execMsixMaskClear v s) := by
  cases v with
  | none => exact safe_next _
  | some n => exact judged_unit (safe_next _)

/-- IRQ_FORCE names a page that a block owns. -/
theorem judged_execIrqForce (ag pg : Nat) (v : W32) : Judged (blockOf pg).isSome (execIrqForce ag pg v s) := by
  unfold execIrqForce
  cases blockOf pg with
  | none => exact .inl rfl
  | some b => exact safe_next _

end

/-! ### Every row -/

/-- Every row is judged: by what the rows of its kind share, or by its checks and the states that its branches give. -/
theorem judged_exec (s : State) : ∀ c : Instr, Judged c.wellFormed (exec c s)
  | .macS .. | .macD .. | .msuS .. | .msuD .. | .mpaS .. | .mpaD .. | .dmac .. | .dmsu .. | .dmpa .. | .mul .. | .mulu ..
  | .aclr .. | .ald .. | .amov .. | .aadd .. | .asub .. | .aneg .. | .ashl .. | .ashr .. | .alsr .. | .accAsh .. | .fadd ..
  | .fsub .. | .fmul .. | .fma .. | .fms .. | .fneg .. | .fabs .. | .fmin .. | .fmax .. | .fceq .. | .fclt .. | .fcle ..
  | .fcun .. | .fcvtd2s .. | .fcvts2d .. | .fcvth2s .. | .fcvts2h .. | .fcvtf2i .. | .fcvti2f .. | .fmovf2s ..
  | .fmovs2f .. | .fmovq .. | .fmov .. | .vadd .. | .vsub .. | .vmul .. | .vfma .. | .vmin .. | .vmax .. | .vand ..
  | .vor .. | .vxor .. | .vdup .. | .fldW .. | .fldQ .. | .vld .. | .fstW .. | .fstQ .. | .vst .. | .cld .. | .cst ..
  | .lvcpy .. | .lvaddf .. | .lmul .. | .lmulu .. | .lmul64 .. | .lmulh64 .. | .ldiv .. | .ldivu .. | .fdiv .. | .fsqrt ..
  | .exp2 .. | .log2 .. | .sin2pi .. | .tanh .. | .rsqrt .. | .bcdadd .. | .bcdsub .. | .lbar .. | .ldS .. | .ldSu ..
  | .ldD .. | .ldQ .. | .stS .. | .stD .. | .stQ .. | .staS .. | .staD .. | .ldb .. | .ldbu .. | .ldh .. | .ldhu ..
  | .ldw .. | .stb .. | .sth .. | .stw .. | .add .. | .sub .. | .adds .. | .subs .. | .neg .. | .negs .. | .and .. | .or ..
  | .xor .. | .not .. | .lsl .. | .lsr .. | .asr .. | .ash .. | .min .. | .max .. | .minu .. | .maxu .. | .cmpeq ..
  | .cmpne .. | .cmplt .. | .cmpge .. | .cmpltu .. | .cmpgeu .. | .mov .. | .pand .. | .por .. | .pnot .. | .movi ..
  | .movq .. | .mva .. | .mvm .. | .rdsr .. | .wrsr .. | .rpd .. | .wpd .. | .br .. | .call .. | .bri .. | .calli ..
  | .ret .. | .rfe .. | .loop .. | .rep .. | .repi .. | .nop .. | .tend .. | .flushi .. | .bchk .. | .break ..
  | .undefinedOpcode .. => judged_sylStep _ _ _ _
  | .start .. | .stop .. | .resume .. | .setrate .. | .keyload .. | .gather .. | .fence .. => judged_takeAs _ _ _ _ _
  | .ctrlFlit .. | .nakFlit .. | .hbFlit .. | .audioFlit .. | .memrdFlit .. | .memrspFlit .. | .memwrFlit .. | .mgmtFlit ..
  | .loopFlit .. => judged_onFlit _ _ _ _ _ _
  | .stateReqStartup .. | .stateReqTest .. | .stateReqService .. | .stateReqRecovery .. | .stateReqTussock ..
  | .stateReqDormant .. | .meshRouterFail .. | .surveyorMemoryUe .. | .recActiveClear .. | .tdEnWrite .. | .qmgCommit ..
  | .qmgDisable .. | .qmgRead .. | .qmgAdvance .. | .msixEnable .. | .swtrig .. | .srcCfgWrite .. | .hotReset ..
  | .linkDown .. | .hostSnoop .. | .cxlLoopbackStart .. | .atlasJoin .. | .atlasLeave .. | .busCommit ..
  | .startSequence .. | .startupWatchdog .. | .pushGo .. | .pushData .. | .bootAck .. | .svncommit .. | .zeroize ..
  | .fbLatch .. | .fbRepair .. | .mirenSet .. | .testProcRun .. | .merCfgWrite .. | .qmgDropRead .. | .fbkLostRead ..
  | .glbErrCntRead .. | .pkgPowerRead .. | .atlCntRead .. | .registerWrite .. | .perstAssert .. | .vddAonLoss .. | .flr ..
  | .cxlReset .. => judged_always (safe_next _)
  | .powerGood .. | .sysPwrgdFall .. | .queueTableUe .. | .pkgPowerWindow .. | .selfRefreshEntry .. | .bisnpResponse ..
  | .linkTrained .. | .l0pWidthChange .. | .l1Entry .. | .l2Entry .. | .perstDeassert .. | .lkekInstall .. | .hbSend ..
  | .partition .. | .rejoinComplete .. | .pushVerifyComplete .. | .mailboxUnknownService .. | .wallSet ..
  | .migrationCopyComplete .. | .migrationAbandon .. | .spareBistPeriodic .. | .refLock .. | .refLoss .. | .refReturn ..
  | .ppsCapture .. | .thermalWarning .. | .thermtrip .. | .loopbackFollower .. | .fbScrub .. | .spdmRequest ..
  | .cxlLoopbackEnd .. => judged_always (.ite (safe_next _) (safe_next _))
  | .ttDataHiWrite .. | .runSet .. | .runClear .. | .wmclr .. | .paceWindow .. | .pdData3Write .. | .farReadLate ..
  | .tsCfgWrite .. | .sdCommit .. | .fenceComplete .. | .sluiceLateArrival .. | .aspEnable .. | .aspDisable ..
  | .aspLoopCtrlWrite .. | .sspEnable .. | .sspDisable .. | .midiTx .. | .sspLoopCtrlWrite .. | .tcuStart .. | .tcuStop ..
  | .tcuReset .. | .tcuCntWrite .. | .tcuCmpWrite .. | .capselWrite .. | .doorbellWrite .. | .svClaim .. | .eoiForce ..
  | .doeAbort .. | .cwlEnable .. | .cwlDisable .. | .cwlRetrain .. | .cwlTrained .. | .rejoin .. | .cwlLoopbackStart ..
  | .migGo .. | .migGoForce .. | .hbmLoopbackStart .. | .farLateRead .. | .tokCntRead .. | .poolEccRead ..
  | .hbmEccCeRead .. | .hbmEccUeRead .. | .sfStatRead .. | .slcCntARead .. | .slcCntBRead .. | .slcLoadRead ..
  | .aspCntARead .. | .aspCntBRead .. | .sspCntRead .. | .cwlCntCrcRead .. | .cwlCntReplayRead .. | .hdmCommit ..
  | .slcLoadWindow .. => judged_unit (safe_next _)
  | .paceLoopAdjust .. | .refreshRateRaised .. | .hbmEccWindow .. | .doeRequest .. | .cwlBadFlit .. | .pceilEstimate ..
  | .reedEccWindow .. | .railExcursion .. | .poolScrub .. | .hbmScrub .. | .aspSlaveFrameStart .. | .sspMatrixStep ..
  | .sspAdcPass .. | .sspAdcWord .. | .captureEvent .. | .moderationExpiry .. | .miswiredRetry .. | .replayTimeout ..
  | .cwlLoopbackEnd .. | .hbmLoopbackEnd .. => judged_unit (.ite (safe_next _) (safe_next _))
  | .farReadData .. | .farStoreArrival .. | .pageReback .. | .farStoreTimeout .. | .tcuStep .. | .contextResume ..
  | .tcuMatch .. | .tcuOvf .. | .farReadTimeout .. | .aspClockLoss .. | .sspMatrixSample .. | .sspConversionComplete ..
  | .midiRxFrame .. | .midiTxFrameSent .. | .tcuAction .. | .tcuPairCarry .. | .handshakeStall .. =>
    judged_unit (by (repeat' split) <;> exact safe_next _)
  | .swapRequest .. | .ctxRestart .. | .sluiceRequestData .. | .sluiceRequestTimeout .. | .slotmapWrite ..
  | .oslotmapWrite .. | .smapWrite .. | .eoi .. | .ovrCountRead .. => judged_units (safe_next _)
  | .aspStagingLoad .. | .laneLoss .. | .overrunDeadline .. | .ringWindowResident .. =>
    judged_units (.ite (safe_next _) (safe_next _))
  | .farStoreFail .. | .mailboxLoadImage .. | .contextStart .. | .louRetire .. | .aspSlotEmit .. | .aspLossZeroWrite ..
  | .laneMarginLow .. => judged_units (by (repeat' split) <;> exact safe_next _)
  | .sluiceRequestIssue .. => judged_units3 (safe_next _)
  | .overrunStart .. | .entryPassedOver .. => judged_units3 (.ite (safe_next _) (safe_next _))
  | .cxlMemRead .. | .cxlMemWrite .. | .uioAccess .. => judged_address (.ite (safe_next _) (safe_next _))
  | .mailboxInfo .. => judged_always (.ite (safe_next _) (.ite (safe_next _) (safe_next _)))
  | .fbRefill .. => judged_always (.ite (.ite (safe_next _) (safe_next _)) (safe_next _))
  | .fastRaise .. | .engineSelfcheckFail .. => judged_unit (.ite (safe_next _) (.ite (safe_next _) (safe_next _)))
  | .fbRepairComplete .. => judged_units (.ite (safe_next _) (.ite (safe_next _) (safe_next _)))
  | .surveyorWatchdog .. => judged_unit (.ite (safe_next _) (by dsimp only; split <;> exact safe_next _))
  | .overrunBudget .. =>
    judged_unit (by
      split
      · exact .ite (safe_next _) (by split <;> exact safe_next _)
      · exact safe_next _)
  | .louTrapDelivery .. =>
    judged_unit (by
      split
      · exact safe_next _
      · dsimp only
        split
        · exact safe_next _
        · exact .ite (safe_next _) (safe_next _))
  | .aspFrameStart .. =>
    judged_unit (by
      dsimp only
      split
      · exact .ite (safe_next _) (safe_next _)
      · exact safe_next _)
  | .aspSlotIngress .. =>
    judged_units (.ite (safe_next _) (by
      split
      · exact safe_next _
      · exact .ite (safe_next _) (safe_next _)))
  | .badcmd .. => judged_execBadcmd _ _
  | .dStateChange .. => judged_execDStateChange _
  | .ideKmKey .. | .ideIntegrityFail .. => judged_stream (.ite (safe_next _) (safe_next _))
  | .msixMaskClear .. => judged_execMsixMaskClear _
  | .irqForce .. => judged_execIrqForce _ _ _
  | .stateTransitionComplete .. => judged_always safe_execStateTransitionComplete
  | .tideBoundary .. => judged_always safe_execTideBoundary
  | .hostReadCompletion .. => judged_always (safe_execHostReadCompletion _ _ _)
  | .failoverReloadComplete .. => judged_always (safe_execFailoverReloadComplete _)
  | .testProcEnd .. => judged_always (safe_execTestProcEnd _)
  | .eventCommit .. => judged_always safe_execEventCommit
  | .hostRequestTimeout .. => judged_always (safe_execHostRequestTimeout _)
  | .successorUnreachable .. => judged_always (safe_execSuccessorUnreachable _)
  | .promotion .. => judged_always safe_execPromotion
  | .fbCommit .. => judged_always (safe_execFbCommit _)
  | .fbMirrorCopy .. => judged_always safe_execFbMirrorCopy
  | .migrationStart .. => judged_always safe_execMigrationStart
  | .migrationRetry .. => judged_always safe_execMigrationRetry
  | .boundaryScan .. => judged_always (safe_execBoundaryScan _ _)

/-- Settles O56: the row's judgement, read for a command that exists and for one that does not. -/
theorem everyCommandThatExistsRuns : Obligations.EveryCommandThatExistsRuns := by
  intro c s
  have hjudged := judged_exec s c
  refine ⟨fun hexists => ?_, fun hnot => ?_⟩
  · rw [hexists] at hjudged
    exact hjudged
  · rw [hnot] at hjudged
    exact hjudged

end Sys2Proof.Machine
end

section
/-! SUPPORT. A bundle of one syllable that transfers control and does nothing else, and the choice of the bundle after it (R149,
R152, R154, R165). -/

namespace Sys2Proof.Machine

/-! ### A syllable that does nothing but transfer control -/

/-- What a syllable of the C slot does that only transfers control; TEND also waits for the LOU (R113). -/
def ctlEff (ctl : Ctl) (drains : Bool) : Eff := { ctl := ctl, drains := drains }

/-- A context whose bundle is counted, with the loops and the REP state that it chose. -/
def Ctx.stepped (ch : Choice) (k : Ctx) : Ctx :=
  { k with run := { k.run with
    loops := ch.loops, counts := Tab.set k.run.counts k.run.level (k.run.countAt k.run.level + 1), persCheck := false
    rep := ch.rep } }

/-- What a control transfer does to the loops, the return stack and the frames (R86, R153, R154, R168); `nxt` is the next
sequential bundle. -/
def Ctl.apply (ctl : Ctl) (nxt : W16) (k : Ctx) : Ctx :=
  match ctl with
  | .loop n le count _ => { k with run := { k.run with loops := k.run.loops.enter n nxt le count } }
  | .call _ | .callIndirect _ => { k with run := k.run.push nxt }
  | .ret => { k with run := k.run.pop }
  | .tend => { k with run := { k.run with frames := [], rep := Option.none } }
  | _ => k

/-- The context read of a reed just written. -/
theorem ctxAt_setReed (r c : Nat) (X : Reed) (s : State) : ctxAt (setReed r X s) r c = X.ctxOf c := by rw [ctxAt, reedOf_setReed]

/-- Nothing is written at TEND where no result awaits its beat (R57, R168). -/
theorem settleAll_of_no_result (lv : Nat) {k : Ctx} (h : k.run.shadow = []) : settleAll lv k = k := by
  induction lv with
  | zero => exact settle_of_no_result 0 none h
  | succ n ih => rw [settleAll, settle_of_no_result _ _ h, ih]

/-- The context goes on with its next bundle after the transfer: no TEND, RFE or BREAK. -/
def Ctl.goesOn : Ctl → Bool
  | .tend | .rfe .. | .brk _ => false
  | _ => true

/-- What follows a bundle of a control transfer: the end of its run, the trap after it, or the next boundary (R165, R166,
R168). -/
def Ctl.follow (ctl : Ctl) (trap : Option Exc) (r c : Nat) (next pc nxt : W16) (s : State) : State :=
  match ctl, trap with
  | .tend, _ => finishTend r c s
  | _, some e => boundary r c (takeExc r c e next pc nxt s)
  | _, Option.none => boundary r c s

section
variable {r c : Nat} {w : W32} {s : State} {ctl : Ctl} {d : Bool}

/-- The context's side of a bundle without results, flags and staging. -/
theorem finishCtx_bare (v : View) (x : Reed) (e : Eff) (ch : Choice) (k : Ctx) (hx : x.latch = [w]) (hv : v.q = k.run)
    (hk : k.run.shadow = []) (hrfe : ∀ a b, ctl ≠ .rfe a b) (hres : e.results = []) (hraised : e.raised = {})
    (hst : e.staging = none) : finishCtx v x [e] ctl ch k =
      let k1 := ctl.apply v.nxt (k.stepped ch)
      { k1 with run := { k1.run with pc := ch.next } } := by
  have hshadow (lv m : Nat) : entriesOf lv m [w] [e] = [] := by rw [entriesOf_lone, hres, if_pos hraised]; rfl
  unfold finishCtx
  extract_lets lv cnt q staging k1 k2
  have hk1 : k1 = k.stepped ch := by
    simp only [k1, q, staging, lv, cnt, hx, hshadow, List.append_nil, staging_lone, hst, hv, Ctx.stepped]
    rfl
  have hk2 : k2 = k.stepped ch := (settle_of_no_result _ _ (hk1 ▸ hk)).trans hk1
  have hall : settleAll lv k2 = k.stepped ch := (settleAll_of_no_result _ (hk2 ▸ hk)).trans hk2
  clear_value k2
  subst hk2
  cases ctl
  case rfe => exact absurd rfl (hrfe _ _)
  case tend => exact congrArg (fun t : Ctx => { t with run := { t.run with frames := [], rep := none, pc := ch.next } }) hall
  all_goals rfl

/-- The context after a lone bundle without results, flags and staging, but for its beats. -/
theorem loneDone_bare (h : Lone r c w s) (hctl : (loneEff r c w s).ctl = ctl) (hrfe : ∀ a b, ctl ≠ .rfe a b)
    (hres : (loneEff r c w s).results = []) (hraised : (loneEff r c w s).raised = {}) (hst : (loneEff r c w s).staging = none)
    {ch : Choice} (hch : choose (loneView r c w s) (reedOf (fetched r w s) r) ctl = ch) :
    loneDone r c w s =
      let k1 := ctl.apply ((ctxAt s r c).run.pc + 1) ((ctxAt s r c).stepped ch)
      { k1 with run := { k1.run with pc := ch.next } } := by
  have hl : (reedOf (fetched r w s) r).latch = [w] := by simp [reedOf_fetched]
  have hfin := finishCtx_bare (loneView r c w s) (reedOf (fetched r w s) r) (loneEff r c w s) ch (ctxAt s r c) hl (loneView_q ..)
    h.ready.noResult hrfe hres hraised hst
  rw [loneView_nxt] at hfin
  unfold loneDone
  simp only [hctl, hch]
  exact hfin

/-- No beat is added for bank conflicts where nothing is accessed. -/
theorem bankExtra_of_no_access (b : Nat) {e : Eff} (h1 : e.reads = []) (h2 : e.writes = []) (h3 : e.groups = []) :
    bankExtra b [e] = 0 := by simp [bankExtra, h1, h2, h3]

/-- One beat passes with a syllable that accesses nothing. -/
theorem localBeats_ctlEff : localBeats [ctlEff ctl d] = 1 := by simp [localBeats, ctlEff, bankExtra_of_no_access]

section
variable (he : loneEff r c w s = ctlEff ctl d)
include he

/-- The context in the reed after the bundle: beats apart, that of `loneDone`. -/
theorem loneReed_ctl_ctx (m : Nat) (pf : Option (W16 × List W32)) : (loneReed r c w s m pf).ctxOf c =
    { loneDone r c w s with sched :=
      { (loneDone r c w s).sched with beats := (loneDone r c w s).sched.beats + 1 + m } } := by
  rw [loneReed_ctx m pf (by rw [he]; rfl), he, localBeats_ctlEff]

variable (h : Lone r c w s)
include h

/-- The context after the bundle, but for its beats. -/
theorem loneDone_ctl (hrfe : ∀ a b, ctl ≠ .rfe a b) {ch : Choice}
    (hch : choose (loneView r c w s) (reedOf (fetched r w s) r) ctl = ch) :
    loneDone r c w s =
      let k1 := ctl.apply ((ctxAt s r c).run.pc + 1) ((ctxAt s r c).stepped ch)
      { k1 with run := { k1.run with pc := ch.next } } :=
  loneDone_bare h (by rw [he]; rfl) hrfe (by rw [he]; rfl) (by rw [he]; rfl) (by rw [he]; rfl) hch

/-- The bundle completes: its TEND, the trap after it, or the next boundary. -/
theorem exec_ctl {i : Instr} {o : SylOp} (hi : Spells i o r w) : ∃ m pf, (ctl = .tend → m = 0) ∧ exec i s =
    .next (ctl.follow (trapAfter (loneView r c w s) (reedOf (fetched r w s) r) ctl) r c
      (choose (loneView r c w s) (reedOf (fetched r w s) r) ctl).next (ctxAt s r c).run.pc ((ctxAt s r c).run.pc + 1)
      (setReed r (loneReed r c w s m pf) s)) := by
  have hq : ∀ n, (loneEff r c w s).readsQ = some n → bitOf (ctxAt s r c).run.qValid n = true := by simp [he, ctlEff]
  obtain ⟨m, pf, hm, hdone⟩ := completeBundle_any h hq
  have hstate : loneState r c w s (loneReed r c w s m pf) = setReed r (loneReed r c w s m pf) s := by
    simp [loneState, he, ctlEff, placed]
  have hctl : (loneEff r c w s).ctl = ctl := by rw [he]; rfl
  rw [hstate, hctl] at hdone
  refine ⟨m, pf, fun ht => hm (hctl.trans ht), ?_⟩
  rw [exec_any hi.1 hi.2 h hq (by rw [he]; rfl) (by rw [he]; rfl) (by simp [he, ctlEff]), hdone]
  generalize trapAfter (loneView r c w s) (reedOf (fetched r w s) r) ctl = trap
  cases ctl <;> cases trap <;> rfl

theorem loneDone_ctl_sched (hrfe : ∀ a b, ctl ≠ .rfe a b) : (loneDone r c w s).sched = (ctxAt s r c).sched := by
  rw [loneDone_ctl he h hrfe rfl]
  cases ctl <;> rfl

end

/-- A bundle that transfers control, but no TEND, BREAK or RFE, goes on to the next boundary, and changes nothing but its
context and the reed's fetch. -/
theorem exec_transfer {i : Instr} {o : SylOp} (hi : Spells i o r w) (h : Lone r c w s) (he : loneEff r c w s = ctlEff ctl d)
    (hgo : ctl.goesOn = true) {ch : Choice}
    (hch : choose (loneView r c w s) (reedOf (fetched r w s) r) ctl = ch) :
    ∃ t hh, exec i s = .next t ∧ OnlyCtx r c s t ∧ (reedOf t r).lbuf = loneBuf r c w s ∧
      (reedOf t r).stations = [] ∧
      ctxAt t r c =
        let k1 := ctl.apply ((ctxAt s r c).run.pc + 1) ((ctxAt s r c).stepped ch)
        { k1 with run := { k1.run with pc := ch.next }, sched := hh } := by
  obtain ⟨m, pf, -, hexec⟩ := exec_ctl he h hi
  have hctx := loneReed_ctl_ctx he m pf
  have hrfe : ∀ a b, ctl ≠ .rfe a b := by
    rintro a b rfl
    cases hgo
  have hsched := loneDone_ctl_sched he h hrfe
  have htrap : trapAfter (loneView r c w s) (reedOf (fetched r w s) r) ctl = none := by
    cases ctl
    case tend | rfe | brk => cases hgo
    all_goals simp [trapAfter, h.ready.noStep]
  have hquiet : boundary r c (setReed r (loneReed r c w s m pf) s) = setReed r (loneReed r c w s m pf) s := by
    apply boundary_quiet <;> rw [reedOf_setReed, hctx]
    · exact (congrArg Sched.stop hsched).trans h.ready.noStop
    · exact (congrArg Sched.due hsched).trans h.ready.noDue
  refine ⟨setReed r (loneReed r c w s m pf) s,
    { (loneDone r c w s).sched with beats := (loneDone r c w s).sched.beats + 1 + m }, ?_, ⟨?_, fun e hne => ?_⟩, ?_, ?_, ?_⟩
  · rw [hexec, htrap]
    cases ctl
    case tend => cases hgo
    all_goals exact congrArg _ hquiet
  · rw [OnlyReed, reedOf_setReed]
  · rw [ctxAt, reedOf_setReed]
    exact loneReed_other m pf hne
  · rw [reedOf_setReed]
    rfl
  · have hissue : (loneEff r c w s).issue = none := by rw [he]; rfl
    rw [reedOf_setReed]
    show (issueStations c [loneEff r c w s] _).stations = _
    rw [issueStations_none _ _ _ hissue]
    exact (congrArg Reed.stations (reedOf_fetched r w s)).trans h.ready.noLou
  · rw [ctxAt, reedOf_setReed, hctx, loneDone_ctl he h hrfe hch]

end

/-! ### The choice of the next bundle (R149, R154, R156) -/

/-- The next bundle of a taken branch, call or return: its target, whatever the loops (R149). -/
theorem choose_target {v : View} {ctl : Ctl} {t : W16} (x : Reed) (hrep : v.q.rep = none) (ht : ctl.target v.q = some t) :
    choose v x ctl =
      { loops := v.q.loops, cont := none, exits := [], next := t, rep := none, again := false } := by
  unfold choose
  rw [hrep]
  cases ctl <;> cases ht <;> rfl

/-- No loop closes at a bundle that ends no loop with turns left (R154). -/
theorem closeLoops_none {l : Loops} {pc : W16} (h : ∀ n, l.le n = pc → l.lc n = 0) (ns : List Bool) :
    closeLoops l pc ns = (l, none, []) := by
  induction ns with
  | nil => rfl
  | cons n ns ih => rw [closeLoops, if_neg fun hn => hn.2 (h n hn.1), ih]

section
variable {v : View} (x : Reed) (hrep : v.q.rep = none) (hl : ∀ n, v.q.loops.le n = v.pc → v.q.loops.lc n = 0)
include hrep hl

/-- The next bundle of a LOOP where none closes: behind the body if a register count is 0, else the body (R154). -/
theorem choose_loop (n : Bool) (le : W16) (count : W32) (fromReg : Bool) :
    choose v x (.loop n le count fromReg) =
      { loops := v.q.loops, cont := none, exits := [], rep := none, again := false
        next := if fromReg ∧ count = 0 then
          le + BitVec.ofNat 16 (bundleAt v.s v.r { x with prefetch := none, lbuf := {} } le).length else v.nxt } := by
  unfold choose
  rw [hrep]
  extract_lets left dom rep cl next
  have hcl : cl = (v.q.loops, none, []) := closeLoops_none hl _
  clear_value cl
  subst hcl
  cases fromReg
  · exact congrArg (Choice.mk _ _ _ · _ _) (if_neg fun h => Bool.noConfusion h.1).symm
  · exact congrArg (Choice.mk _ _ _ · _ _) (if_congr ⟨fun h => ⟨rfl, h⟩, And.right⟩ rfl rfl)

/-- The next bundle of a REP where no loop closes: the one that it repeats (R156). -/
theorem choose_rep (n : Nat) (isRep : Bool) :
    ∃ p : RepState, p.left = n ∧ choose v x (.rep n isRep) =
      { loops := v.q.loops, cont := none, exits := [], next := v.nxt, rep := some p, again := false } := by
  unfold choose
  rw [hrep]
  extract_lets left dom rep cl next
  have hcl : cl = (v.q.loops, none, []) := closeLoops_none hl _
  clear_value cl
  subst hcl
  exact ⟨_, rfl, rfl⟩

end

/-- The next bundle of one that transfers no control and of BREAK, FLUSHI and TEND. -/
theorem choose_sequential {v : View} {ctl : Ctl} (x : Reed) (hrep : v.q.rep = none)
    (hctl : ctl = .none ∨ ctl = .flushi ∨ ctl = .tend ∨ ∃ n, ctl = .brk n) : choose v x ctl = choose v x .none := by
  unfold choose
  rw [hrep]
  obtain rfl | rfl | rfl | ⟨n, rfl⟩ := hctl <;> rfl

end Sys2Proof.Machine
end

section
/-! SUPPORT. Branches, calls and returns, loops, and the control syllables that go on with the next bundle (R85 to R87). -/

namespace Sys2Proof.Machine

/-! ### Branches, calls and returns (R85, R149, R153) -/

/-- The transfer of a C-BR syllable other than RFE. -/
def BrOp.ctl (q : Run) (g : Regs) (w : W32) : BrOp → Ctl
  | .br => .branch (relTarget q.pc w)
  | .bri => .indirect ((g.sOf (fld w 17 3)).setWidth 16)
  | .call => .call (relTarget q.pc w)
  | .calli => .callIndirect ((g.sOf (fld w 17 3)).setWidth 16)
  | .ret | .rfe => .ret

/-- A C-BR syllable within the return stack's bounds transfers control and does nothing else. -/
theorem evalBr_in_bounds {v : View} {o : BrOp} (w : W32) (hpc : v.pc = v.q.pc) (ho : o ≠ .rfe)
    (hfull : (o = .call ∨ o = .calli) → ¬(v.q.depth = 16 ∧ v.g.rso = true))
    (hempty : o = .ret → ¬(v.q.depth = 0 ∧ v.g.rso = true)) : evalBr v o w = ctlEff (o.ctl v.q v.g w) false := by
  cases o
  case rfe => exact absurd rfl ho
  case br => rw [evalBr, hpc]; rfl
  case bri => rfl
  case call => exact (if_neg (hfull (.inl rfl))).trans (by rw [hpc]; rfl)
  case calli => exact if_neg (hfull (.inr rfl))
  case ret => exact if_neg (hempty rfl)

/-- The bundle that a C-BR syllable other than RFE transfers to (R85, R149). -/
def BrOp.target (q : Run) (g : Regs) (w : W32) : BrOp → W16
  | .br | .call => relTarget q.pc w
  | .bri | .calli => (g.sOf (fld w 17 3)).setWidth 16
  | .ret | .rfe => q.top

/-- A C-BR syllable's transfer goes to its target. -/
theorem target_brOp_ctl (q : Run) (g : Regs) (w : W32) (o : BrOp) : (o.ctl q g w).target q = some (o.target q g w) := by
  cases o <;> rfl

/-- Settles O14: the syllable's transfer chooses the next bundle, and the return stack is the context's own. -/
theorem branchGoesToItsTarget : Obligations.BranchGoesToItsTarget := by
  intro i o r c w s hi h ho k sa stack hfull hempty
  have he : loneEff r c w s = ctlEff (o.ctl k.run k.regs w) false := by
    rw [loneEff_op h (decodeOp_of_wellFormed hi.1 hi.2).1]
    have hin := evalBr_in_bounds (v := loneView r c w s) w (by simp) ho (by simpa using hfull) (by simpa using hempty)
    rwa [loneView_q, loneView_g] at hin
  have hch := choose_target (v := loneView r c w s) (reedOf (fetched r w s) r) (by simpa using h.ready.noRep)
    (by rw [loneView_q]; exact target_brOp_ctl k.run k.regs w o)
  rw [loneView_q] at hch
  obtain ⟨t, hh, hexec, honly, -, -, hctx⟩ := exec_transfer hi h he (by cases o <;> rfl) hch
  refine ⟨t, hexec, honly, ?_⟩
  rw [hctx]
  cases o
  case rfe => exact absurd rfl ho
  all_goals exact ⟨rfl, rfl, rfl, rfl, rfl, rfl, rfl, rfl⟩

/-! ### LOOP, REP and REPI (R86, R154, R156) -/

/-- The transfer of a C-LOOP syllable. -/
def LoopOp.ctl (pc : W16) (g : Regs) (w : W32) : LoopOp → Ctl
  | .loop =>
    .loop (bitOf w 19) (pc + BitVec.ofNat 16 (fld w 0 10))
      (if bitOf w 18 then g.sOf (fld w 15 3) else BitVec.ofNat 32 (fld w 10 8 + 1)) (bitOf w 18)
  | .rep => .rep (fld w 0 16 + 1) true
  | .repi => .rep (fld w 0 16 + 1) false

/-- A C-LOOP syllable does nothing but its transfer. -/
theorem evalLoop_eq (v : View) (o : LoopOp) (w : W32) : evalLoop v o w = ctlEff (o.ctl v.pc v.g w) false := by
  cases o <;> rfl

section
variable (l : Loops) (n : Bool) (start stop : W16) (count : W32)

/-- LOOP sets its level's count. -/
theorem lc_enter_same : (l.enter n start stop count).lc n = count := by cases n <;> rfl
/-- LOOP sets its level's start. -/
theorem ls_enter_same : (l.enter n start stop count).ls n = start := by cases n <;> rfl
/-- LOOP sets its level's end. -/
theorem le_enter_same : (l.enter n start stop count).le n = stop := by cases n <;> rfl
/-- LOOP leaves the other level's count alone. -/
theorem lc_enter_other : (l.enter n start stop count).lc (!n) = l.lc (!n) := by cases n <;> rfl

end

/-- Settles O16: no loop closes, so the next bundle is the syllable's own choice. -/
theorem loopsBegin : Obligations.LoopsBegin := by
  intro i o r c w s hi h k n1 le count x hl
  have he : loneEff r c w s = ctlEff (o.ctl k.run.pc k.regs w) false := by
    rw [loneEff_op h (decodeOp_of_wellFormed hi.1 hi.2).1]
    exact (evalLoop_eq ..).trans (by rw [loneView_pc, loneView_g])
  have hrep : (loneView r c w s).q.rep = none := by simpa using h.ready.noRep
  have hl' : ∀ n, (loneView r c w s).q.loops.le n = (loneView r c w s).pc → (loneView r c w s).q.loops.lc n = 0 := by
    simpa only [loneView_q, loneView_pc] using hl
  have hgo : (o.ctl k.run.pc k.regs w).goesOn = true := by cases o <;> rfl
  cases o with
  | loop =>
    have hch := choose_loop x hrep hl' n1 le count (bitOf w 18)
    rw [loneView_q, loneView_nxt] at hch
    obtain ⟨t, hh, hexec, honly, -, -, hctx⟩ := exec_transfer hi h he hgo hch
    refine ⟨t, hexec, honly, ?_⟩
    rw [hctx]
    exact ⟨rfl, rfl, rfl, rfl, fun _ => ⟨lc_enter_same .., ls_enter_same .., le_enter_same .., lc_enter_other .., rfl, rfl⟩,
      fun hne => absurd rfl hne⟩
  | rep | repi =>
    obtain ⟨p, hp, hch⟩ := choose_rep x hrep hl' (fld w 0 16 + 1) _
    rw [loneView_q, loneView_nxt] at hch
    obtain ⟨t, hh, hexec, honly, -, -, hctx⟩ := exec_transfer hi h he hgo hch
    refine ⟨t, hexec, honly, ?_⟩
    rw [hctx]
    exact ⟨rfl, rfl, rfl, rfl, LoopOp.noConfusion, fun _ => ⟨rfl, rfl, congrArg some hp⟩⟩

/-! ### NOP, FLUSHI and BCHK (R87, R157) -/

/-- The transfer of the C-CTL syllables that go on with the next bundle. -/
def CtlOp.ctl : CtlOp → Ctl
  | .flushi => .flushi
  | _ => .none

/-- The loop buffer is empty after FLUSHI (R158). -/
theorem finishBuf_flushi (v : View) (x : Reed) (ch : Choice) (after : Loops) : finishBuf v x .flushi ch after = {} := rfl

/-- Settles O17: the syllable does nothing, so that the next bundle is that of the loop-close test. -/
theorem plainControlGoesOn : Obligations.PlainControlGoesOn := by
  intro i o r c w s hi h k cl bound ho hbound
  have he : loneEff r c w s = ctlEff o.ctl false := by
    rw [loneEff_op h (decodeOp_of_wellFormed hi.1 hi.2).1]
    obtain rfl | rfl | rfl := ho
    · rfl
    · rfl
    · exact if_neg (by simpa using hbound rfl)
  have hch := choose_none (loneView r c w s) (reedOf (fetched r w s) r) (by simpa using h.ready.noRep)
  rw [loneView_q, loneView_pc, loneView_nxt] at hch
  have hctl : o.ctl = .none ∨ o.ctl = .flushi := by cases o <;> simp [CtlOp.ctl]
  obtain ⟨t, hh, hexec, honly, hbuf, -, hctx⟩ := exec_transfer hi h he (by cases o <;> rfl)
    ((choose_sequential _ (by simpa using h.ready.noRep) (hctl.imp id .inl)).trans hch)
  refine ⟨t, hexec, honly, ?_⟩
  have happly : o.ctl.apply (k.run.pc + 1) = id := by cases o <;> rfl
  rw [hctx, happly]
  refine ⟨⟨rfl, rfl, rfl, rfl, rfl, rfl, rfl, rfl, rfl⟩, rfl, rfl, rfl, ?_⟩
  rintro rfl
  rw [hbuf, loneBuf, he]
  exact finishBuf_flushi ..

end Sys2Proof.Machine
end

section
/-! SUPPORT. TEND: the end of a run (R24, R168). -/

namespace Sys2Proof.Machine

/-! ### TEND (R24, R36, R168) -/

/-- The context of a run that has ended at time `t` (R24, R36). -/
def Ctx.ended (t : Nat) (k : Ctx) : Ctx :=
  { k with
    page := { (k.page.mark k.sched.beats) with
      beatsLast := min k.sched.beats 0xFFFFFF, slack := min k.page.slack (k.sched.deadline - t), skipping := false }
    sched := { k.sched with phase := .idle, due := none, resumed := false } }

/-- The end of a run changes no context of its reed. -/
theorem endRun_ctx (s : State) (h : Sched) (x : Reed) : (endRun s h x).ctx = x.ctx := by
  unfold endRun
  split <;> rfl

/-- The entry of a run that ends in its own tide counts as ended. -/
theorem endRun_ended {s : State} {h : Sched} (x : Reed) (hpos : h.pos < 8) (htide : h.tide = (domOf s h.dom).tide) :
    bitOf (Tab.get {} (endRun s h x).progress h.dom).ended h.pos = true := by
  rw [endRun, if_pos htide]
  show bitOf (Tab.get {} (Tab.set x.progress h.dom _) h.dom).ended h.pos = true
  rw [Tab.get_set, if_pos rfl]
  exact bitOf_putBit8 _ _ hpos

section
variable (r c : Nat) (X : Reed) (s : State)

/-- The reed after TEND's last effects, `X` being the reed at the end of its bundle. -/
def tendReed : Reed :=
  (endRun (setReed r X s) (X.ctxOf c).sched (X.setCtx c ((X.ctxOf c).ended (now (setReed r X s))))).drop

/-- TEND's last effects are those on its reed. -/
theorem finishTend_setReed : finishTend r c (setReed r X s) = setReed r (tendReed r c X s) s := by
  unfold finishTend
  rw [reedOf_setReed, setReed_setReed]
  rfl

/-- TEND's last effects are made on its own context alone. -/
theorem tendReed_ctx : (tendReed r c X s).ctx = Tab.set X.ctx c ((X.ctxOf c).ended (now (setReed r X s))) :=
  endRun_ctx ..

/-- The entry counts as ended after TEND, if its tide has not passed. -/
theorem tendReed_ended (hpos : (X.ctxOf c).sched.pos < 8)
    (htide : (X.ctxOf c).sched.tide = (domOf s (X.ctxOf c).sched.dom).tide) :
    bitOf (Tab.get {} (tendReed r c X s).progress (X.ctxOf c).sched.dom).ended (X.ctxOf c).sched.pos = true :=
  endRun_ended (s := setReed r X s) _ hpos htide

end

/-- Settles O18: the bundle of TEND completes with one beat, and its run ends. -/
theorem tendEndsTheRun : Obligations.TendEndsTheRun := by
  intro r c w s hi h k hs hpos
  have he : loneEff r c w s = ctlEff .tend true := loneEff_op h (decodeOp_of_wellFormed hi.1 hi.2).1
  obtain ⟨m, pf, hm, hexec⟩ := exec_ctl he h hi
  obtain rfl := hm rfl
  have hctx := loneReed_ctl_ctx he 0 pf
  have hother (e : Nat) (hne : e ≠ c) := loneReed_other (w := w) (s := s) (r := r) 0 pf hne
  rw [loneDone_ctl he h (fun _ _ => Ctl.noConfusion) rfl] at hctx
  generalize loneReed r c w s 0 pf = X at hctx hexec hother
  have hsched : (X.ctxOf c).sched = { hs with beats := hs.beats + 1 } := congrArg Ctx.sched hctx
  obtain ⟨hsame, hkeep⟩ := ctxOf_of_ctx (tendReed_ctx r c X s)
  refine ⟨setReed r (tendReed r c X s) s, hexec.trans (congrArg _ (finishTend_setReed r c X s)), ⟨?_, fun e hne => ?_⟩, ?_⟩
  · rw [OnlyReed, reedOf_setReed]
  · rw [ctxAt, reedOf_setReed, hkeep e hne, hother e hne]
  · rw [ctxAt, reedOf_setReed, hsame, hctx]
    refine ⟨rfl, rfl, rfl, rfl, h.ready.noResult, rfl, rfl, rfl, fun htide => ?_⟩
    have hended := tendReed_ended r c X s
    rw [hsched] at hended
    exact hended hpos htide

end Sys2Proof.Machine
end

section
/-! SUPPORT. Exceptions that enter their handler: BREAK after its bundle, an undefined opcode before it (R67, R159 to R161). -/

namespace Sys2Proof.Machine

/-! ### BREAK (R87, R160, R161, R166) -/

section
variable {r c : Nat} {s : State} {X : Reed}

/-- A reed whose other contexts are as they were keeps every other context of the device. -/
theorem otherCtxKept_setReed (hX : ∀ d, d ≠ c → X.ctxOf d = ctxAt s r d) : OtherCtxKept r c s (setReed r X s) :=
  ⟨fun _ hq => Tab.get_set_other _ _ _ _ _ hq, fun d hd => by rw [ctxAt, reedOf_setReed, hX d hd]⟩

end

/-- A context at the handler of an exception that raises no flag: its registers are as they were (R160). -/
theorem entered_of_no_flags {e : Exc} (hr : e.raised = {}) (epc : W16) (k : Ctx) :
    k.entered e epc = { k with
      run := { k.run with
        frames := k.frame epc :: k.run.frames, rep := none
        pc := BitVec.ofNat 16 (fld k.page.xvecLive 0 16 + 128 * k.run.frames.length + 8 * e.cause) }
      sched := { k.sched with beats := k.sched.beats + 4 } } := by
  unfold Ctx.entered
  rw [hr, setFlags_none]

/-- An exception without flags that does not escalate, of context `c` of the reed `X` that a bundle of it left: the handler is
entered, and of the device only the record is written (R160, R161). -/
theorem boundary_takeExc {r c : Nat} {s : State} {X : Reed} {e : Exc} (epc fpc npc : W16) (hraised : e.raised = {})
    (hesc : escReason (X.ctxOf c) e.cause = 0) (hstop : (X.ctxOf c).sched.stop = false) (hdue : (X.ctxOf c).sched.due = none)
    (hX : ∀ d, d ≠ c → X.ctxOf d = ctxAt s r d) (hm : Memory.wf s.mem = true) :
    let t := boundary r c (takeExc r c e epc fpc npc (setReed r X s))
    let k := X.ctxOf c
    let a := reedBase r + recordAt k.page k.run.frames.length
    OtherCtxKept r c s t ∧ FarBlocksKept s t ∧ ctxAt t r c = k.entered e epc ∧
      ∀ b, memWord t.mem b = if a ≤ b ∧ b < a + 16 then
        (recordWords e k.run.frames.length epc fpc npc k.regs.fsw).getD (b - a) 0 else memWord s.mem b := by
  have hk := ctxAt_setReed r c X s
  have henter := ctxAt_enterHandler r c e epc fpc npc (setReed r X s)
  rw [hk] at henter
  have hquiet : boundary r c (enterHandler r c e epc fpc npc (setReed r X s)) =
      enterHandler r c e epc fpc npc (setReed r X s) := by
    rw [ctxAt] at henter
    apply boundary_quiet <;> rw [henter]
    · exact hstop
    · exact hdue
  rw [takeExc_of_escReason_zero epc fpc npc (by rw [hk]; exact hesc), hquiet]
  refine ⟨(otherCtxKept_setReed hX).trans (otherCtxKept_enterHandler ..),
    farBlocksKept_enterHandler r c e epc fpc npc (setReed r X s), henter, fun b => ?_⟩
  have hrec := memWord_enterHandler r c e epc fpc npc (setReed r X s) hm b
  simp only [hk, hraised, setFlags_none] at hrec
  exact hrec

/-- Settles O19: the bundle completes, and its trap enters the handler at the next boundary. -/
theorem breakEntersItsHandler : Obligations.BreakEntersItsHandler := by
  intro r c w s hi h hm k cl d nxt hesc
  have he : loneEff r c w s = ctlEff (.brk (fld w 0 16)) false := loneEff_op h (decodeOp_of_wellFormed hi.1 hi.2).1
  have hrep : (loneView r c w s).q.rep = none := by simpa using h.ready.noRep
  have hch := (choose_sequential (reedOf (fetched r w s) r) hrep (.inr (.inr (.inr ⟨fld w 0 16, rfl⟩)))).trans
    (choose_none _ _ hrep)
  rw [loneView_q, loneView_pc, loneView_nxt] at hch
  obtain ⟨m, pf, -, hexec⟩ := exec_ctl he h hi
  have hctx := loneReed_ctl_ctx he m pf
  rw [loneDone_ctl he h (fun _ _ => Ctl.noConfusion) hch] at hctx
  have htrap : trapAfter (loneView r c w s) (reedOf (fetched r w s) r) (.brk (fld w 0 16)) =
      some { cause := causeBREAK, sub := fld w 0 16 } := by
    unfold trapAfter
    rw [reedOf_fetched]
    rfl
  rw [htrap, hch] at hexec
  have hother (e : Nat) (hne : e ≠ c) := loneReed_other (w := w) (s := s) (r := r) m pf hne
  generalize loneReed r c w s m pf = X at hctx hexec hother
  obtain ⟨hkept, hfar, henter, hmem⟩ := boundary_takeExc (e := { cause := causeBREAK, sub := fld w 0 16 }) nxt k.run.pc
    (k.run.pc + 1) rfl (by rw [hctx]; exact hesc) (by rw [hctx]; exact h.ready.noStop) (by rw [hctx]; exact h.ready.noDue) hother hm
  refine ⟨boundary r c (takeExc r c { cause := causeBREAK, sub := fld w 0 16 } nxt k.run.pc (k.run.pc + 1) (setReed r X s)),
    hexec, hkept, hfar, ?_⟩
  rw [hctx] at hmem henter
  rw [henter, entered_of_no_flags rfl]
  exact ⟨rfl, rfl, rfl, hmem⟩

/-! ### A bundle that faults before its data accesses (R67, R152, R159) -/

section
variable {r c : Nat} {w : W32} {s : State} {e : Exc}

/-- The reed after its one-syllable bundle was suppressed at its front, in one beat (R152). -/
def suppressedReed (r c : Nat) (w : W32) (s : State) : Reed :=
  { addBeats c 1 ((reedOf (fetched r w s) r).setCtx c (ctxAt s r c)) with latch := [], wait := none }

/-- The suppressed bundle's context: one beat has passed. -/
theorem suppressedReed_ctx : (suppressedReed r c w s).ctxOf c =
    { ctxAt s r c with sched := { (ctxAt s r c).sched with beats := (ctxAt s r c).sched.beats + 1 } } := by
  have hbeats := addBeats_ctx_same c 1 ((reedOf (fetched r w s) r).setCtx c (ctxAt s r c))
  rw [ctxOf_setCtx] at hbeats
  exact hbeats

/-- The other contexts of a suppressed bundle's reed. -/
theorem suppressedReed_other (d : Nat) (hd : d ≠ c) : (suppressedReed r c w s).ctxOf d = ctxAt s r d := by
  have hbeats := addBeats_ctx_other c d 1 ((reedOf (fetched r w s) r).setCtx c (ctxAt s r c)) hd
  have hfetched : (reedOf (fetched r w s) r).ctxOf d = ctxAt s r d := by rw [reedOf_fetched]; rfl
  rw [ctxOf_setCtx_other _ _ _ _ hd, hfetched] at hbeats
  exact hbeats

variable (h : Ready r c s)
include h

/-- The fetch of a last syllable brings a ready reed's bundle to its boundary. -/
theorem fetchSyl_ready (hstop : stop w = true) (hw : (fetchAt s r (reedOf s r) (ctxAt s r c).run.pc 0).1 = w) :
    fetchSyl r w s = tryIssue r (fetched r w s) := by
  rw [ctxAt] at hw
  simp [fetchSyl, h.runs, h.free, h.empty, hw, latchWhole, hstop, fetched]

/-- A front fault suppresses a bundle whose budget is not used up. -/
theorem tryIssue_frontFault (hbudget : budgetSpent (ctxAt s r c) [w] = false)
    (hfault : frontFault (loneView r c w s) (reedOf (fetched r w s) r) = some e) :
    tryIssue r (fetched r w s) = suppress r c e 1 (fetched r w s) := by
  have hrun : (reedOf (fetched r w s) r).running = some c := by rw [reedOf_fetched]; exact h.runs
  have hk : (reedOf (fetched r w s) r).ctxOf c = ctxAt s r c := by rw [reedOf_fetched]; rfl
  have hl : (reedOf (fetched r w s) r).latch = [w] := by rw [reedOf_fetched]
  unfold tryIssue
  simp only [hrun, hk, hl, hbudget, trapReady, h.noTrap]
  rw [show viewOf (fetched r w s) r c (reedOf (fetched r w s) r) none = loneView r c w s from rfl, hfault]
  simp

/-- A bundle suppressed for an ILL exception that does not concern the personality: the exception is taken, and nothing else
happens. -/
theorem suppress_ill {sub : Nat} (hsub : sub ≠ 6) : suppress r c { cause := causeILL, sub := sub } 1 (fetched r w s) =
    boundary r c (takeExc r c { cause := causeILL, sub := sub } (ctxAt s r c).run.pc (ctxAt s r c).run.pc
      ((ctxAt s r c).run.pc + 1) (setReed r (suppressedReed r c w s) s)) := by
  have hk : (reedOf (fetched r w s) r).ctxOf c = ctxAt s r c := by rw [reedOf_fetched]; rfl
  have hl : (reedOf (fetched r w s) r).latch = [w] := by rw [reedOf_fetched]
  have hretire : retireDue 4 (addBeats c 1 ((reedOf (fetched r w s) r).setCtx c (ctxAt s r c))) =
      addBeats c 1 ((reedOf (fetched r w s) r).setCtx c (ctxAt s r c)) :=
    retireDue_nil 4 (by rw [addBeats_stations, setCtx_stations, reedOf_fetched]; exact h.noLou)
  unfold suppress
  extract_lets x k pc npc run k1 x0 x1
  have hpc : pc = (ctxAt s r c).run.pc := congrArg (·.run.pc) hk
  have hnpc : npc = (ctxAt s r c).run.pc + 1 := by
    show pc + BitVec.ofNat 16 x.latch.length = _
    rw [hpc, hl]
    rfl
  have hk1 : k1 = ctxAt s r c := (if_neg fun hc => hsub hc.2).trans hk
  have hx0 : x0 = addBeats c 1 (x.setCtx c (ctxAt s r c)) :=
    (congrArg (fun k => retireDue 4 (addBeats c 1 (x.setCtx c k))) hk1).trans hretire
  have hx1 : x1 = suppressedReed r c w s := congrArg (fun y : Reed => { y with latch := [], wait := none }) hx0
  have hset : setReed r x1 (fetched r w s) = setReed r (suppressedReed r c w s) s := by rw [hx1]; exact setReed_setReed ..
  have hnote (u : State) : noteExc r { cause := causeILL, sub := sub } u = u :=
    if_neg fun hc => absurd (show causeILL = causeMEMERR from hc.1) (by decide)
  rw [hset, hnote, hpc, hnpc]

end

/-! ### Undefined opcodes (R64, R67) -/

/-- The subcode of a word that the opcode map leaves undefined, its first check failed (R67). -/
theorem sylCheck_undefined {w : W32} (pers priv : Bool) (h : decodeOp w = none) :
    sylCheck pers priv none w = some (if majDefined w then 2 else 1) := by
  have hminor : minorOk w = false := by rw [minorOk, h]
  cases hmaj : majDefined w <;> simp [sylCheck, hmaj, hminor]

/-- A fetched bundle of one undefined word faults in its decoding. -/
theorem frontFault_undefined {v : View} {x : Reed} {w : W32} (hx : x.latch = [w]) (hparcel : fetchParcel v 1 = none)
    (hbad : fetchBad v x 1 = none) (hpers : v.q.persCheck = false) (h : decodeOp w = none) :
    frontFault v x = some { cause := causeILL, sub := if majDefined w then 2 else 1 } := by
  unfold frontFault
  simp only [hx, List.length_singleton, hparcel, hbad, hpers, decodeCheck, sylCheck_undefined _ _ h, Bool.false_and]
  rfl

/-- Settles O20: the bundle is suppressed at its front, and ILL enters its handler at the bundle's own address. -/
theorem undefinedOpcodeEntersIll : Obligations.UndefinedOpcodeEntersIll := by
  intro r c w s hr hdec h hstop hw hbudget hparcel hbad hpers hm k d e hesc
  have hfault := frontFault_undefined (by rw [reedOf_fetched]) hparcel hbad (by rw [loneView_q]; exact hpers) hdec
  have hexec : exec (.undefinedOpcode r w) s =
      .next (boundary r c (takeExc r c e k.run.pc k.run.pc (k.run.pc + 1) (setReed r (suppressedReed r c w s) s))) := by
    show sylStep none r w s = _
    rw [sylStep, if_neg (not_not_intro hdec), if_neg (Nat.not_le.2 hr), fetchSyl_ready h hstop hw,
      tryIssue_frontFault h hbudget hfault, suppress_ill h (by split <;> decide)]
  have hctx := suppressedReed_ctx (r := r) (c := c) (w := w) (s := s)
  have hother := suppressedReed_other (r := r) (c := c) (w := w) (s := s)
  generalize suppressedReed r c w s = X at hexec hctx hother
  obtain ⟨hkept, hfar, henter, hmem⟩ := boundary_takeExc (e := e) k.run.pc k.run.pc (k.run.pc + 1) rfl
    (by rw [hctx]; exact hesc) (by rw [hctx]; exact h.noStop) (by rw [hctx]; exact h.noDue) hother hm
  refine ⟨_, hexec, hkept, hfar, ?_⟩
  rw [hctx] at hmem henter
  rw [henter, entered_of_no_flags rfl]
  exact ⟨rfl, congrArg (fun p => { k.frame k.run.pc with rep := p } :: k.run.frames) h.noRep, rfl, hmem⟩

end Sys2Proof.Machine
end

section
/-! SUPPORT. The Q slot: long operations take their stations (R105, R110, R113). -/

namespace Sys2Proof.Machine

/-! ### Long operations issue (R105, R110, R113) -/

/-- The operation in the station that a syllable of the Q slot takes. -/
def louStation (k : Ctx) (c : Nat) (o : LouOp) (w : W32) : Station :=
  { ctx := c, op := o, pr := bitOf w 4, rm := roundOf k.regs.fsw, ftz := ftzOf k.regs.fsw
    constTime := k.regs.constTime, a := louOperand k.regs o (fld w 10 5), b := louOperand k.regs o (fld w 5 5)
    qd := fld w 15 3, fpc := k.run.pc, dze := o.isDivide && bitOf k.regs.fsw fswDZE, seq := 0, issued := 0 }

section
variable {r c : Nat} {w : W32} {s : State} {t : Station}

/-- A long operation that computes does nothing but take its station. -/
theorem loneEff_lou {o : LouOp} (h : Lone r c w s) (hdec : decodeOp w = some (.lou o)) (ho : o ≠ .lbar) :
    loneEff r c w s = { issue := some (louStation (ctxAt s r c) c o w) } := by
  rw [loneEff_op h hdec]
  unfold louStation
  rw [← loneView_g r c w s, ← loneView_pc r c w s]
  cases o
  case lbar => exact absurd rfl ho
  all_goals rfl

/-- One long operation's station: the last of its reed, with its issue number and clock (R105). -/
theorem issueStations_stations (c : Nat) {e : Eff} (x : Reed) (he : e.issue = some t) :
    (issueStations c [e] x).stations = x.stations ++ [{ t with seq := x.louSeq, issued := x.clock }] := by
  simp [issueStations, he]

/-- One long operation's context: its Q register reads pending (R110). -/
theorem issueStations_ctx (c : Nat) {e : Eff} (x : Reed) (he : e.issue = some t) :
    (issueStations c [e] x).ctxOf c =
      let k := x.ctxOf c
      { k with run := { k.run with
        qValid := putBit k.run.qValid t.qd false, qIssue := Tab.set k.run.qIssue t.qd x.louSeq } } := by
  simp only [issueStations, he, List.foldl_cons, List.foldl_nil]
  exact ctxOf_setCtx ..

variable (he : loneEff r c w s = { issue := some t })
include he

/-- The stations of the reed after a bundle that issues a long operation. -/
theorem loneReed_issue_stations (h : Lone r c w s) (m : Nat) (pf : Option (W16 × List W32)) :
    ∃ q n, (loneReed r c w s m pf).stations = [{ t with seq := q, issued := n }] := by
  have hissue : (loneEff r c w s).issue = some t := by rw [he]
  have hnone : (reedOf (fetched r w s) r).stations = [] := (congrArg Reed.stations (reedOf_fetched r w s)).trans h.ready.noLou
  exact ⟨_, _, (issueStations_stations c _ hissue).trans (congrArg (· ++ _) hnone)⟩

/-- The context in the reed after a bundle that issues a long operation, but for its beats. -/
theorem loneReed_issue_ctx (m : Nat) (pf : Option (W16 × List W32)) :
    ∃ b q, (loneReed r c w s m pf).ctxOf c =
      let k := loneDone r c w s
      { k with run := { k.run with qValid := putBit k.run.qValid t.qd false, qIssue := q }
               sched := { k.sched with beats := b } } := by
  have hissue : (loneEff r c w s).issue = some t := by rw [he]
  have hctx := issueStations_ctx c (addDiscard m (addBeats c m
    (addBeats c (localBeats [loneEff r c w s]) ((reedOf (fetched r w s) r).setCtx c (loneDone r c w s))))) hissue
  rw [addDiscard_ctx, addBeats_ctx_same, addBeats_ctx_same, ctxOf_setCtx] at hctx
  exact ⟨_, _, hctx⟩

end

/-- A long operation that computes issues: it takes the one station of the reed, and its Q register reads pending. -/
theorem exec_issue {i : Instr} {so : SylOp} {r c : Nat} {w : W32} {s : State} {t : Station} (hi : Spells i so r w)
    (h : Lone r c w s) (he : loneEff r c w s = { issue := some t }) :
    ∃ u, exec i s = .next u ∧ OnlyCtx r c s u ∧ (∃ q n, (reedOf u r).stations = [{ t with seq := q, issued := n }]) ∧
      (ctxAt u r c).regs = (ctxAt s r c).regs ∧ (ctxAt u r c).page = (ctxAt s r c).page ∧
      (ctxAt u r c).run.q = (ctxAt s r c).run.q ∧
      (ctxAt u r c).run.qValid = putBit (ctxAt s r c).run.qValid t.qd false := by
  have hq : ∀ n, (loneEff r c w s).readsQ = some n → bitOf (ctxAt s r c).run.qValid n = true := by simp [he]
  obtain ⟨m, pf, -, hdone⟩ := completeBundle_any h hq
  have hstate : loneState r c w s (loneReed r c w s m pf) = setReed r (loneReed r c w s m pf) s := by
    simp [loneState, he, placed]
  have hctl : (loneEff r c w s).ctl = .none := by rw [he]
  have htrap : trapAfter (loneView r c w s) (reedOf (fetched r w s) r) .none = none := by simp [trapAfter, h.ready.noStep]
  rw [hstate, hctl, htrap] at hdone
  obtain ⟨b, qi, hctx⟩ := loneReed_issue_ctx he m pf
  rw [loneDone_bare h hctl (fun _ _ => Ctl.noConfusion) (by rw [he]) (by rw [he]) (by rw [he]) rfl] at hctx
  have hother (e : Nat) (hne : e ≠ c) := loneReed_other (w := w) (s := s) (r := r) m pf hne
  have hstations := loneReed_issue_stations he h m pf
  generalize loneReed r c w s m pf = X at hdone hctx hother hstations
  have hquiet : boundary r c (setReed r X s) = setReed r X s := by
    apply boundary_quiet <;> rw [reedOf_setReed, hctx]
    · exact h.ready.noStop
    · exact h.ready.noDue
  refine ⟨setReed r X s, ?_, ⟨?_, fun e hne => ?_⟩, ?_, ?_⟩
  · rw [exec_any hi.1 hi.2 h hq (by rw [he]) (by rw [he]) (by simp [he]), hdone]
    exact congrArg _ hquiet
  · rw [OnlyReed, reedOf_setReed]
  · rw [ctxAt, reedOf_setReed, hother e hne]
  · rw [reedOf_setReed]
    exact hstations
  · rw [ctxAt_setReed, hctx]
    exact ⟨rfl, rfl, rfl, rfl⟩

/-- Settles O13: an operation that computes takes a station; LBAR does nothing. -/
theorem longOperationTakesItsStation : Obligations.LongOperationTakesItsStation := by
  intro i o r c w s hi h k g
  have hdec := (decodeOp_of_wellFormed hi.1 hi.2).1
  by_cases ho : o = .lbar
  · subst ho
    have he : loneEff r c w s = ctlEff .none true := loneEff_op h hdec
    obtain ⟨t, hh, hexec, honly, -, hstations, hctx⟩ := exec_transfer hi h he rfl rfl
    refine ⟨t, hexec, honly, ?_⟩
    rw [hctx]
    exact ⟨rfl, rfl, rfl, hstations, rfl⟩
  · obtain ⟨u, hexec, honly, ⟨q, n, hstation⟩, hregs, hpage, hq, hvalid⟩ := exec_issue hi h (loneEff_lou h hdec ho)
    refine ⟨u, hexec, honly, hregs, hpage, hq, ?_⟩
    rw [if_neg ho]
    exact ⟨_, hstation, rfl, rfl, rfl, rfl, rfl, rfl, rfl, rfl, rfl, rfl, rfl, hvalid⟩

end Sys2Proof.Machine
end
